-- ==== Sys2Proof/Word.lean ====
section
/-! DEFINITION. The word types of the Dvormas D1088 and their plainest arithmetic (R4, R5). -/
namespace Sys2Proof

/-- A byte, the unit of every memory address (R5). -/
abbrev Byte := BitVec 8

/-- A 64-bit word: a scalar register, a tuple word, a Leash entry (R74, R277, R299). -/
abbrev Word := BitVec 64

/-- One 128-bit word of a Shepherd's store (R188). -/
abbrev Insn := BitVec 128

/-- A Howl time: a 64-bit unsigned count of beats (R28). -/
abbrev Time := BitVec 64

/-- The mask of the low `n` bits, as a number. -/
def lowMask (n : Nat) : Nat := 2 ^ n - 1

end Sys2Proof
end

