-- ==== Sys2Proof/Config.lean ====
section
/-! DEFINITION. What an implementation fixes and the values the spec leaves open: every constant here is
opaque, so no proof can see its value. -/
namespace Sys2Proof

/-- The free 64-bit value of occasion `n` (log entry 3). -/
opaque Config.freeWord : Nat → Word

/-- The free byte of occasion `n` (R113: contents an engine reset leaves unspecified; log entry 3). -/
opaque Config.freeByte : Nat → Byte

/-- The free accumulator entry of occasion `n` (log entry 3). -/
opaque Config.freeAcc : Nat → BitVec 32

/-- What an error beyond a code's guarantee does, of R246: 0 reported uncorrectable, 1 miscorrected, otherwise silent
(log entry 6). -/
opaque Config.beyondCode : Nat → Nat

/-- FUNC code and FP32 input to FP32 result, for the functions R177 bounds but does not fix; used where it keeps the bound (log entry 7). -/
opaque Config.specialFn : Nat → BitVec 32 → BitVec 32

/-- The stochastic-rounding generator of R138: seed, step, core, stream, PC, element to 16 bits (log entry 8). -/
opaque Config.srValue : Word → Word → Nat → Nat → Nat → Nat → Nat

/-- The order in which the checksum lane adds `n` terms, where it is a permutation of them (R179; log entry 73). -/
opaque Config.laneOrder : Nat → List Nat

/-- The keyed bank hash of a stack: key, stack, granule to pseudo-channel (R370; log entry 9). -/
opaque Config.bankHash : Word → Nat → Nat → Nat

/-- The true-random source (R243, R371; log entry 3). -/
opaque Config.trueRandom : Nat → Word

/-- The stack's RAAIMT, a figure of the HBM part that the spec leaves to JEDEC (R374; log entry 17). -/
opaque Config.raaimt : Nat

/-- The stack's RAAMMT (R374; log entry 17). -/
opaque Config.raammt : Nat

/-- The refresh rate that a temperature report requires (R374; log entry 17). -/
opaque Config.refreshRate : BitVec 32 → Nat

/-- Requests a source's queue at a stack controller holds, less one (R373; log entry 67). -/
opaque Config.requestQueue : Nat

/-- The next value of a node of the thermal model (R585): node, its value, PIN, coolant in, coolant out, flow; the
spec gives time constants and resistances and no update rule (log entry 18). -/
opaque Config.thermalNode : Nat → BitVec 32 → BitVec 32 → BitVec 32 → BitVec 32 → BitVec 32 → BitVec 32

/-- The forecast of input power that the launch queues give (R582, R592), from a digest of them (log entry 18). -/
opaque Config.forecastPower : Nat → BitVec 32

/-- The envelope current I_env as R581 moves it: its value, the forecast and the measured IIN (log entry 18). -/
opaque Config.envelopeCurrent : BitVec 32 → BitVec 32 → BitVec 32 → BitVec 32

/-- SHA-512 (FIPS 180-4): bytes to 64 bytes (R321, R560, R573; log entry 21). -/
opaque Config.sha512 : List Byte → List Byte

/-- Ed25519 verification (RFC 8032): public key, message, signature (R559; log entry 21). -/
opaque Config.verifyEd25519 : List Byte → List Byte → List Byte → Bool

/-- ML-DSA-65 verification (FIPS 204): public key, message, signature (R559; log entry 21). -/
opaque Config.verifyMlDsa : List Byte → List Byte → List Byte → Bool

/-- The dual signature of a message by the device identity key (R559, R569; log entry 21). -/
opaque Config.signDevice : List Byte → List Byte

/-- The vendor root's Ed25519 public key, fused at manufacture (R560; log entry 22). -/
opaque Config.vendorEd : List Byte

/-- The vendor root's ML-DSA-65 public key (R560; log entry 22). -/
opaque Config.vendorMl : List Byte

/-- The device identity's public keys and certificate: 0 Ed25519, 1 ML-DSA-65, 2 DEVID_CERT (R551, R561; log entry 22). -/
opaque Config.deviceId : Nat → List Byte

/-- Values set per module at manufacture: SERIAL, MFG_DATE, MODULE_UID, ASSEMBLY_REV, MGMT_MAC by subindex of 0x0100, and
0x10 for the MAC (R534, R546; log entry 22). -/
opaque Config.manufacture : Nat → List Byte

/-- Layout version of a region of the map under a management firmware version (R541; log entry 22). -/
opaque Config.layoutVersion : BitVec 32 → Nat → Nat

/-- Version of the firmware each component leaves manufacture with, by component 1-4 (R550; log entry 22). -/
opaque Config.factoryVersion : Nat → BitVec 32

/-- SECURITY_VERSION of that firmware (R573; log entry 22). -/
opaque Config.factorySecurity : Nat → Nat

/-- Body digest of that firmware (R570; log entry 22). -/
opaque Config.factoryDigest : Nat → List Byte

/-- The calibration set a module leaves manufacture with, by object 0-4, each of its own size (R548, R595; log entry 22). -/
opaque Config.factoryCal : Nat → List Byte

/-- Generic defaults of SERDES_EQ and HBM_SEEDS, objects 3 and 4: presets that the spec leaves to their standards (R598, R599; log entry
22). -/
opaque Config.genericCal : Nat → List Byte

/-- Valtoell's JEP106 manufacturer code, in IDCODE [11:1] (R627; log entry 22). -/
opaque Config.jep106 : BitVec 11

/-- Digest of the boot ROM (R570; log entry 22). -/
opaque Config.romDigest : List Byte

/-- Boot ROM entries of its measurement record: 0 VERSION, 1 SECURITY_VERSION, 2 FLOOR (R570; log entry 22). -/
opaque Config.romVersion : Nat → Nat

/-- Whether the L tables of an image, named by its DIGEST, deliver the logits of more contexts than a Retriever has slots
before the command of the first: the contexts come from registers, and the spec gives no way to read them from the
image (R352; log entry 23). -/
opaque Config.logitOrderBad : List Byte → Bool

/-- The slew a follower sets for an offset, in 0.01 ppm: R41 bounds it and gives no law (log entry 26). -/
opaque Config.slewFor : BitVec 32 → BitVec 32

end Sys2Proof
end

