-- ==== Sys2Proof/Machine/Bits.lean ====
section
/-! DEFINITION. Bit fields, byte order, Howl comparison and small list helpers (R4, R5, R32). -/
namespace Sys2Proof.Machine

/-- Field of `len` bits whose lowest bit is `lo` (R4). -/
def fieldOf (w lo len : Nat) : Nat := (w >>> lo) % 2 ^ len

/-- Field `[lo+len-1 : lo]` of a bit vector, as a number (R4). -/
def bitsOf {n : Nat} (w : BitVec n) (lo len : Nat) : Nat := fieldOf w.toNat lo len

/-- One bit of a bit vector (R4). -/
def bitAt {n : Nat} (w : BitVec n) (i : Nat) : Bool := fieldOf w.toNat i 1 == 1

/-- A bit as a number. -/
def bit01 (b : Bool) : Nat := if b then 1 else 0

/-- `v` placed with its low bit at `lo` (R4). -/
def at_ (lo v : Nat) : Nat := v <<< lo

/-- Little-endian value of a list of bytes (R5). -/
def leValue : List Byte → Nat
  | [] => 0
  | b :: t => b.toNat + 256 * leValue t

/-- The `n` little-endian bytes of a number (R5). -/
def leBytes : Nat → Nat → List Byte
  | 0, _ => []
  | n + 1, v => BitVec.ofNat 8 v :: leBytes n (v / 256)

/-- Big-endian value of a list of bytes, for keys and hashes that are named so. -/
def beValue (l : List Byte) : Nat := l.foldl (fun a b => a * 256 + b.toNat) 0

/-- The difference of two Howl times as a signed 64-bit number (R32). -/
def howlDiff (a b : Time) : Int := (a - b).toInt

/-- `a` is not before `b` on the Howl (R32). -/
def howlGe (a b : Time) : Bool := decide (0 ≤ howlDiff a b)

/-- The later of two Howl times (R32). -/
def howlMax (a b : Time) : Time := if howlGe a b then a else b

/-- A launch time more than 2^62 beats ahead of `now` is invalid (R32). -/
def howlTooFar (l now : Time) : Bool := decide ((2 : Int) ^ 62 < howlDiff l now)

/-- The element of a list at a place, or a default. -/
def nth {α : Type} (d : α) : List α → Nat → α
  | [], _ => d
  | a :: _, 0 => a
  | _ :: t, n + 1 => nth d t n

/-- The list with the element at a place replaced; unchanged past its end. -/
def setNth {α : Type} : List α → Nat → α → List α
  | [], _, _ => []
  | _ :: t, 0, v => v :: t
  | a :: t, n + 1, v => a :: setNth t n v

/-- Exactly `n` elements: the list cut or padded with `d`. -/
def fitTo {α : Type} (d : α) (n : Nat) (l : List α) : List α :=
  (l.take n) ++ List.replicate (n - l.length) d

/-- Consecutive chunks of `n` elements (fuel: the length of the list). -/
def chunksAux {α : Type} (n : Nat) : Nat → List α → List (List α)
  | 0, _ => []
  | f + 1, l => match l with
    | [] => []
    | l => l.take n :: chunksAux n f (l.drop n)

/-- Consecutive chunks of `n` elements. -/
def chunks {α : Type} (n : Nat) (l : List α) : List (List α) := chunksAux n l.length l

/-- Rounded-up division. -/
def ceilDiv (a b : Nat) : Nat := (a + b - 1) / b

/-- `a` rounded up to a multiple of `b`. -/
def alignUp (a b : Nat) : Nat := ceilDiv a b * b

/-- Saturating addition of a statistics counter (R493). -/
def satAdd (w a n : Nat) : Nat := min (a + n) (2 ^ w - 1)

/-- Whether two byte ranges `[a, a+la)` and `[b, b+lb)` share a byte. -/
def rangesMeet (a la b lb : Nat) : Bool := decide (a < b + lb) && decide (b < a + la) && decide (0 < la) && decide (0 < lb)

/-- Fold over `0 … n-1`. -/
def foldN {α : Type} (n : Nat) (f : α → Nat → α) (a : α) : α := (List.range n).foldl f a

/-- The characters of a name as bytes. -/
def strBytes (s : String) : List Byte := s.toList.map (fun c => BitVec.ofNat 8 c.toNat)

/-- One bit of a reflected CRC-32 with the IEEE 802.3 polynomial (log entry 27). -/
def crcBit (c : Nat) : Nat := if c % 2 = 1 then (c / 2) ^^^ 0xEDB88320 else c / 2

/-- One byte of a CRC-32. -/
def crcByte (c : Nat) (b : Byte) : Nat := crcBit (crcBit (crcBit (crcBit (crcBit (crcBit (crcBit (crcBit (c ^^^ b.toNat))))))))

/-- CRC-32 with the IEEE 802.3 polynomial (R393, R549). -/
def crc32 (l : List Byte) : Nat := (l.foldl crcByte 0xFFFFFFFF) ^^^ 0xFFFFFFFF

end Sys2Proof.Machine
end

