-- ==== Sys2Proof/Machine/Types.lean ====
section
/-! DEFINITION. Operand types of the commands, and the packet that moves on the mesh (R11-R15, R269-R273). -/
namespace Sys2Proof.Machine

/-- A logical core by its index 32r + c (R11). -/
abbrev CoreId := Fin 1024
/-- A physical core by its index 34·pr + pc (R12). -/
abbrev PhysId := Fin 1088
/-- A stream of a core (R74). -/
abbrev StreamId := Fin 8
/-- A pack number: 0-7 are W0-W7, 8-15 are E0-E7 (R24). -/
abbrev PackId := Fin 16
/-- A sequence context (R14). -/
abbrev CtxId := Fin 512
/-- An HBM stack number: 0-3 are N0-N3, 4-7 are S0-S3 (R25). -/
abbrev StackId := Fin 8
/-- A fabric port F0-F17 (R14). -/
abbrev PortId := Fin 18
/-- A Bowl of a core (R296). -/
abbrev BowlId := Fin 64
/-- A virtual function: one per pack (R24). -/
abbrev VfId := Fin 16

/-- The five ports of a router (R261), with the direction codes of R60. -/
inductive Dir where
  | n | e | s | w | l
  deriving DecidableEq, Repr

/-- Direction code: 0 N, 1 E, 2 S, 3 W, 4 L (R60). -/
def Dir.code : Dir → Nat
  | .n => 0 | .e => 1 | .s => 2 | .w => 3 | .l => 4

/-- The directions in the order N, E, S, W, L (R277, R288). -/
def Dir.all : List Dir := [.n, .e, .s, .w, .l]

/-- The direction a code names. -/
def Dir.ofCode : Nat → Dir
  | 0 => .n | 1 => .e | 2 => .s | 3 => .w | _ => .l

/-- The input on which a neighbour receives what leaves by this output. -/
def Dir.opposite : Dir → Dir
  | .n => .s | .s => .n | .e => .w | .w => .e | .l => .l

/-- The header fields of R270, as numbers. -/
structure Hdr where
  nw : Nat
  note : Bool
  doff : Nat
  rowMask : Nat
  colMask : Nat
  epoch : Nat
  period : Nat
  tag : Nat
  gen : Nat
  srcDev : Nat
  srcStream : Nat
  srcCore : Nat
  dstDev : Nat
  dstBowl : Nat
  dstCore : Nat
  rid : Nat
  len : Nat
  rfmt : Bool
  reduce : Bool
  mcast : Bool
  long : Bool
  service : Bool
  ptype : Nat
  deriving DecidableEq, Repr

/-- A header whose every field is 0. -/
def Hdr.zero : Hdr :=
  { nw := 0, note := false, doff := 0, rowMask := 0, colMask := 0, epoch := 0, period := 0, tag := 0, gen := 0,
    srcDev := 0, srcStream := 0, srcCore := 0, dstDev := 0, dstBowl := 0, dstCore := 0, rid := 0, len := 0,
    rfmt := false, reduce := false, mcast := false, long := false, service := false, ptype := 0 }

/-- A packet: header, tuple or note words, and the bytes of its payload flits (R269). `exit` is the EXIT
field of the route it was sent on (R265, R274); `origin` is 0 for a core, 1 for the host ring, 2 for the
management plane (R286, R313). -/
structure Pkt where
  hdr : Hdr
  words : List Word
  payload : List Byte
  exit : Bool
  origin : Nat
  deriving DecidableEq, Repr

/-- Physical outcome on a link: no error, `n` words corrected, or an uncorrectable word (R264). -/
inductive LinkEcc where
  | clean
  | corrected (words : Nat)
  | uncorrectable
  deriving DecidableEq, Repr

/-- Bits of an accumulator entry that a fault of the matrix array inverts (R179, R184): a physical outcome. -/
structure Upset where
  row : Fin 32
  col : Fin 32
  flip : BitVec 32
  deriving DecidableEq, Repr

/-- The four engines of a core (R70, R112). -/
inductive Engine where
  | matrix | vector | drain | fetch
  deriving DecidableEq, Repr

/-- A reset of the ladder that may not have completed (R484, R485). -/
inductive ResetTarget where
  | engine (core : CoreId) (engine : Engine)
  | core (core : CoreId)
  | pack (p : PackId)
  | warm
  | cold
  deriving DecidableEq, Repr

/-- What a slice finds (R448, R449). -/
inductive Finding where
  | pass
  | marchFail (row : Fin 96)
  | analogue (part : Fin 5)
  | lbist
  | loopback
  | retriever
  | supply
  deriving DecidableEq, Repr

/-- A finding of the full vet pass: the physical core, or the Retriever of its pack, and the slice (R445). -/
structure VetFinding where
  core : PhysId
  retriever : Bool
  slice : Fin 64
  finding : Finding
  deriving DecidableEq, Repr

/-- Physical outcomes that a start-up step meets (R519, R562, R563, R605, R608): the NODE_ID pins, firmware slots that fail their
verification as they stand in flash, component and slot (slot B is true), stacks and ports that fail training, and the findings of the vet
pass. -/
structure StartFindings where
  nodeId : Fin 32
  badSlots : List (Fin 6 × Bool)
  hbmStacks : BitVec 8
  ports : BitVec 18
  vet : List VetFinding
  deriving DecidableEq, Repr

/-- How a write to management flash ends (R539, R549, R584): complete, failed, or cut by a reset or power loss before the response. -/
inductive FlashEnd where
  | done | failed | cut
  deriving DecidableEq, Repr

/-- Who sends a request for a dictionary command (R532, R566): the path, true for the mailbox; the source address and port of a request
from the management port; and the SESSION field. -/
structure Requester where
  mailbox : Bool
  addr : Nat
  port : Nat
  session : Nat
  deriving DecidableEq, Repr

/-- A UDP datagram on the management segment: source address and port, destination port, hop limit, whether it carries an extension header
(a fragment's included), whether its checksum holds, whether it came to a multicast address, and its payload (R520, R528). -/
structure Datagram where
  src : BitVec 128
  srcPort : BitVec 16
  dstPort : BitVec 16
  hop : BitVec 8
  extended : Bool
  sumOk : Bool
  multicast : Bool
  bytes : List Byte
  deriving DecidableEq, Repr

/-- A frame that reaches the management port (R520, R534): a datagram, an ICMPv6 packet with its source, hop limit and whether it carries an
extension header, a frame of any other kind, the failure of duplicate address detection, or a collision. -/
inductive MgmtFrame where
  | udp (d : Datagram)
  | icmp (src : BitVec 128) (hop : BitVec 8) (extended : Bool)
  | other
  | dadFailed
  | collision
  deriving DecidableEq, Repr

/-- What an emergency clock-down acts on (R38). -/
inductive ClockTarget where
  | pack (p : PackId)
  | half (east : Bool)
  deriving DecidableEq, Repr

/-- The packs of a clock-down's target. -/
def ClockTarget.packs : ClockTarget → List Nat
  | .pack p => [p.val]
  | .half east => (List.range 8).map (fun i => i + (if east then 8 else 0))

end Sys2Proof.Machine
end

