-- ==== Sys2Proof/Machine/CoreTypes.lean ====
section
/-! DEFINITION. The state records of one core: streams, Collars, Bowls, engines, router (R70-R318). -/
namespace Sys2Proof.Machine

/-- Stream states of R75, codes 0-7 in this order. -/
inductive StreamState where
  | uninstalled | ready | parkedCollar | parkedBowl | parkedClaim | parkedLaunch | faulted | stopped
  deriving DecidableEq, Repr

/-- The code of a stream state (R75). -/
def StreamState.code : StreamState → Nat
  | .uninstalled => 0 | .ready => 1 | .parkedCollar => 2 | .parkedBowl => 3
  | .parkedClaim => 4 | .parkedLaunch => 5 | .faulted => 6 | .stopped => 7

/-- A gate recorded by STEPDONE: local Collar and threshold (R224-R226). -/
structure Gate where
  collar : Nat
  threshold : BitVec 32
  deriving DecidableEq, Repr

/-- One stream (R74), with what it waits for while parked (R88). -/
structure Stream where
  pc : BitVec 12
  x : Tab Word
  lc : Tab (BitVec 32)
  st : StreamState
  fault : BitVec 32
  pend : BitVec 16
  waitCollar : Nat
  waitT : BitVec 32
  waitBowl : Nat
  waitReg : Nat
  retake : Bool
  woken : Bool
  gate : Option Gate
  claimsUsed : Tab Nat
  issued : Nat
  lastIssue : Nat
  deriving DecidableEq, Repr

/-- A stream the loaded program does not use (R75 code 0). -/
def Stream.none : Stream :=
  { pc := 0, x := [], lc := [], st := .uninstalled, fault := 0, pend := 0, waitCollar := 0, waitT := 0, waitBowl := 0,
    waitReg := 0, retake := false, woken := false, gate := .none, claimsUsed := [], issued := 0, lastIssue := 0 }

/-- A Collar (R96) with its ledger descriptor (R103). -/
structure Collar where
  value : BitVec 32
  gen : BitVec 8
  ovf : Bool
  ledgered : Bool
  configured : Bool
  ledger : Word
  deriving DecidableEq, Repr

/-- A Collar no image has configured. -/
def Collar.none : Collar :=
  { value := 0, gen := 0, ovf := false, ledgered := false, configured := false, ledger := 0 }

/-- A Bowl: its configuration word (R296), open bit, pointers of R301, the WP not yet published (R302), and the RP the router still
uses in the beat a TAKE completes: `rpOld`, in the beat before `rpAt` (R303). -/
structure Bowl where
  cfg : BitVec 128
  isOpen : Bool
  wp : BitVec 15
  wpNext : BitVec 15
  rp : BitVec 15
  rpOld : BitVec 15
  rpAt : Nat
  deriving DecidableEq, Repr

/-- A Bowl no image has configured. -/
def Bowl.none : Bowl := { cfg := 0, isOpen := false, wp := 0, wpNext := 0, rp := 0, rpOld := 0, rpAt := 0 }

/-- A scratchpad range a scoreboard slot holds (R79). -/
structure SRange where
  base : Nat
  len : Nat
  write : Bool
  deriving DecidableEq, Repr

/-- The class of an accumulator (R154). -/
inductive AccClass where
  | fp32 | int32
  deriving DecidableEq, Repr

/-- An engine instruction in flight: the word, the registers read at issue (R195), its scoreboard ranges
(R78, R79), the drain configuration as it stood at issue (R163), and how far it has come. -/
structure EngOp where
  seq : Nat
  engine : Engine
  stream : Nat
  pc : BitVec 12
  word : Insn
  ra : Word
  rb : Word
  rd : Word
  chain : List Word
  ranges : List SRange
  step : Word
  computed : Nat
  drained : Nat
  issuedReq : Nat
  doneReq : Nat
  abandoned : Bool
  deriving DecidableEq, Repr

/-- An operation the mesh port holds: its packet, and for a SEND the payload's place in scratchpad, read as the
route's Leash entry sends it (R202, R203), and `at_` the beat from which its header is present (R287). `held` marks a packet that a mesh
fault holds there (R292, R293). -/
structure MeshOp where
  seq : Nat
  stream : Nat
  pc : BitVec 12
  pkt : Pkt
  src : Option (Nat × Nat)
  ranges : List SRange
  at_ : Time
  held : Bool
  deriving DecidableEq, Repr

/-- What a Collar operation does (R97). -/
inductive CollarOp where
  | post (n : BitVec 32)
  | fadd (n : BitVec 32) (reg : Nat)
  | claim (reg : Nat)
  | complete (index : BitVec 32) (claimGen : BitVec 8) (gen : BitVec 8)
  deriving DecidableEq, Repr

/-- A POST or COMPLETE that has issued and waits for earlier instructions of its stream (R82). -/
structure DeferredOp where
  seq : Nat
  stream : Nat
  isLocal : Bool
  collar : Nat
  op : CollarOp
  pkt : Option Pkt
  deriving DecidableEq, Repr

/-- One outstanding HBM request of a fetch engine, with the stream and PC of its instruction (R112, R376, R387). -/
structure FetchReq where
  tag : Nat
  gen : BitVec 8
  op : Nat
  stream : Nat
  pc : BitVec 12
  hbm : Nat
  spad : Nat
  len : Nat
  store : Bool
  deriving DecidableEq, Repr

/-- A Leash table: descriptor fields and entry words (R276, R277). -/
structure LeashTable where
  entries : Nat
  periods : Nat
  idle : Bool
  beats : Nat
  words : Tab Word
  deriving DecidableEq, Repr

/-- One output direction of a router: table, place in it, slip flag, its queues, and the beat of the module's clock from which its link is
free (R35, R51-R54, R62, R263). -/
structure Output where
  table : LeashTable
  shadow : Option LeashTable
  running : Bool
  head : Nat
  period : Nat
  launchAt : Time
  headSince : Time
  slipped : Bool
  freeAt : Nat
  fetchQ : List Pkt
  svcQ : List Pkt
  deriving DecidableEq, Repr

/-- A packet at a router input, the beat at which its header became present, and the beats between its flits (R64, R288). -/
structure Arrived where
  pkt : Pkt
  at_ : Time
  gap : Nat
  deriving DecidableEq, Repr

/-- One input of a router: what the link still carries, the three buffers of R263, the packets of the scheduled buffer that a mesh fault
holds, and whether a link error holds the packet on the link (R292). -/
structure Input where
  link : List Pkt
  sched : List Arrived
  fetch : List Arrived
  svc : List Arrived
  held : List Pkt
  stuck : Bool
  deriving DecidableEq, Repr

/-- An empty router input. -/
def Input.empty : Input := { link := [], sched := [], fetch := [], svc := [], held := [], stuck := false }

/-- A service multicast awaiting answers at its source; `sentAt` is the beat it left, once `left` (R286). -/
structure SvcMcast where
  tag : Nat
  colMask : Nat
  rowMask : Nat
  sentAt : Time
  left : Bool
  answered : List Nat
  refused : List Nat
  hdr : Hdr
  origin : Nat
  deriving DecidableEq, Repr

/-- A multicast that has not yet left its source. -/
def SvcMcast.of (tag : Nat) (h : Hdr) : SvcMcast :=
  { tag := tag, colMask := h.colMask, rowMask := h.rowMask, sentAt := 0, left := false, answered := [], refused := [], hdr := h, origin := 0 }

/-- One core island (R70), in logical position. `engReset` and `engAt` hold, by engine code 0 matrix, 1 vector, 2 drain, 3 fetch, whether
an engine is under reset and since when; `coreResetAt` when a core reset began; `rstCause` and `rstRecord` what led to them (R484).
`turn` is the stream that issued last (R77), and `lout` the packets made at the core that wait for room in the L input (R263). -/
structure Core where
  store : Tab Insn
  storeErr : Tab Nat
  streams : Tab Stream
  turn : Nat
  collars : Tab Collar
  bowls : Tab Bowl
  routes : Tab (BitVec 256)
  routeSent : Tab Nat
  claimRes : Tab Nat
  spad : Tab Byte
  spadErr : Tab Nat
  fence : Nat
  acc : Tab (BitVec 32)
  accClass : Tab AccClass
  dc : Tab Word
  seq : Nat
  ops : List EngOp
  mesh : List MeshOp
  deferred : List DeferredOp
  tagGen : Tab (BitVec 8)
  reqs : List FetchReq
  inputs : Tab Input
  outputs : Tab Output
  lq : List Pkt
  lout : List Pkt
  mcasts : List SvcMcast
  checked : Nat
  howlSkew : Int
  lastStreamFault : BitVec 32
  lastEcc : Word
  eccSticky : Bool
  rewriteQ : List Nat
  groomAt : Nat
  groomActive : Bool
  groomStart : Nat
  groomEnd : Nat
  groomPeriod : Nat
  vetting : Bool
  inReset : Bool
  engReset : Tab Bool
  engAt : Tab Nat
  coreResetAt : Option Nat
  rstCause : Nat
  rstRecord : Nat
  postedReady : Bool
  flitsSince : Tab Nat
  deriving DecidableEq, Repr

/-- The entry words of the idle table: a fetch lane at OFFSET 0 served from every input, and an open slot at
OFFSET 65, each of 65 flits (R280). -/
def idleWords : Tab Word := [(0, 0x7F41000000000000), (1, 0x4041000000000041)]

/-- The idle table (R276, R280). -/
def LeashTable.idleTable : LeashTable :=
  { entries := 2, periods := 1, idle := true, beats := 130, words := idleWords }

/-- An output in its state after reset: the idle table from its first entry (R276, R280). -/
def Output.reset : Output :=
  { table := .idleTable, shadow := none, running := true, head := 0, period := 0, launchAt := 0, headSince := 0,
    slipped := false, freeAt := 0, fetchQ := [], svcQ := [] }

/-- A core after reset with no program: fence 0, idle tables, streams uninstalled (R230, R280). -/
def Core.reset : Core :=
  { store := [], storeErr := [], streams := [], turn := 7, collars := [], bowls := [], routes := [], routeSent := [], claimRes := [],
    spad := [], spadErr := [], fence := 0, acc := [], accClass := [], dc := [], seq := 0, ops := [],
    mesh := [], deferred := [], tagGen := [], reqs := [], inputs := [], outputs := [], lq := [], lout := [], mcasts := [],
    checked := 0, howlSkew := 0, lastStreamFault := 0, lastEcc := 0, eccSticky := false,
    rewriteQ := [], groomAt := 0, groomActive := false, groomStart := 0, groomEnd := 0, groomPeriod := 0, vetting := false, inReset := false, engReset := [],
    engAt := [], coreResetAt := none, rstCause := 0, rstRecord := 0,
    postedReady := false, flitsSince := [] }

end Sys2Proof.Machine
end

