-- ==== Sys2Proof/Machine/ProgTypes.lean ====
section
/-! DEFINITION. The state records of packs, programs, launches, contexts, Retrievers and fault records
(R43-R67, R319-R369, R468-R495). -/
namespace Sys2Proof.Machine

/-- PACK_STATE: 0 no program, 1 installed, 2 running, 3 being torn down, 4 held safe, 5 pack reset (R248). -/
inductive PackState where
  | empty | installed | running | tearing | heldSafe | inReset
  deriving DecidableEq, Repr

/-- The code of PACK_STATE (R248). -/
def PackState.code : PackState → Nat
  | .empty => 0 | .installed => 1 | .running => 2 | .tearing => 3 | .heldSafe => 4 | .inReset => 5

/-- A launch descriptor (R43, R44). -/
structure Descriptor where
  step : Word
  launch : Time
  gated : Bool
  margin : Nat
  deriving DecidableEq, Repr

/-- A Retriever command waiting for its logits (R351, R353). -/
structure RetrCmd where
  cancel : Bool
  irq : Bool
  deriving DecidableEq, Repr

/-- The halves held for one context and SEQ (R352, R353): the logits received and the command; `bad` marks an uncorrectable error in the logits
held (R361; log entry 47). -/
structure RetrPair where
  ctx : Nat
  seq : Nat
  slot : Bool
  logits : Tab (BitVec 32)
  seen : Tab Bool
  count : Nat
  bad : Bool
  cmd : Option RetrCmd
  deriving DecidableEq, Repr

/-- A sample in the pipeline or held for a free completion entry (R346, R354-R359). `irq` is whether its completion
raises MSI-X, fixed by the parameters it started with; `kept` marks a replayed context's skipped sample (R458); `seqno` is SEQNO_DONE at the
sample (R345). -/
structure Sample where
  ctx : Nat
  seq : Nat
  status : Nat
  token : Nat
  logprob : BitVec 32
  flags : Nat
  position : Nat
  irq : Bool
  kept : Bool
  startedAt : Time
  beats : Nat
  readyAt : Time
  seqno : Nat
  deriving DecidableEq, Repr

/-- A completion write of a Retriever in flight to its stack (R358, R376). -/
structure CplReq where
  tag : Nat
  gen : BitVec 8
  ctx : Nat
  status : Nat
  irq : Bool
  step : Word
  deriving DecidableEq, Repr

/-- The Retriever of a pack (R351-R363): the halves it holds, for each context the SEQs it has acted on (R228) and those whose logits it has done
with (R353), the sample in the pipeline, samples held, its completion writes, and the table sets with an uncorrectable error (R361; log entry
47). -/
structure Retriever where
  pairs : List RetrPair
  acted : Tab (List Nat)
  finished : Tab (List Nat)
  sampling : Option Sample
  ready : List Sample
  tagGen : Tab (BitVec 8)
  reqs : List CplReq
  stopped : Bool
  tableErr : Tab Bool
  deriving DecidableEq, Repr

/-- A Retriever that holds nothing. -/
def Retriever.reset : Retriever :=
  { pairs := [], acted := [], finished := [], sampling := none, ready := [], tagGen := [], reqs := [], stopped := false, tableErr := [] }

/-- Where a pack's teardown stands (R478): the program torn down, when the drain window opened, whether it has
ended, which of orders 4-7 are still open, and the reset it ends in. -/
structure Teardown where
  prog : Nat
  startedAt : Time
  drained : Bool
  drainEnd : Time
  dumpOpen : Bool
  zeroScratchOpen : Bool
  zeroHbmOpen : Bool
  resetOpen : Bool
  quarantineOpen : Bool
  reset : Bool
  cause : Nat
  escalated : Bool
  record : Nat
  deriving DecidableEq, Repr

/-- How a pack's launch was classified (R56, R57). -/
inductive LaunchClass where
  | onTime | overrun | gateDelayed | stale
  deriving DecidableEq, Repr

/-- A pack (R24): program, frequency step, launch queue, step in progress, Retriever, teardown. -/
structure Pack where
  state : PackState
  prog : Option Nat
  freq : Nat
  throttle : Nat
  level : Nat
  relockEnd : Option Time
  queue : List Descriptor
  nextStep : Word
  step : Word
  inStep : Bool
  everLaunched : Bool
  launchAt : Time
  readyAt : Time
  posted : Bool
  goAt : Option Time
  retr : Retriever
  teardown : Option Teardown
  resetStarted : Option Nat
  resetRecord : Nat
  resetCause : Nat
  resetEscalated : Bool
  stopping : Bool
  lastProg : Nat
  watchFrom : Nat
  overran : Bool
  headLate : Bool
  goLate : Bool
  stepGated : Bool
  deriving DecidableEq, Repr

/-- The number of no record: what a reset names that no fault led to (R471). -/
def noRecord : Nat := 2 ^ 32

/-- A pack after reset: no program, frequency step 0. -/
def Pack.reset : Pack :=
  { state := .empty, prog := none, freq := 0, throttle := 0, level := 0, relockEnd := none, queue := [], nextStep := 0,
    step := 0, inStep := false, everLaunched := false, launchAt := 0, readyAt := 0, posted := false, goAt := none,
    retr := .reset, teardown := none, resetStarted := none, resetRecord := noRecord, resetCause := 0, resetEscalated := false, stopping := false,
    lastProg := 0, watchFrom := 0, overran := false, headLate := false, goLate := false, stepGated := false }

/-- A window of a job in HBM (R367). -/
structure Window where
  off4k : Nat
  len4k : Nat
  hbmStacks : Nat
  writable : Bool
  deriving DecidableEq, Repr

/-- A loaded program: what its image fixes (R321-R327, R367) and where it stands. `opset` and `compiler` are recorded and not interpreted
(R319, R321). -/
structure Program where
  packs : Nat
  ctxFirst : Nat
  ctxCount : Nat
  margin : Nat
  seed : Word
  spanning : Bool
  multi : Bool
  extent : Nat
  device : Nat
  opset : Nat
  compiler : Nat
  checkLevel : Nat
  imageAddr : Nat
  imageLen : Nat
  windows : List Window
  used : Tab Bool
  weights : Tab Nat
  weightLen : Tab Nat
  epoch : Nat
  ofJob : Bool
  launched : Bool
  barked : Bool
  held : Bool
  seamHalt : Bool
  counted : Tab Nat
  deriving DecidableEq, Repr

/-- A program slot that holds nothing. -/
def Program.none : Program :=
  { packs := 0, ctxFirst := 0, ctxCount := 0, margin := 0, seed := 0, spanning := false, multi := false, extent := 0,
    device := 0, opset := 0, compiler := 0, checkLevel := 0, imageAddr := 0, imageLen := 0, windows := [], used := [], weights := [], weightLen := [],
    epoch := 0, ofJob := false, launched := false, barked := false, held := false, seamHalt := false,
    counted := [] }

/-- LOAD_STATE of R328. -/
inductive LoadState where
  | idle | checking | installing | installed | failed | passed
  deriving DecidableEq, Repr

/-- The code of LOAD_STATE (R328). -/
def LoadState.code : LoadState → Nat
  | .idle => 0 | .checking => 1 | .installing => 2 | .installed => 3 | .failed => 4 | .passed => 5

/-- The load in progress (R328-R335). -/
structure Load where
  state : LoadState
  checkOnly : Bool
  image : Nat
  prog : Nat
  packs : Nat
  result : Word
  resultTime : Time
  startedAt : Time
  deriving DecidableEq, Repr

/-- The launch generator (R347, R348). -/
structure LaunchGen where
  packs : BitVec 16
  gated : Bool
  period : BitVec 32
  first : Time
  running : Bool
  k : Nat
  nextStep : Word
  hostFed : Bool
  deriving DecidableEq, Repr

/-- The sampling parameters in force for a context (R338, R343). -/
structure SampParams where
  temp : BitVec 32
  topK : Nat
  topP : Nat
  seed : Word
  maskId : Nat
  irqMode : Nat
  flagMask : Nat
  deriving DecidableEq, Repr

/-- What the ring controller is doing with a context's current input entry (R344). -/
inductive RingStage where
  | idle
  | params (ok : Bool)
  | refuse
  | posted
  deriving DecidableEq, Repr

/-- A sequence context: its CONTEXTS record (R338), parameters in force, and ring registers. -/
structure Ctx where
  owner : Option Nat
  width : Nat
  vocab : Nat
  maxPos : Nat
  link : Nat
  msix : Nat
  stateAddr : Nat
  inBase : Nat
  cplBase : Nat
  inLog2 : Nat
  cplLog2 : Nat
  tableSet : Nat
  logitBf16 : Bool
  inputCollar : Nat
  fbPeriod : Nat
  fbGen : Nat
  fbDev : Nat
  fbCore : Nat
  fbBowl : Nat
  fbTag : Nat
  kvBase : Nat
  kvLen : Nat
  params : SampParams
  inTail : BitVec 32
  inSeen : BitVec 32
  cplHead : BitVec 32
  headOld : BitVec 32
  headAt : Nat
  cplTail : BitVec 32
  ringErr : BitVec 32
  stage : RingStage
  pendEntry : List Byte
  deriving DecidableEq, Repr

/-- A context no image owns. -/
def Ctx.none : Ctx :=
  { owner := .none, width := 0, vocab := 0, maxPos := 0, link := 0xFFFF, msix := 0, stateAddr := 0, inBase := 0,
    cplBase := 0, inLog2 := 0, cplLog2 := 0, tableSet := 0, logitBf16 := false, inputCollar := 0, fbPeriod := 0, fbGen := 0,
    fbDev := 0, fbCore := 0, fbBowl := 0, fbTag := 0, kvBase := 0, kvLen := 0,
    params := { temp := 0, topK := 0, topP := 0, seed := 0, maskId := 0, irqMode := 0, flagMask := 0 },
    inTail := 0, inSeen := 0, cplHead := 0, headOld := 0, headAt := 0, cplTail := 0, ringErr := 0, stage := .idle, pendEntry := [] }

/-- State of an HBM stack (R383). -/
inductive StackState where
  | untrained | training | serving | recalibrating | retraining | failed
  deriving DecidableEq, Repr

/-- The code of STACK_STATE (R383). -/
def StackState.code : StackState → Nat
  | .untrained => 0 | .training => 1 | .serving => 2 | .recalibrating => 3 | .retraining => 4 | .failed => 5

/-- A request at a stack controller: its packet and its source, 0-7 edge links west to east, 8 the ring port (R373, R389). -/
structure StackReq where
  pkt : Pkt
  source : Nat
  deriving DecidableEq, Repr

/-- An HBM stack and its controller (R364-R389). -/
structure Stack where
  state : StackState
  waiting : List StackReq
  accepted : List StackReq
  turn : Nat
  activations : Tab Nat
  temp : BitVec 32
  tempAtCal : BitVec 32
  calSince : Nat
  poison : Tab Nat
  lastError : Word
  deriving DecidableEq, Repr

/-- A stack before training (R383). -/
def Stack.reset : Stack :=
  { state := .untrained, waiting := [], accepted := [], turn := 0, activations := [], temp := 0, tempAtCal := 0,
    calSince := 0, poison := [], lastError := 0 }

/-- A Sniff dump in progress (R489, R492): the packs it covers, whether it is a device dump, its SNIFF_SEQ, when it started, and
the fault code that led to it. -/
structure Dump where
  packs : Nat
  device : Bool
  seq : BitVec 32
  startedAt : Nat
  howl : Time
  reason : Nat
  deriving DecidableEq, Repr

/-- A record of the fault log: its 16 bytes, and in `written` the FAULT_LOG_SEQ at which it was written, by which the resets a fault leads to
name it: its place moves where a fault of a lower code follows in the same beat (R470, R471). -/
structure FaultRec where
  word : BitVec 128
  written : Nat
  deriving DecidableEq, Repr

/-- A place of the fault log that holds no record: it reads 0. -/
def FaultRec.none : FaultRec := { word := 0, written := 2 ^ 32 }

/-- The fault log and the alert and reset registers (R471, R472, R494, R495). `recoveryRecord` is the record that led to the device reset
in progress. -/
structure FaultRegs where
  log : Tab FaultRec
  seq : BitVec 32
  alerts : BitVec 16
  lastReset : BitVec 32
  recovery : Nat
  warmMs : Nat
  recoveryAt : Nat
  recoveryRecord : Nat
  sniffState : Nat
  sniffSeq : BitVec 32
  dumps : List Dump
  deriving DecidableEq, Repr

end Sys2Proof.Machine
end

