-- ==== Sys2Proof/Machine/FabricTypes.lean ====
section
/-! DEFINITION. The state records of the fabric ports, the I/O ring, the job and the mirror engine (R390-R434),
and the control messages of R417 and R418. -/
namespace Sys2Proof.Machine

/-- The common header of a control message (R417). -/
structure CtrlHead where
  dir : Nat
  src : Nat
  epoch : BitVec 32
  tTx : Word
  deriving DecidableEq, Repr

/-- HELLO fields (R418). -/
structure HelloMsg where
  part : BitVec 32
  stepping : BitVec 8
  port : Nat
  expect : Nat
  rxEcho : Word
  txEcho : Word
  deriving DecidableEq, Repr

/-- BEACON fields (R418). -/
structure BeaconMsg where
  rxEcho : Word
  txEcho : Word
  masterOffset : BitVec 32
  heard : BitVec 8
  muzzled : Bool
  deriving DecidableEq, Repr

/-- The bodies of R418, and REWIND of R459. -/
inductive CtrlBody where
  | hello (m : HelloMsg)
  | beacon (m : BeaconMsg)
  | bark (origin reason : Nat) (howl : Time)
  | suspect (subject reporter state : Nat)
  | ready (step : Word)
  | go (step : Word) (goTime : Time)
  | join (latest : BitVec 32) (count : Nat)
  | start (epoch : BitVec 32) (howl : Word)
  | rewind (origin : Nat) (step : Word)
  deriving DecidableEq, Repr

/-- A control message: one flit on C0 or C1 (R417). -/
structure CtrlMsg where
  head : CtrlHead
  body : CtrlBody
  deriving DecidableEq, Repr

/-- One flit in a virtual channel with its packet-boundary bits (R393). -/
structure Flit where
  bytes : List Byte
  sop : Bool
  eop : Bool
  deriving DecidableEq, Repr

/-- A link frame: flit bytes and the 128-bit trailer (R392, R393). -/
structure Frame where
  flit : List Byte
  trailer : BitVec 128
  deriving DecidableEq, Repr

/-- PORT_STATE of R433. -/
inductive PortState where
  | disabled | training | up | member | down | muzzled
  deriving DecidableEq, Repr

/-- The code of PORT_STATE (R433). -/
def PortState.code : PortState → Nat
  | .disabled => 0 | .training => 1 | .up => 2 | .member => 3 | .down => 4 | .muzzled => 5

/-- A packet waiting in the ring, with the beat it began to wait (R402), the port it came from (18 for the mesh or the ring
itself), and whether it came on class 1 (R397). -/
structure RingPkt where
  pkt : Pkt
  since : Time
  fromPort : Nat
  cls1 : Bool
  deriving DecidableEq, Repr

/-- A control message received: its flit, its arrival time in 1/256 beat and its channel (R395, R412). -/
structure CtrlIn where
  flit : List Byte
  arrival : Word
  vc : Nat
  deriving DecidableEq, Repr

/-- A fabric port: the link layer (R392-R394), its virtual channels (R395), and its HELLO and beacon timing (R408, R412).
`ctrl` holds control messages received and not yet handled; `resend` is the
place in the replay buffer of the next frame to resend. -/
structure Port where
  state : PortState
  txSeq : Nat
  rxNext : Nat
  waiting : Bool
  retryPending : Bool
  retriesSince : Nat
  replay : List Frame
  resend : Nat
  vcs : Tab (List Flit)
  credits : Tab Nat
  owed : Tab Nat
  rx : Tab (List (List Byte))
  ctrl : List CtrlIn
  neighbour : Nat
  delay : Int
  helloCount : Nat
  helloSent : Nat
  excluded : Bool
  rxEcho : Word
  txEcho : Word
  lastTx : Word
  heardThis : Bool
  deriving DecidableEq, Repr

/-- The receive buffers of R395, which are a transmitter's first credits. -/
def vcBuffers : Tab Nat := [(0, 8), (1, 8), (2, 32), (3, 32), (4, 32), (5, 32), (6, 64), (7, 64)]

/-- A port before training (R433). -/
def Port.reset : Port :=
  { state := .disabled, txSeq := 0, rxNext := 0, waiting := false, retryPending := false, retriesSince := 0, replay := [],
    resend := 0, vcs := [], credits := vcBuffers, owed := [], rx := [], ctrl := [], neighbour := 0, delay := 0, helloCount := 0,
    helloSent := 0, excluded := false, rxEcho := 0, txEcho := 0, lastTx := 0, heardThis := false }

/-- A request that awaits its answer at its source ring (R400, R401): its header, its origin (0 a core, f + 1 a host function,
18 the management plane), the host token, and the reply flits reserved. -/
structure RingReq where
  hdr : Hdr
  origin : Nat
  token : Nat
  sentAt : Time
  flits : Nat
  mirror : Bool
  deriving DecidableEq, Repr

/-- The I/O ring controller (R398-R402): packets from fabric ports, packets from the mesh by class, channel-closed packets,
requests that await answers, and packets addressed to the ring itself. -/
structure Ring where
  arrivals : List RingPkt
  requests : List RingPkt
  replies : List RingPkt
  collectives : List RingPkt
  closed : List RingPkt
  awaiting : List RingReq
  deliver : List RingPkt
  deriving DecidableEq, Repr

/-- A ring that holds nothing. -/
def Ring.empty : Ring := { arrivals := [], requests := [], replies := [], collectives := [], closed := [], awaiting := [], deliver := [] }

/-- The liveness state of a neighbour (R420). -/
inductive Liveness where
  | heard | suspect | silent | muzzled
  deriving DecidableEq, Repr

/-- What a device keeps of one neighbour (R420-R423). -/
structure Neighbour where
  live : Liveness
  missed : Nat
  heardNow : Bool
  hearsUs : Bool
  declared : Bool
  deriving DecidableEq, Repr

/-- A neighbour not yet heard. -/
def Neighbour.fresh : Neighbour := { live := .heard, missed := 0, heardNow := false, hearsUs := false, declared := false }

/-- JOB_STATE of R433. -/
inductive JobState where
  | none | forming | running | barked | selfMuzzled | startFailed
  deriving DecidableEq, Repr

/-- The code of JOB_STATE (R433). -/
def JobState.code : JobState → Nat
  | .none => 0 | .forming => 1 | .running => 2 | .barked => 3 | .selfMuzzled => 4 | .startFailed => 5

/-- The job: membership, forming, gates, liveness and Barks (R403-R434). -/
structure Job where
  state : JobState
  epoch : BitVec 32
  coord : BitVec 16
  extent : BitVec 16
  startResult : Nat
  parent : BitVec 16
  startedAt : Time
  lists : Tab (List Nat)
  listsFixed : Bool
  joins : Tab Bool
  joinLatest : BitVec 32
  joinCount : Nat
  joinSent : Bool
  readys : Tab Bool
  readySent : Bool
  neighbours : Tab Neighbour
  reports : Tab Nat
  flooded : Tab Bool
  dead : List Nat
  poorPeriods : Nat
  lastPeriod : Nat
  barkActed : Bool
  lastBark : Word
  lastBarkTime : Time
  lastDead : BitVec 16
  deadCount : BitVec 16
  offset : BitVec 32
  offsetPeak : BitVec 32
  slew : BitVec 32
  barkLineUntil : Option Time
  purgeFrom : Option Time
  purgeEpoch : BitVec 32
  deriving DecidableEq, Repr

/-- A device in no job (R433). -/
def Job.reset : Job :=
  { state := .none, epoch := 0, coord := 0, extent := 0, startResult := 0, parent := 0, startedAt := 0, lists := [],
    listsFixed := false, joins := [], joinLatest := 0, joinCount := 0, joinSent := false, readys := [], readySent := false,
    neighbours := [], reports := [], flooded := [], dead := [], poorPeriods := 0, lastPeriod := 0,
    barkActed := false, lastBark := 0, lastBarkTime := 0, lastDead := 0, deadCount := 0, offset := 0, offsetPeak := 0, slew := 0,
    barkLineUntil := .none, purgeFrom := .none, purgeEpoch := 0 }

/-- MIRROR_STATE and the engine's pass (R430-R433): `phase` is 0 before OPEN is answered, 1 while writes are sent, 2 after
COMMIT is sent; `inSeq`, `inOpen` and `inBytes` are the pass this device accepts. -/
structure Mirror where
  state : Nat
  seq : BitVec 32
  partner : BitVec 16
  acceptFrom : BitVec 16
  acceptBase : Word
  acceptLen : Word
  src : Tab Word
  dst : Tab Word
  phase : Nat
  range : Nat
  offset : Nat
  bytes : Nat
  inSeq : BitVec 32
  inOpen : Bool
  inBytes : Nat
  deriving DecidableEq, Repr

/-- A mirror engine that has run no pass (R433). -/
def Mirror.reset : Mirror :=
  { state := 0, seq := 0, partner := 0, acceptFrom := 0, acceptBase := 0, acceptLen := 0, src := [], dst := [], phase := 0,
    range := 0, offset := 0, bytes := 0, inSeq := 0, inOpen := false, inBytes := 0 }

end Sys2Proof.Machine
end

