-- ==== Sys2Proof/Machine/PlatformTypes.lean ====
section
/-! DEFINITION. The state records of vet slices and muzzling, re-placement, power states, sensors and the envelope
controller (R435-R467, R580-R614). -/
namespace Sys2Proof.Machine

/-- A physical core (R22, R435, R448-R450): muzzle, its vet code and slice, its next slice, the slices passed in the
pack's rotation, and its repair entries by 4·bank + spare (R255). -/
structure PhysCore where
  muzzled : Bool
  reason : Nat
  slice : Nat
  nextSlice : Nat
  done : Nat
  repair : Tab (BitVec 16)
  deriving DecidableEq, Repr

/-- A physical core with no findings. -/
def PhysCore.reset : PhysCore := { muzzled := false, reason := 0, slice := 0, nextSlice := 0, done := 0, repair := [] }

/-- A slice in progress: its unit in the pack's turn order (68 is the Retriever), and its number (R441). -/
structure Slice where
  unit : Nat
  slice : Nat
  startedAt : Nat
  deriving DecidableEq, Repr

/-- What a pack keeps of its vet slices (R441, R461, R462, R465). -/
structure VetPack where
  degraded : Bool
  held : Bool
  reason : Nat
  rotation : Time
  turn : Nat
  retrSlice : Nat
  active : Option Slice
  deriving DecidableEq, Repr

/-- A pack that has run no slice. -/
def VetPack.reset : VetPack :=
  { degraded := false, held := false, reason := 0, rotation := 0, turn := 0, retrSlice := 0, active := none }

/-- A launch snapshot (R454). -/
structure Snapshot where
  streams : Tab Stream
  collars : Tab Collar
  bowls : Tab Bowl
  dc : Tab Word
  checked : Nat
  deriving DecidableEq, Repr

/-- A core with no snapshot. -/
def Snapshot.none : Snapshot := { streams := [], collars := [], bowls := [], dc := [], checked := 0 }

/-- Where a re-placement stands (R456). -/
inductive ReplacePhase where
  | drain | shift | reload | ready
  deriving DecidableEq, Repr

/-- A re-placement in progress (R456-R460): the vet code, and for each logical core of the program's packs the physical core
that hosted it before the first muzzle, plus 1; `moved` are the cores shifted and not yet reloaded. -/
structure Replace where
  prog : Nat
  phase : ReplacePhase
  failAt : Time
  step : Word
  code : Nat
  old : Tab Nat
  moved : List Nat
  deriving DecidableEq, Repr

/-- The completion a context's Retriever wrote last, kept for a replay (R458). -/
structure Kept where
  step : Word
  token : Nat
  status : Nat
  flags : Nat
  position : Nat
  deriving DecidableEq, Repr

/-- Vet slices, muzzle map, snapshots, re-placement and maintenance (R435-R467). -/
structure Vet where
  phys : Tab PhysCore
  packs : Tab VetPack
  snaps : Tab Snapshot
  repl : List Replace
  kept : Tab (Option Kept)
  mapSeq : BitVec 32
  lastTime : Time
  last : BitVec 32
  maintState : Nat
  maintCleared : Nat
  maintAction : Nat
  deriving DecidableEq, Repr

/-- The power states of R602. -/
inductive DevState where
  | off | service | idle | run | safe
  deriving DecidableEq, Repr

/-- DEV_STATE code; Off has none (R602). -/
def DevState.code : DevState → Nat
  | .off => 0 | .service => 1 | .idle => 2 | .run => 3 | .safe => 4

/-- What start-up is running for (R604, R487, R488). -/
inductive StartKind where
  | power | cold | warm
  deriving DecidableEq, Repr

/-- Power state, start-up, boots, the open-phase keys (R243: core c holds draw `keyDraw` + c of the true-random source), the Howl
generator and its captures (R29-R34, R546, R602-R614). `step` is the last start-up step completed and `doing` the one in progress;
`stalled` marks a start-up stopped under R563, and `romService` the boot ROM's recovery service (R562). `hours` holds the beats with
VIN applied up to `vinAt`, when VIN was last applied. -/
structure Power where
  dev : DevState
  starting : Option StartKind
  step : Nat
  doing : Nat
  stalled : Bool
  romService : Bool
  ready : Bool
  rails : Bool
  booted : Bool
  safeCause : Nat
  safeAt : Nat
  railsDue : Bool
  valveHold : Bool
  mapChanged : Bool
  cycles : Nat
  hours : Nat
  vinAt : Nat
  bootAt : Nat
  layoutMask : Nat
  layoutVersions : List Nat
  flashWrites : Nat
  howlOn : Bool
  refOk : Bool
  refLocked : Bool
  ppsCapture : Time
  ppsAt : Nat
  ppsCount : BitVec 32
  nodeId : Nat
  keyDraw : Nat
  deriving DecidableEq, Repr

/-- One set of sensor readings, each an F32 code (R546, R547, R585, R591): a physical input. -/
structure Readings where
  vin : BitVec 32
  iin : BitVec 32
  pin : BitVec 32
  pinAvg : BitVec 32
  tCoolIn : BitVec 32
  tCoolOut : BitVec 32
  flow : BitVec 32
  pumpRpm : BitVec 32
  packTemp : List (BitVec 32)
  packPower : List (BitVec 32)
  stackTemp : List (BitVec 32)
  deriving DecidableEq, Repr

/-- Readings of a module that has taken none: every sensor object reads 0 (R547). -/
def Readings.zero : Readings :=
  { vin := 0, iin := 0, pin := 0, pinAvg := 0, tCoolIn := 0, tCoolOut := 0, flow := 0, pumpRpm := 0, packTemp := [], packPower := [], stackTemp := [] }

/-- Sensors, the envelope controller and its actuators (R580-R594, R621). `clockdown` is the packs with an emergency clock-down in
force, `clearSince` the beat a condition for one was last seen for each pack, `flowStopSince` and `pumpStopSince` since when FLOW and PUMP_RPM
have read 0 with the valve open, `energy` the input energy below one joule in microjoules, and `calLost`
is CAL_LOST. Times are beats of `clock`. -/
structure Env where
  now : Readings
  pinPeak : BitVec 32
  holdupOk : Bool
  holdupSince : Nat
  ienv : BitVec 32
  die : BitVec 32
  plate : BitVec 32
  coolant : BitVec 32
  valve : BitVec 32
  integral : BitVec 32
  clockdown : Nat
  clearSince : Tab Nat
  flowStopSince : Option Nat
  pumpStopSince : Option Nat
  coolSince : Tab Nat
  raisedAt : Tab Nat
  flowLowSince : Option Nat
  flowCut : Bool
  powerRaisedAt : Nat
  powerLowAt : Nat
  energy : Nat
  calLost : Bool
  deriving DecidableEq, Repr

/-- The envelope controller of a module that has not booted. -/
def Env.reset : Env :=
  { now := .zero, pinPeak := 0, holdupOk := false, holdupSince := 0, ienv := 0, die := 0, plate := 0, coolant := 0, valve := 0,
    integral := 0, clockdown := 0, clearSince := [], flowStopSince := none, pumpStopSince := none, coolSince := [], raisedAt := [], flowLowSince := none, flowCut := false,
    powerRaisedAt := 0, powerLowAt := 0, energy := 0, calLost := false }

end Sys2Proof.Machine
end

