-- ==== Sys2Proof/Machine/HostTypes.lean ====
section
/-! DEFINITION. The state records of the host interface: functions, MSI-X, mailbox, service sends, launch windows
(R496-R517). -/
namespace Sys2Proof.Machine

/-- One MSI-X table entry (R516): message address, data and the mask bit. -/
structure MsixVec where
  addr : Word
  data : BitVec 32
  masked : Bool
  deriving DecidableEq, Repr

/-- A vector as the base specification resets it: masked (log entry 20). -/
def MsixVec.reset : MsixVec := { addr := 0, data := 0, masked := true }

/-- A service send that has not yet left the ring (R510, R533): function, or 17 for the management plane. -/
structure SvcSend where
  fn : Nat
  token : Nat
  pkt : Pkt
  deriving DecidableEq, Repr

/-- A PCIe function: 0 is PF0, v + 1 the VF of pack v (R497, R501, R510, R511, R516). -/
structure HostFn where
  w : Tab Word
  desc : Word
  overflow : Bool
  nackLog : Tab (BitVec 128)
  nackSeq : BitVec 32
  msix : Tab MsixVec
  pba : Tab Bool
  msixOn : Bool
  d3hot : Bool
  deriving DecidableEq, Repr

/-- A function after its reset (R499, R501). -/
def HostFn.reset : HostFn :=
  { w := [], desc := 0, overflow := false, nackLog := [], nackSeq := 0, msix := [], pba := [], msixOn := false, d3hot := false }

/-- The host interface (R496-R517). `sent` lists the MSI-X messages sent, function and vector, oldest first. -/
structure HostIf where
  fns : Tab HostFn
  vfEnable : Bool
  sends : List SvcSend
  mbBusy : Bool
  mbDone : Bool
  mbOver : Bool
  mbIrq : Bool
  mbLen : Nat
  mbReq : List Byte
  mbResp : List Byte
  lwGated : Tab Bool
  lwDrops : Tab (BitVec 32)
  rate : Nat
  width : Nat
  flitMode : Bool
  sent : List (Nat × Nat)
  deriving DecidableEq, Repr

end Sys2Proof.Machine
end

