-- ==== Sys2Proof/Machine/MgmtTypes.lean ====
section
/-! DEFINITION. The state records of the management port, the calibration record, security, firmware update and JTAG
(R518-R601, R626-R628). -/
namespace Sys2Proof.Machine

/-- A request queued from the management port: source address and port, and the datagram's payload (R521, R523). -/
structure MgmtReq where
  addr : Nat
  port : Nat
  bytes : List Byte
  deriving DecidableEq, Repr

/-- The kept SEQ and response of one source pair (R523). -/
structure KeptResp where
  addr : Nat
  port : Nat
  seq : Nat
  resp : List Byte
  deriving DecidableEq, Repr

/-- A segmented transfer (R529-R531). ID 0 is a free slot. -/
structure Transfer where
  id : Nat
  upload : Bool
  kind : Nat
  target : Nat
  length : Nat
  next : Nat
  data : List Byte
  lastAt : Nat
  deriving DecidableEq, Repr

/-- A free transfer slot. -/
def Transfer.free : Transfer := { id := 0, upload := false, kind := 0, target := 0, length := 0, next := 0, data := [], lastAt := 0 }

/-- The management controller's protocol state (R518-R534, R552). `notes` lists the NOTIFY bodies sent, oldest first. -/
structure Mgmt where
  queue : List MgmtReq
  kept : List KeptResp
  slots : Tab Transfer
  lastId : Nat
  subAddr : Nat
  subPort : Nat
  subMask : Nat
  nseq : BitVec 32
  notes : List (List Byte)
  mailboxTurn : Bool
  silent : Bool
  dbgBad : Tab Nat
  blobs : Tab (List Byte)
  deriving DecidableEq, Repr

/-- A calibration set: origin, WRITTEN bits and the five objects by index 0-4 (R548, R595). -/
structure CalSet where
  origin : Nat
  written : Nat
  objs : Tab (List Byte)
  deriving DecidableEq, Repr

/-- The calibration record in flash, whether its checks hold, its CRC field where they do not, and the set the objects read (R549, R595,
R600, R601). -/
structure Calib where
  flash : CalSet
  good : Bool
  badCrc : BitVec 32
  inUse : CalSet
  deriving DecidableEq, Repr

/-- OWNER_STATE (R564). -/
inductive OwnerState where
  | unowned | owned | locked
  deriving DecidableEq, Repr

/-- The code of OWNER_STATE (R546). -/
def OwnerState.code : OwnerState → Nat
  | .unowned => 0 | .owned => 1 | .locked => 2

/-- An owner session (R566): path 0 management port, 1 mailbox; the bound source of a port session. -/
structure Session where
  number : Nat
  path : Nat
  addr : Nat
  port : Nat
  lastUse : Nat
  deriving DecidableEq, Repr

/-- An attestation report of a path: 0 management port, 1 mailbox, 2 DOE (R569). -/
structure Attest where
  nonce : List Byte
  startHowl : Time
  pending : Bool
  report : List Byte
  deriving DecidableEq, Repr

/-- A path that has started no report. -/
def Attest.none : Attest := { nonce := [], startHowl := 0, pending := false, report := [] }

/-- Ownership, sessions, debug and attestation (R559-R571). -/
structure Sec where
  owner : OwnerState
  edPub : List Byte
  mlPub : List Byte
  epoch : BitVec 32
  sessSeq : Word
  sessions : List Session
  debug : Bool
  debugSinceBoot : Bool
  debugUntil : Nat
  attest : Tab Attest
  deriving DecidableEq, Repr

/-- A firmware slot (R570, R573, R575). Firmware of manufacture is held without its header and signatures. -/
structure FwSlot where
  valid : Bool
  version : BitVec 32
  secVer : Nat
  raise : Bool
  digest : List Byte
  body : List Byte
  header : List Byte
  sig : List Byte
  deriving DecidableEq, Repr

/-- A slot that holds no valid image. -/
def FwSlot.empty : FwSlot := { valid := false, version := 0, secVer := 0, raise := false, digest := [], body := [], header := [], sig := [] }

/-- The commit record of a component (R574, R575). -/
structure FwComp where
  active : Nat
  trial : Bool
  slots : Tab FwSlot
  packSlot : Tab Nat
  floor : Nat
  deriving DecidableEq, Repr

/-- A component as the commit record holds it before any update: slot A active. -/
def FwComp.reset : FwComp := { active := 0, trial := false, slots := [], packSlot := [], floor := 0 }

/-- The update flow (R550, R572-R579): `comp` and `slot` name the image staged or being received; `moving` is the pack a
per-pack commit has in reset, `todo` those after it; `tried` is whether a slot on trial has been booted,
and `trialSince` the beat the trial's 30 s count from. -/
structure Upd where
  state : Nat
  result : Nat
  comp : Nat
  slot : Nat
  header : List Byte
  moving : Option Nat
  todo : List Nat
  tried : Bool
  trialSince : Nat
  comps : Tab FwComp
  deriving DecidableEq, Repr

/-- Instructions of the TAP (R627). -/
inductive TapInsn where
  | idcode | samplePreload | extest | clamp | highz | lbistSelect | lbistRun | lbistResult | bypass
  deriving DecidableEq, Repr

/-- The TAP, its boundary register, and the LBIST registers (R626-R628). -/
structure Jtag where
  insn : TapInsn
  boundary : Word
  pinsDriven : Bool
  pinsFloat : Bool
  select : BitVec 24
  result : BitVec 72
  deriving DecidableEq, Repr

end Sys2Proof.Machine
end

