-- ==== Sys2Proof/Syntax.lean ====
section
/-! DEFINITION. The commands of the module: one constructor per row of spec/opcode_table.json, with its operands. A command is what
a host, a management station, a probe or a pin does to the module, or an event of one of its own units; physical outcomes that the spec
gives no rule for are operands. -/
namespace Sys2Proof
open Sys2Proof.Machine

/-- The commands, in the order of the table. -/
inductive Instr where
  /-- POWER_ON: VIN rising past 37.0 V moves the module from Off to Service and starts start-up at step 0 (R604). -/
  | powerOn
  /-- POWER_OFF: VIN falling below 35.0 V moves the module to Off from any state (R604). -/
  | powerOff
  /-- MOD_RESET_ASSERT: An assertion of MOD_RESET_N of at least 10 µs restarts start-up from step 0 once the pin is released (R621). -/
  | modResetAssert
  /-- STARTUP_STEP_DONE: A start-up step completes, STARTUP_STEP advances and the next step begins, ending in Ready at step 8 (R605). -/
  | startupStepDone (findings : StartFindings)
  /-- HOWL_REF_LOCK: HOWL_REF comes within range and the Howl generator locks to it, slewing the beat rate without a jump (R29). -/
  | howlRefLock
  /-- HOLDOVER: HOWL_REF stops or leaves its range after lock, and the generator enters holdover while the Howl keeps counting (R29). -/
  | holdover
  /-- HOWL_BROADCAST: Every 2^12 beats the generator broadcasts the full Howl count on both spines (R30). -/
  | howlBroadcast
  /-- HOWL_PPS_CAPTURE: A rising edge of HOWL_PPS captures the management controller's Howl copy and increments HOWL_PPS_COUNT (R33). -/
  | howlPpsCapture
  /-- TIMED_LAUNCH: A timed step launches at a pack at max(L, F) and wakes its streams parked on launch (R45). -/
  | timedLaunch (pack : PackId)
  /-- STEP_READY_POST: A participant that has finished its step and whose gates are met posts step-ready into the pack, device and job tree (R46). -/
  | stepReadyPost (core : CoreId)
  /-- GATED_LAUNCH: A participant launches a gated step when its Howl copy reaches the go time T, or at once if the go arrives late (R46). -/
  | gatedLaunch (pack : PackId)
  /-- OVERRUN: The launch time L of the next step arrives at a pack not ready to launch, and the overrun is counted (R56). -/
  | overrun (pack : PackId)
  /-- RELOCK_DONE: The islands of a pack finish relocking after a frequency change, and the pack becomes ready to launch (R37). -/
  | relockDone (pack : PackId)
  /-- EMERGENCY_CLOCKDOWN: An emergency clock-down sets a pack or half to step 15 within 16 beats, covered by cycle stretching (R38). -/
  | emergencyClockdown (target : ClockTarget)
  /-- CYCLE_STRETCH: The droop detector trips and the adaptive clock stretches a core cycle, counting it in STRETCHED_CYCLES (R72). -/
  | cycleStretch (core : CoreId)
  /-- ENTRY_START: A Leash entry starts once it is at the head, its first flit is present and the downstream side accepts (R51). -/
  | entryStart (core : CoreId) (dir : Dir)
  /-- SLIP_BEGIN: An output holds its head entry past the entry's nominal beat, and a slip is counted and possibly captured (R53). -/
  | slipBegin (core : CoreId) (dir : Dir)
  /-- OPEN_SLOT_SERVICE: An open slot at the head sends queued service packets that fit before its nominal end, or moves on at once (R63). -/
  | openSlotService (core : CoreId) (dir : Dir)
  /-- FETCH_LANE_SERVICE: A fetch lane at the head carries fetch packets from its input's fetch buffer in arrival order under the fit rule (R279). -/
  | fetchLaneService (core : CoreId) (dir : Dir)
  /-- FIRST_SLIP_REARM: Writing 1 clears the first-slip capture and re-arms it (R54). -/
  | firstSlipRearm
  /-- HEADER_ARRIVAL: A scheduled or merge header arrives on a router input, and its output entries are matched within the look-ahead (R281). -/
  | headerArrival (core : CoreId) (dir : Dir) (ecc : LinkEcc)
  /-- LAST_MESH_FAULT_READ: A read of LAST_MESH_FAULT re-arms the mesh fault record (R294). -/
  | lastMeshFaultRead
  /-- ROUTER_DRAINED: A router of a torn-down program becomes drained and switches back to the idle table (R283). -/
  | routerDrained (core : CoreId)
  /-- SERVICE_ANSWER: A leaf's service answer to a service multicast reaches its source and is recorded (R286). -/
  | serviceAnswer (core : CoreId)
  /-- SERVICE_MCAST_TIMEOUT: 2^14 beats after a service multicast left, the source sends a mask NACK for leaves that refused or stayed silent (R286). -/
  | serviceMcastTimeout (core : CoreId)
  /-- BOWL_DELIVERY: A packet bound for a Bowl is judged at the head of the L output and is discarded, refused, held or written (R304). -/
  | bowlDelivery (core : CoreId)
  /-- WRITE_POINTER_PUBLISH: One beat after a packet's last flit leaves the L output the router publishes the Bowl's new write pointer (R302). -/
  | writePointerPublish (core : CoreId) (bowl : BowlId)
  /-- CHANNEL_CLOSED: A channel-closed packet reaches the sending core and faults the named stream, and the pack Barks (R312). -/
  | channelClosed (core : CoreId)
  /-- SERVICE_NACK: A service NACK is written to the sending core's service-return Bowl, or discarded and counted if it cannot be (R313). -/
  | serviceNack (core : CoreId)
  /-- STREAM_WAKE: A parked stream becomes Ready within 2 core cycles of its waking event (R89). -/
  | streamWake (core : CoreId) (stream : StreamId)
  /-- NOP: NOP issues and does nothing (R197). -/
  | nop (core : CoreId) (stream : StreamId)
  /-- MOVI: MOVI writes a 64-bit immediate into a scalar register (R197). -/
  | movi (core : CoreId) (stream : StreamId)
  /-- ALU: ALU writes the result of the function selected by SUB on two operands into a register (R198). -/
  | alu (core : CoreId) (stream : StreamId)
  /-- LCSET: LCSET sets a loop counter from an immediate or a register (R197). -/
  | lcset (core : CoreId) (stream : StreamId)
  /-- LOOP: LOOP decrements a loop counter and branches while it stays nonzero (R197). -/
  | loop (core : CoreId) (stream : StreamId)
  /-- BR: BR branches to TARGET when its condition on two registers holds (R199). -/
  | br (core : CoreId) (stream : StreamId)
  /-- RDSR: RDSR reads the selected status value into a register (R200). -/
  | rdsr (core : CoreId) (stream : StreamId)
  /-- FETCH: FETCH issues to the fetch engine a copy of rows from HBM into scratchpad (R204). -/
  | fetch (core : CoreId) (stream : StreamId)
  /-- STORE: STORE issues to the fetch engine a copy of rows from scratchpad into HBM (R204). -/
  | store (core : CoreId) (stream : StreamId)
  /-- MMA: MMA issues matrix products of P problems into an accumulator and drains them through the named chain (R208). -/
  | mma (core : CoreId) (stream : StreamId)
  /-- DCFG: DCFG loads and checks one drain configuration from 64 B of scratchpad (R211). -/
  | dcfg (core : CoreId) (stream : StreamId)
  /-- ADD: Vector ADD writes the elementwise sum of two operands (R215). -/
  | add (core : CoreId) (stream : StreamId)
  /-- SUB: Vector SUB writes the elementwise difference A − B (R215). -/
  | sub (core : CoreId) (stream : StreamId)
  /-- MUL: Vector MUL writes the elementwise product (R215). -/
  | mul (core : CoreId) (stream : StreamId)
  /-- FMA: Vector FMA writes A × B + D in place with one rounding (R215). -/
  | fma (core : CoreId) (stream : StreamId)
  /-- MIN: Vector MIN writes the elementwise minimum (R215). -/
  | min (core : CoreId) (stream : StreamId)
  /-- MAX: Vector MAX writes the elementwise maximum (R215). -/
  | max (core : CoreId) (stream : StreamId)
  /-- ABS: Vector ABS writes the elementwise magnitude (R215). -/
  | abs (core : CoreId) (stream : StreamId)
  /-- NEG: Vector NEG writes the elementwise negation (R215). -/
  | neg (core : CoreId) (stream : StreamId)
  /-- CMP: Vector CMP writes a mask from the selected relation of two operands (R173). -/
  | cmp (core : CoreId) (stream : StreamId)
  /-- SEL: Vector SEL writes A where the mask is set and keeps D elsewhere (R215). -/
  | sel (core : CoreId) (stream : StreamId)
  /-- CVT: Vector CVT converts a vector to another format, generating MX or per-row scales when asked (R175). -/
  | cvt (core : CoreId) (stream : StreamId)
  /-- FUNC: Vector FUNC applies the selected special function elementwise (R177). -/
  | func (core : CoreId) (stream : StreamId)
  /-- REDUCE: Vector REDUCE writes the SUM, MAX, MIN, ARGMAX or ARGMIN of a vector (R174). -/
  | reduce (core : CoreId) (stream : StreamId)
  /-- GATHER: Vector GATHER reads table entries by an index vector, giving +0 for out-of-range indices (R176). -/
  | gather (core : CoreId) (stream : StreamId)
  /-- FILL: Vector FILL writes a scalar into every element (R215). -/
  | fill (core : CoreId) (stream : StreamId)
  /-- SEND: SEND sends a long data packet of LEN flits from scratchpad on a route, optionally with a note (R217). -/
  | send (core : CoreId) (stream : StreamId)
  /-- SENDT: SENDT sends NW scalar registers as one tuple on a route (R218). -/
  | sendt (core : CoreId) (stream : StreamId)
  /-- TAKE: TAKE skips pads, copies the head tuple of its Bowl into registers and advances RP, or parks if empty (R308). -/
  | take (core : CoreId) (stream : StreamId)
  /-- POST: POST adds n to a local Collar, or sends the add to a remote Collar on a route (R221). -/
  | post (core : CoreId) (stream : StreamId)
  /-- WAIT: WAIT parks the stream until a local Collar reaches the threshold (R221). -/
  | wait (core : CoreId) (stream : StreamId)
  /-- FADD: FADD adds n to a Collar and returns the old value to a register, locally or by a remote request (R222). -/
  | fadd (core : CoreId) (stream : StreamId)
  /-- RESET: RESET sets a local plain Collar's value and OVF to 0 (R221). -/
  | reset (core : CoreId) (stream : StreamId)
  /-- CLAIM: CLAIM requests the next index of a ledgered Collar and parks until the reply arrives (R221). -/
  | claim (core : CoreId) (stream : StreamId)
  /-- COMPLETE: COMPLETE reports a claimed index as done to a ledgered Collar (R221). -/
  | complete (core : CoreId) (stream : StreamId)
  /-- STEPDONE: STEPDONE sends null claims for unused claim entries, records the gate and parks the stream on launch (R225). -/
  | stepdone (core : CoreId) (stream : StreamId)
  /-- RSAMPLE: RSAMPLE sends a command asking the Retriever to sample a context once its logits are complete (R228). -/
  | rsample (core : CoreId) (stream : StreamId)
  /-- RCANCEL: RCANCEL sends a command making the Retriever discard a context's logits for the step (R228). -/
  | rcancel (core : CoreId) (stream : StreamId)
  /-- REMOTE_POST: A remote POST packet arrives at the home core and is applied to the Collar or discarded (R97). -/
  | remotePost (core : CoreId)
  /-- REMOTE_FETCH_ADD: A remote FETCH_ADD packet is applied at the home core and a reply carrying the old value is returned (R97). -/
  | remoteFetchAdd (core : CoreId)
  /-- REMOTE_CLAIM: A claim request is handled at the home Shepherd, handing out a re-issued or new index or EMPTY (R109). -/
  | remoteClaim (core : CoreId)
  /-- REMOTE_COMPLETE: A completion is checked against the ledger and either clears the index and posts DONE_COLLAR or is counted late (R109). -/
  | remoteComplete (core : CoreId)
  /-- NULL_CLAIM: A null claim arrives at the home router and is discarded (R108). -/
  | nullClaim (core : CoreId)
  /-- COLLAR_REPLY: A Collar reply arrives and writes the result into the requesting stream's destination register (R222). -/
  | collarReply (core : CoreId)
  /-- MATRIX_PROBLEM_READY: A problem's accumulator holds its result, the checksum lane checks it if selected, and its drain may begin (R160). -/
  | matrixProblemReady (core : CoreId) (upsets : List Upset)
  /-- DRAIN_COMPLETE: The drain writes the last row of the last problem, completing the MMA and releasing its ranges (R161). -/
  | drainComplete (core : CoreId)
  /-- VECTOR_COMPLETE: A vector instruction's last write is done and its scoreboard ranges are released (R172). -/
  | vectorComplete (core : CoreId)
  /-- FETCH_REQUEST_ISSUE: The fetch engine issues the next HBM request of an instruction once a request tag is free (R377). -/
  | fetchRequestIssue (core : CoreId)
  /-- REQUEST_ACCEPT: A stack controller accepts a request from one of its nine sources when that source's queue has room (R373). -/
  | requestAccept (stack : StackId)
  /-- STACK_SERVE: The controller serves an accepted request, correcting or poisoning reads and replying with a status (R375). -/
  | stackServe (stack : StackId) (pick : Fin 256)
  /-- RFM: A bank's rolling activation count reaches half of RAAIMT and the controller issues an RFM command (R374). -/
  | rfm (stack : StackId) (bank : Fin 2048)
  /-- FETCH_REPLY: A fetch reply arrives at the requesting router and is written to scratchpad or discarded for a stale tag generation (R379). -/
  | fetchReply (core : CoreId)
  /-- FETCH_COMPLETE: The last byte of a FETCH is written, or the last write of a STORE is accepted, completing the instruction (R202). -/
  | fetchComplete (core : CoreId)
  /-- RECALIBRATE: STACK_COMMAND 1 starts a recalibration of a stack, holding its requests (R384). -/
  | recalibrate (stack : StackId)
  /-- TEMP_RECALIBRATION: A stack's temperature moves 10 °C since the last calibration and the controller recalibrates by itself (R384). -/
  | tempRecalibration (stack : StackId) (temp : BitVec 32)
  /-- RECALIBRATION_DONE: Recalibration ends and held requests are served (R384). -/
  | recalibrationDone (stack : StackId)
  /-- RETRAIN: STACK_COMMAND 2 starts a full retrain of a stack in self-refresh unless refused as busy (R385). -/
  | retrain (stack : StackId)
  /-- RETRAIN_DONE: A retrain ends, returning the stack to Serving or leaving it Failed (R386). -/
  | retrainDone (stack : StackId) (ok : Bool)
  /-- GROOMER_PASS_START: A Groomer pass starts at its interval, or late after an overdue pass, counting GROOM_OVERDUE (R252). -/
  | groomerPassStart (core : CoreId)
  /-- GROOMER_VISIT: The Groomer visits one word in the open phases, rewriting it if it holds a correctable error (R251). -/
  | groomerVisit (core : CoreId)
  /-- GROOMER_REWRITE: The Groomer rewrites a queued corrected address ahead of its scan (R247). -/
  | groomerRewrite (core : CoreId)
  /-- CHECK_AND_INSTALL: LOAD_COMMAND 1 starts the Pedigree check of the named image and installation if it passes (R329). -/
  | checkAndInstall
  /-- CHECK_ONLY: LOAD_COMMAND 2 starts the Pedigree check without installation (R329). -/
  | checkOnly
  /-- LOAD_ABORT: LOAD_COMMAND 3 ends a check, or tears down an installing or installed-unlaunched program (R329). -/
  | loadAbort
  /-- PEDIGREE_CHECK_DONE: The Pedigree check ends with a pass or the code of the first failing check in LOAD_RESULT (R332). -/
  | pedigreeCheckDone
  /-- INSTALL_DONE: Installation of a passed image completes and LOAD_STATE becomes 3 (R330). -/
  | installDone
  /-- GENERATOR_START: LAUNCH_CONTROL 1 starts the launch generator writing descriptors, unless refused (R348). -/
  | generatorStart
  /-- GENERATOR_STOP: LAUNCH_CONTROL 2 stops the generator; queued descriptors still launch (R348). -/
  | generatorStop
  /-- HOST_FED: LAUNCH_CONTROL 3 puts the fed packs into host-fed mode through the launch window (R347). -/
  | hostFed
  /-- GENERATOR_DESCRIPTOR: The running generator writes its next descriptor when a fed pack's queue falls below its fill level (R348). -/
  | generatorDescriptor
  /-- LW_TIME_WRITE: An 8 B write to LW_TIME appends a host-fed descriptor, or is discarded and counted (R512). -/
  | lwTimeWrite (fn : Fin 17) (pack : PackId) (mode : Option Byte) (time : Time) (bytes : Fin 64) (ide : Bool)
  /-- IN_TAIL_WRITE: A doorbell write to IN_TAIL is accepted and announces new input entries, or sets RING_ERR (R514). -/
  | inTailWrite (fn : Fin 17) (ctx : CtxId) (value : BitVec 32) (ide : Bool)
  /-- CPL_HEAD_WRITE: A write to CPL_HEAD is accepted and frees completion entries, or sets RING_ERR (R514). -/
  | cplHeadWrite (fn : Fin 17) (ctx : CtxId) (value : BitVec 32) (ide : Bool)
  /-- RING_ERR_CLEAR: Writing 1 to a RING_ERR bit clears it (R506). -/
  | ringErrClear (fn : Fin 17) (ctx : CtxId) (bits : Byte) (ide : Bool)
  /-- INPUT_TOKENS: The ring controller reads a TOKENS entry and posts the context's input Collar, or consumes a malformed entry with STATUS 9 (R344). -/
  | inputTokens (ctx : CtxId)
  /-- INPUT_PARAMS: The ring controller reads a PARAMS entry and sends its values to the Retriever's parameter registers (R344). -/
  | inputParams (ctx : CtxId)
  /-- PARAMS_ANSWER: The Retriever answers a parameter update and the ring controller consumes the PARAMS entry (R344). -/
  | paramsAnswer (ctx : CtxId)
  /-- INPUT_HANDOFF: The ring controller reads a HANDOFF entry and posts the input Collar for the step program to consume (R341). -/
  | inputHandoff (ctx : CtxId)
  /-- INPUT_CLOSE: The ring controller reads a CLOSE entry and posts the input Collar for the step program to consume (R344). -/
  | inputClose (ctx : CtxId)
  /-- RETRIEVER_LOGITS: A logits packet reaches the Retriever and takes or fills a slot, or is held for want of one (R352). -/
  | retrieverLogits (pack : PackId)
  /-- RETRIEVER_SAMPLE_CMD: An RSAMPLE command reaches the Retriever and is paired with the context's logits by SEQ (R353). -/
  | retrieverSampleCmd (pack : PackId)
  /-- RETRIEVER_CANCEL_CMD: An RCANCEL command frees the slot and produces a STATUS 5 feedback without a completion (R353). -/
  | retrieverCancelCmd (pack : PackId)
  /-- SAMPLE_START: The Retriever starts sampling the lowest-index ready context, or answers STATUS 4 at the position limit (R354). -/
  | sampleStart (pack : PackId)
  /-- SAMPLE_READY: A sample becomes ready, the completion write is issued and the feedback packet is sent (R358). -/
  | sampleReady (pack : PackId)
  /-- COMPLETION_WRITE: A held completion entry is written once the host's consumer index leaves a free entry (R346). -/
  | completionWrite (ctx : CtxId)
  /-- COMPLETION_ACCEPTED: The stack accepts a completion entry, CPL_TAIL advances and MSI-X is raised by the IRQ rules (R515). -/
  | completionAccepted (pack : PackId)
  /-- FRAME_RECEIVE: A fabric port receives a link frame and accepts it in sequence or drops it and requests a retry (R394). -/
  | frameReceive (port : PortId) (frame : Frame) (corrected : Nat) (uncorrected : Nat) (frac : Byte)
  /-- RETRY_REQUEST: A retry request arrives and the transmitter resends from the frame after the one acknowledged (R394). -/
  | retryRequest (port : PortId) (frame : Frame)
  /-- PORT_DOWN: A port loses lock for 128 beats or exceeds 16 retries and goes down, Barking a member job with 0xB1 (R394). -/
  | portDown (port : PortId)
  /-- PORT_DISABLE: Writing 0 to PORT_ENABLE holds the port disabled (R433). -/
  | portDisable (port : PortId) (flash : Bool)
  /-- PORT_TRAIN: Writing 1 to PORT_ENABLE starts training of the port (R433). -/
  | portTrain (port : PortId) (flash : Bool)
  /-- PORT_UP: Link training of a fabric port completes and the port is up (R390). -/
  | portUp (port : PortId)
  /-- FABRIC_PACKET_ARRIVAL: A packet arrives on a fabric port and is epoch-checked, forwarded through the ring or handed to a row router (R403). -/
  | fabricPacketArrival (port : PortId)
  /-- DELIVERY_ANSWER: A delivery answer reaches the requesting ring and releases the reservation or turns into a NACK (R401). -/
  | deliveryAnswer
  /-- REPLY_TIMEOUT: No answer within 2^18 beats releases the reservation and sends a NACK with reason 0x07 (R401). -/
  | replyTimeout
  /-- AGED_DISCARD: A request or reply that waits 2^10 beats in one ring is discarded and counted (R402). -/
  | agedDiscard
  /-- JOB_START: JOB_COMMAND 1 sets JOB_STATE forming and begins the HELLO exchange of a job start (R408). -/
  | jobStart
  /-- JOB_LEAVE: JOB_COMMAND 2 leaves the job, setting JOB_STATE 0 and keeping JOB_EPOCH (R422). -/
  | jobLeave
  /-- JOB_START_TIMEOUT: START has not arrived 2^26 beats after the command, and the start fails with JOB_STATE 5 (R408). -/
  | jobStartTimeout
  /-- HELLO: A HELLO message measures delay and checks the far end's part, stepping and coordinates (R408). -/
  | hello (port : PortId)
  /-- JOIN: A JOIN from a child is recorded, and once all children have joined it is sent on to the parent or checked at the master (R408). -/
  | join (port : PortId)
  /-- START: A START message loads the Howl, empties launch queues, sets the epoch and forwards START to children (R408). -/
  | start (port : PortId)
  /-- BEACON_SEND: At each multiple of 2^16 beats each member port sends a BEACON (R419). -/
  | beaconSend
  /-- BEACON: A BEACON arrives, updating liveness, the offset from the master and the slew (R412). -/
  | beacon (port : PortId)
  /-- NEIGHBOUR_SUSPECT: After 8 periods without a valid BEACON from a neighbour, the device floods SUSPECT state 1 (R420). -/
  | neighbourSuspect (device : Fin 65536)
  /-- NEIGHBOUR_SILENT: After 24 periods without a valid BEACON from a neighbour, the device floods SUSPECT state 2 (R420). -/
  | neighbourSilent (device : Fin 65536)
  /-- SUSPECT: A SUSPECT message is recorded and re-flooded, and a majority of reports Barks the job (R421). -/
  | suspect (port : PortId)
  /-- SELF_MUZZLE: A member in contact with at most half its neighbours for 16 periods Barks, stops its packs and sends only muzzled beacons (R422). -/
  | selfMuzzle
  /-- READY: A READY from a child is checked and combined, and at the master the last one sends GO (R414). -/
  | ready (port : PortId)
  /-- GO: A GO from the parent is checked, forwarded at once and passed to the packs as their go time (R414). -/
  | go (port : PortId)
  /-- BARK: The first BARK of the epoch is recorded and re-sent, BARK_N driven, all job streams stopped and teardown started (R424). -/
  | bark (port : PortId)
  /-- BARK_COMMAND: Writing 1 to BARK_COMMAND Barks the job with reason 0xB4 (R433). -/
  | barkCommand (value : Bool)
  /-- BARK_LINE_RELEASE: After 2^10 beats the module stops driving BARK_N low (R424). -/
  | barkLineRelease
  /-- BARK_LINE_SENSE: BARK_N seen low for 128 beats by a running member not driving it originates a Bark with 0xB5 (R426). -/
  | barkLineSense
  /-- EPOCH_PURGE: Within 2^16 beats of a Bark the rings discard every packet of the Barked epoch (R427). -/
  | epochPurge
  /-- REWIND: A REWIND message makes a member carry out order 1 of re-placement for the named step (R459). -/
  | rewind (port : PortId)
  /-- MIRROR_START: MIRROR_COMMAND 1 starts a mirror pass by sending OPEN to the partner (R430). -/
  | mirrorStart
  /-- MIRROR_ABORT: MIRROR_COMMAND 2 ends a running pass with MIRROR_STATE 3 (R430). -/
  | mirrorAbort
  /-- MIRROR_OPEN: A partner checks a mirror OPEN request, writes the pass record with STATE 1 and answers (R432). -/
  | mirrorOpen
  /-- MIRROR_WRITE: A partner writes an accepted mirror write request into its accept window and answers (R432). -/
  | mirrorWrite
  /-- MIRROR_COMMIT: A partner rewrites the pass record with STATE 2 on COMMIT and answers (R430). -/
  | mirrorCommit
  /-- MIRROR_ANSWER: A mirror answer reaches the engine, which continues, commits or ends the pass (R430). -/
  | mirrorAnswer
  /-- VET_SLICE_START: A pack's next unit in turn starts a vet slice when its idle and condition tests pass (R440). -/
  | vetSliceStart (pack : PackId) (condOk : Bool)
  /-- VET_SLICE_RESULT: A slice ends, restores the core and records a result leading to repair, muzzle or hold safe (R448). -/
  | vetSliceResult (pack : PackId) (finding : Finding)
  /-- VET_SLICE_ABANDON: A clock, supply or clock-down condition during a slice abandons it, restores the core and records no result (R443). -/
  | vetSliceAbandon (pack : PackId)
  /-- REPLACEMENT_DRAIN_END: The re-placement drain window ends and routers discard program packets and cores restore launch snapshots (R456). -/
  | replacementDrainEnd (pack : PackId)
  /-- REPLACEMENT_SHIFT_DONE: The multiplexers are set and snapshots and ledgers copied to new hosts, and the reload begins (R456). -/
  | replacementShiftDone (pack : PackId) (ok : Bool)
  /-- REPLACEMENT_RELOAD_DONE: The reload of shifted cores ends and they post step-ready for the replay (R456). -/
  | replacementReloadDone (pack : PackId)
  /-- FUSE_REPAIRS: MAINT_COMMAND 1 fuses every valid soft repair entry (R463). -/
  | fuseRepairs
  /-- RETEST_MUZZLED: MAINT_COMMAND 2 retests muzzled cores and clears muzzles that pass (R463). -/
  | retestMuzzled
  /-- RETEST_SAFE_PACKS: MAINT_COMMAND 3 retests held-safe packs and releases those that pass (R463). -/
  | retestSafePacks
  /-- MAINT_DONE: A maintenance action ends and MAINT_STATE and MAINT_CLEARED are set (R463). -/
  | maintDone (ok : Bool) (passed : List (Fin 1088))
  /-- STREAM_HANG: The stream watchdog window expires without progress, recording 0xD3 and Barking (R476). -/
  | streamHang (core : CoreId) (stream : StreamId)
  /-- CORE_HANG: The core watchdog window expires, recording 0xD4, Barking and resetting stuck engines (R476). -/
  | coreHang (core : CoreId)
  /-- LINK_HANG: The link watchdog window expires, Barking both packs with a Sniff dump and pack reset (R476). -/
  | linkHang (core : CoreId) (dir : Dir)
  /-- PACK_HANG: The pack watchdog window expires, Barking the pack with a Sniff dump and pack reset (R476). -/
  | packHang (pack : PackId)
  /-- RUNG_TIMEOUT: A reset rung not complete within its bound records 0xD7 and starts the next rung (R485). -/
  | rungTimeout (target : ResetTarget)
  /-- TEARDOWN_DRAIN_END: The teardown drain window ends: packets discarded, idle tables restored, Sniff dump, zeroise and quarantine begin (R479). -/
  | teardownDrainEnd (pack : PackId)
  /-- ZEROISE_DONE: Zeroise of a torn-down program's scratchpad, configurations and key/value regions ends (R480). -/
  | zeroiseDone (pack : PackId) (hbm : Bool)
  /-- QUARANTINE_END: The identifier quarantine ends and Bowls, Collars and tags may be configured again (R482). -/
  | quarantineEnd (pack : PackId)
  /-- SNIFF_DUMP_DONE: A Sniff dump finishes, writes its pack record and lets the pack reset proceed (R492). -/
  | sniffDumpDone (seq : BitVec 32)
  /-- SNIFF_DUMP_TIMEOUT: A dump reaching its 20 ms or 200 ms bound stops with STATE 3 and the reset goes ahead (R492). -/
  | sniffDumpTimeout (seq : BitVec 32) (written : List CoreId)
  /-- PACK_RESET: A write to PACK_RESET commands a pack reset of the named packs, Barking a running job with 0xDA (R486). -/
  | packReset (mask : BitVec 16)
  /-- PACK_RESET_DONE: A pack reset releases its units, records LAST_RESET and leaves contexts Closed (R486). -/
  | packResetDone (pack : PackId)
  /-- WARM_RESET: DEVICE_RESET 1 starts warm recovery (R487). -/
  | warmReset
  /-- COLD_RESET: DEVICE_RESET 2 runs start-up from calibration loading without rebooting the controller (R488). -/
  | coldReset
  /-- WARM_RECOVERY_DONE: Warm recovery ends in Idle after training, vet pass and zeroise (R487). -/
  | warmRecoveryDone (hbmStacks : BitVec 8) (ports : BitVec 18) (found : List VetFinding)
  /-- UNLOAD_PACKS: A write to UNLOAD_PACKS Barks the programs on the named packs with 0xDA and tears them down (R477). -/
  | unloadPacks (mask : BitVec 16)
  /-- ALERT_ACK: Writing 1 to a bit of ALERT_ACK clears that bit of ALERT_SOURCES (R472). -/
  | alertAck (mask : BitVec 16)
  /-- STATS_CLEAR: Writing 1 to STATS_CLEAR zeroes every statistics counter and the saturation record (R493). -/
  | statsClear (value : Bool)
  /-- SNIFF_COMMAND: A write to SNIFF_COMMAND dumps the named packs without a reset (R489). -/
  | sniffCommand (mask : BitVec 16)
  /-- VF_FLR: A function-level reset of a VF acts as UNLOAD_PACKS on its pack and clears the VF's registers (R499). -/
  | vfFlr (vf : VfId)
  /-- PF_RESET: A function-level reset of PF0 or PERST_N unloads every pack and clears PF registers (R499). -/
  | pfReset
  /-- D3HOT_ENTRY: A function enters D3hot and serves configuration requests only, holding its MSI-X messages (R501). -/
  | d3hotEntry (fn : Fin 17)
  /-- D0_RETURN: A function returns to D0 and sends its pending unmasked MSI-X messages (R501). -/
  | d0Return (fn : Fin 17)
  /-- BAR2_READ: A host read through BAR2 is checked and served from HBM or refused (R505). -/
  | bar2Read (fn : Fin 17) (offset : BitVec 40) (len : Fin 4097) (ide : Bool)
  /-- BAR2_WRITE: A host write through BAR2 is checked and served to HBM or discarded (R505). -/
  | bar2Write (fn : Fin 17) (offset : BitVec 40) (data : List Byte) (ide : Bool)
  /-- MAILBOX_GO: Writing GO to MB_CTRL sends the mailbox request, or sets OVERRUN while busy (R509). -/
  | mailboxGo (request : List Byte) (len : Fin 2049) (irq : Bool) (ide : Bool)
  /-- SERVICE_SEND_DESC: Writing DESC of SERVICE_SEND queues a service tuple or block, or discards it as an overflow (R510). -/
  | serviceSendDesc (fn : Fin 17) (words : List Word) (desc : Word) (ide : Bool)
  /-- READ: A READ message returns one object's value (R524). -/
  | read
  /-- WRITE: A WRITE message checks and writes one object that has no row of its own (R538). -/
  | write (flash : FlashEnd)
  /-- READ_MULTI: A READ_MULTI message returns up to 32 items, each with its own status (R524). -/
  | readMulti
  /-- DESCRIBE: A DESCRIBE message returns an object's type, access and size (R524). -/
  | describe
  /-- SUBSCRIBE: A SUBSCRIBE message sets or cancels the notification subscriber (R533). -/
  | subscribe
  /-- SEG_START: SEG_START opens a segmented transfer in a free slot and assigns it an ID (R529). -/
  | segStart
  /-- SEG_BLOCK: SEG_BLOCK delivers or requests one block of a transfer, advancing NEXT in order (R530). -/
  | segBlock (flash : FlashEnd)
  /-- SEG_QUERY: SEG_QUERY returns a transfer's slot and NEXT (R524). -/
  | segQuery
  /-- SEG_END: SEG_END checks that a download is whole and writes the object or passes the image on (R531). -/
  | segEnd (flash : FlashEnd)
  /-- SEG_ABORT: SEG_ABORT ends a transfer and frees its slot (R531). -/
  | segAbort
  /-- SEG_TIMEOUT: A non-firmware transfer not named for 600 s ends (R531). -/
  | segTimeout
  /-- SERVICE_SEND: A SERVICE_SEND message sends one service tuple or block from the management ring port (R533). -/
  | serviceSend
  /-- MGMT_FRAME: A frame arrives on the management port and is served, queued or discarded by its protocol rules (R520). -/
  | mgmtFrame (frame : MgmtFrame)
  /-- STATE_SERVICE: STATE_COMMAND 1 shuts down from Idle to Service, or leaves Safe for Service, when permitted (R613). -/
  | stateService
  /-- STATE_IDLE: STATE_COMMAND 2 in Service at rest runs start-up steps 2–8 to Idle (R604). -/
  | stateIdle
  /-- SETTINGS_COMMAND: SETTINGS_COMMAND 1 returns every RWP object outside calibration to its default (R546). -/
  | settingsCommand (value : BitVec 8) (from_ : Requester) (flash : FlashEnd)
  /-- LOCK: LOCK_COMMAND 1 moves Owned to Owned-Locked (R564). -/
  | lock (from_ : Requester)
  /-- UNLOCK: LOCK_COMMAND 2 moves Owned-Locked to Owned (R564). -/
  | unlock (from_ : Requester)
  /-- CALIBRATION_WRITE: A write of a calibration object rewrites the single calibration record with a new CRC (R549). -/
  | calibrationWrite (object : Fin 5) (data : List Byte) (from_ : Requester) (flash : FlashEnd)
  /-- PIN_PEAK_READ: A read of PIN_PEAK returns the largest 1 ms input power and resets it (R547). -/
  | pinPeakRead (mailbox : Bool)
  /-- DBG_DATA_READ: A read of DBG_DATA copies the selected core state through the service window (R555). -/
  | dbgDataRead (mailbox : Bool)
  /-- DBG_WRITE: A write of DBG_WRITE writes scratchpad bytes of the selected core through the service window (R555). -/
  | dbgWrite (data : List Byte) (from_ : Requester)
  /-- SESSION_TIMEOUT: An owner session without a request for 600 s closes (R566). -/
  | sessionTimeout
  /-- DEBUG_UNLOCK: A valid unlock token written to DEBUG_UNLOCK sets DEBUG_STATE 1 (R568). -/
  | debugUnlock (token : List Byte) (from_ : Requester)
  /-- DEBUG_LOCK: Writing 1 to DEBUG_LOCK sets DEBUG_STATE 0 and disables the Sniff port (R568). -/
  | debugLock (value : Bool)
  /-- DEBUG_EXPIRY: POWER_ON_HOURS reaching UNTIL_HOURS returns DEBUG_STATE to 0 (R568). -/
  | debugExpiry
  /-- ATTEST_NONCE: A nonce written on a path starts a dual-signed attestation report for that path (R569). -/
  | attestNonce (mailbox : Bool) (nonce : List Byte)
  /-- DOE_REQUEST: A DOE vendor-defined request carrying a nonce is answered with the PATH 2 report (R571). -/
  | doeRequest (nonce : BitVec 256)
  /-- UPDATE_COMMIT: UPDATE_COMMAND 1 re-checks and commits the staged image as its component requires (R576). -/
  | updateCommit (from_ : Requester) (flash : Bool)
  /-- UPDATE_ABANDON: UPDATE_COMMAND 2 abandons the staged image with code 0x11 (R576). -/
  | updateAbandon (from_ : Requester)
  /-- TRIAL_CONFIRM: New management firmware confirms its trial once it serves the port and may raise the floor (R577). -/
  | trialConfirm
  /-- TRIAL_TIMEOUT: Without confirmation within 30 s the boot ROM reverts to the previous slot with result 0x13 (R577). -/
  | trialTimeout
  /-- THERMAL_MODEL_UPDATE: Every 1 ms the envelope controller updates its three-node thermal model from its sensors (R585). -/
  | thermalModelUpdate (readings : Readings)
  /-- THROTTLE_RAISE: A hot pack or excess input power raises a pack's throttle step (R587). -/
  | throttleRaise (pack : Option PackId)
  /-- THROTTLE_LOWER: A cool pack or power below the limit lowers a throttle step (R587). -/
  | throttleLower (pack : Option PackId)
  /-- VALVE_UPDATE: Every 10 ms the valve duty is recomputed from forecast and feedback (R592). -/
  | valveUpdate
  /-- IIN_EXCESS: IIN above I_env by more than 4 A for 100 µs commands a clock-down of every pack and raises I_env (R583). -/
  | iinExcess (iin : BitVec 32)
  /-- HOLDUP_LOSS: HOLDUP_OK falling clocks down every pack, stops new flash writes and sets alert bit 9 (R584). -/
  | holdupLoss
  /-- HOLDUP_RESTORE: 100 ms after HOLDUP_OK returns high the module resumes normal steps (R584). -/
  | holdupRestore
  /-- FLOW_LOW: Flow below FLOW_MIN for 2 s makes the envelope controller treat POWER_LIMIT as 900 W (R593). -/
  | flowLow
  /-- SAFE_ENTRY: A cause of Safe records SAFE_CAUSE, Barks every job and stops every stream (R611). -/
  | safeEntry (cause : Fin 6)
  /-- SAFE_RAILS_OFF: 2^16 beats after Safe entry the core, HBM and fabric rails go off (R611). -/
  | safeRailsOff
  /-- VALVE_HOLD_END: 60 s after Safe entry the valve duty returns to the envelope controller (R611). -/
  | valveHoldEnd
  /-- IDCODE: The JTAG IDCODE instruction shifts out the device identification code (R627). -/
  | idcode
  /-- SAMPLE_PRELOAD: The JTAG SAMPLE/PRELOAD instruction samples or preloads the boundary register (R627). -/
  | samplePreload (preload : Word)
  /-- EXTEST: The JTAG EXTEST instruction drives pins from the boundary register when its condition holds (R627). -/
  | extest
  /-- CLAMP: The JTAG CLAMP instruction holds pins from the boundary register with BYPASS selected (R627). -/
  | clamp
  /-- HIGHZ: The JTAG HIGHZ instruction floats the boundary outputs (R627). -/
  | highz
  /-- LBIST_SELECT: The JTAG LBIST_SELECT instruction loads the physical core and slice to test (R627). -/
  | lbistSelect (value : BitVec 24)
  /-- LBIST_RUN: The JTAG LBIST_RUN instruction runs the selected slice at Run-Test/Idle as a run-time slice (R628). -/
  | lbistRun (found : Option Finding)
  /-- LBIST_RESULT: The JTAG LBIST_RESULT instruction shifts out the MISR signature and status (R627). -/
  | lbistResult
  /-- BYPASS: The JTAG BYPASS instruction selects the one-bit bypass register (R627). -/
  | bypass
  /-- TAP_RESET: The TAP enters Test-Logic-Reset on debug lock, load or state command during EXTEST, CLAMP or HIGHZ (R628). -/
  | tapReset
  /-- ENGINE_RESET_DONE: An engine under reset clears its pipeline and queue, reports idle, and ENGINE_RESETS is incremented (R112). -/
  | engineResetDone (core : CoreId) (engine : Engine)
  /-- CORE_RESET_DONE: A core reset reached by escalation completes within its 5 ms bound, leaving every stream of the core Stopped and counting CORE_RESETS (R484). -/
  | coreResetDone (core : CoreId)
  /-- DCFG_COMPLETE: A DCFG finishes loading and checking its 64 B, releasing its read range and the configuration for matrix instructions (R211). -/
  | dcfgComplete (core : CoreId)
  /-- PACK_COMMIT_DONE: A pack's core microcode or Retriever tables commit finishes its load and slices, its commit record is written, the pack is released and the next pack is taken or the update ends done (R578). -/
  | packCommitDone (found : List VetFinding)
  /-- ATTEST_REPORT_DONE: The attestation report started by a nonce is completed and dual-signed within 100 ms and becomes readable in ATTEST_REPORT (R569). -/
  | attestReportDone (path : Fin 3)
  /-- VF_ENABLE_WRITE: A host configuration write to VF Enable of PF0 moves the doorbells, launch windows, service sends, NACK logs and context vectors between PF0 and the VFs (R498). -/
  | vfEnableWrite (value : Bool)
  /-- LINK_RECOVERY: The PCIe link enters Recovery or retrains, updating the link rate and width and counting LINK_RECOVERIES (R517). -/
  | linkRecovery (rate : Fin 8) (width : Fin 17) (flit : Bool)
  /-- FRAME_SEND: In each frame time a fabric port sends the first it has of a retry request, control flit, collective, reply or request flit against credit, or an idle frame (R396). -/
  | frameSend (port : PortId)
  /-- MSIX_VECTOR_UNMASK: A host write clearing a vector's mask in the MSI-X table sends the message whose pending bit is set (R516). -/
  | msixVectorUnmask (fn : Fin 17) (vector : Fin 528) (enable : Bool) (addr : Word) (data : BitVec 32) (ide : Bool)
  deriving DecidableEq, Repr

end Sys2Proof
end

