-- ==== Sys2Proof/Machine/State.lean ====
section
/-! DEFINITION. The whole state of the module, the ways a step can stop, and the state after reset. -/
namespace Sys2Proof.Machine

/-- Ways the module itself stops. -/
inductive Fault where
  /-- Raised by nothing: the spec gives every command an effect, so no command faults. Safe: a claim that no command faults is true of the
  spec too. -/
  | unreachable
  deriving DecidableEq, Repr

/-- Ways the model declines a command. -/
inductive Refusal where
  /-- Raised by an arm of the dispatch whose command has no meaning yet; every command has one, so none is raised. Safe. -/
  | notModelled (mnemonic : String)
  deriving DecidableEq, Repr

/-- The state of the module. `out` holds the bytes the last command gave back to its sender, and `pending` the commands that wait, first in,
first out (log entry 1). `heldRing` holds the host's accesses that wait at the ring port of a recalibrating stack (R384). -/
structure State where
  clock : Nat
  howl : Time
  nonce : Nat
  cores : Tab Core
  packs : Tab Pack
  progs : Tab Program
  load : Load
  gen : LaunchGen
  ctxs : Tab Ctx
  hbm : Tab Byte
  hbmKey : Word
  hbmStacks : Tab Stack
  ports : Tab Port
  ring : Ring
  job : Job
  mirror : Mirror
  faults : FaultRegs
  stats : Tab Nat
  progress : Tab Nat
  settings : Tab Nat
  statsSat : Bool
  statsFirst : BitVec 32
  lastMismatchTime : Time
  lastMismatchPlace : BitVec 32
  meshFaultHeld : Bool
  meshFaultTime : Time
  meshFault : Word
  slipHeld : Bool
  slipTime : Time
  slipPlace : BitVec 32
  vet : Vet
  power : Power
  env : Env
  host : HostIf
  heldRing : List Instr
  mgmt : Mgmt
  calib : Calib
  sec : Sec
  upd : Upd
  jtag : Jtag
  out : List Byte
  pending : List Instr
  deriving DecidableEq, Repr

/-- The firmware a component leaves manufacture with, in slot A (R550, R573; log entry 22). -/
def factorySlot (comp : Nat) : FwSlot :=
  { valid := true, version := Config.factoryVersion comp, secVer := Config.factorySecurity comp, raise := false
    digest := Config.factoryDigest comp, body := [], header := [], sig := [] }

/-- The commit record of a component at manufacture: slot A of components 1-4 holds firmware, every pack uses slot A of component 2, and
component 5 holds nothing (R550, R575). -/
def factoryComp (comp : Nat) : FwComp :=
  { FwComp.reset with
    slots := [(0, factorySlot comp)], packSlot := if comp = 2 then (List.range 16).map (fun p => (p, 1)) else [] }

/-- The calibration record at manufacture (R548, R595; log entry 22). -/
def factoryCalSet : CalSet := { origin := 0, written := 0x1F, objs := (List.range 5).map (fun i => (i, Config.factoryCal i)) }

/-- Power, start-up and the Howl generator of a module without VIN (R602). -/
def Power.reset : Power :=
  { dev := .off, starting := none, step := 0, doing := 0, stalled := false, romService := false, ready := false, rails := false
    booted := false, safeCause := 0, safeAt := 0, railsDue := false, valveHold := false, mapChanged := false, cycles := 0, hours := 0
    vinAt := 0, bootAt := 0, layoutMask := 0
    layoutVersions := (List.range 15).map (Config.layoutVersion (Config.factoryVersion 1))
    flashWrites := 0, howlOn := false, refOk := false, refLocked := false, ppsCapture := 0, ppsAt := 0, ppsCount := 0, nodeId := 0
    keyDraw := 0 }

/-- The host interface of a module without VIN (R503, R517). -/
def HostIf.reset : HostIf :=
  { fns := [], vfEnable := false, sends := [], mbBusy := false, mbDone := false, mbOver := false, mbIrq := false, mbLen := 0, mbReq := [], mbResp := []
    lwGated := [], lwDrops := [], rate := 0, width := 0, flitMode := false, sent := [] }

/-- The management controller before its boot (R523, R532, R534). -/
def Mgmt.reset : Mgmt :=
  { queue := [], kept := [], slots := [], lastId := 0, subAddr := 0, subPort := 0, subMask := 0, nseq := 0, notes := [], mailboxTurn := true
    silent := false, dbgBad := [], blobs := [] }

/-- Security at manufacture: Unowned, debug-locked (R564, R568). -/
def Sec.reset : Sec :=
  { owner := .unowned, edPub := [], mlPub := [], epoch := 0, sessSeq := 0, sessions := [], debug := false, debugSinceBoot := false
    debugUntil := 0, attest := [] }

/-- Firmware update at manufacture (R550). -/
def Upd.reset : Upd :=
  { state := 0, result := 0, comp := 0, slot := 0, header := [], moving := none, todo := [], tried := false, trialSince := 0
    comps := [(1, factoryComp 1), (2, factoryComp 2), (3, factoryComp 3), (4, factoryComp 4)] }

/-- Vet and muzzle state of a module with no findings (R450, R465). -/
def Vet.reset : Vet :=
  { phys := [], packs := [], snaps := [], repl := [], kept := [], mapSeq := 0, lastTime := 0, last := 0, maintState := 0, maintCleared := 0
    maintAction := 0 }

/-- Fault log, alerts and Sniff dumps before any (R471, R472, R494). -/
def FaultRegs.reset : FaultRegs :=
  { log := [], seq := 0, alerts := 0, lastReset := 0, recovery := 0, warmMs := 0, recoveryAt := 0, recoveryRecord := noRecord, sniffState := 0, sniffSeq := 0, dumps := [] }

/-- The load registers before any load (R328). -/
def Load.reset : Load :=
  { state := .idle, checkOnly := false, image := 0, prog := 0, packs := 0, result := 0, resultTime := 0, startedAt := 0 }

/-- The launch generator's defaults (R347). -/
def LaunchGen.reset : LaunchGen :=
  { packs := 0, gated := false, period := 0, first := 0, running := false, k := 0, nextStep := 0, hostFed := false }

/-- The TAP in Test-Logic-Reset (R627). -/
def Jtag.reset : Jtag := { insn := .idcode, boundary := 0, pinsDriven := false, pinsFloat := false, select := 0, result := 0 }

/-- The module as it leaves manufacture, without VIN: the state Off (R602), every register at its default, memory with nothing listed. -/
def State.reset : State :=
  { clock := 0, howl := 0, nonce := 0, cores := [], packs := [], progs := [], load := .reset, gen := .reset, ctxs := [], hbm := []
    hbmKey := 0, hbmStacks := [], ports := [], ring := .empty, job := .reset, mirror := .reset, faults := .reset, stats := [], progress := []
    settings := [], statsSat := false, statsFirst := 0, lastMismatchTime := 0, lastMismatchPlace := 0, meshFaultHeld := false
    meshFaultTime := 0, meshFault := 0, slipHeld := false, slipTime := 0, slipPlace := 0, vet := .reset, power := .reset, env := .reset
    host := .reset, heldRing := [], mgmt := .reset
    calib := { flash := factoryCalSet, good := true, badCrc := 0, inUse := { origin := 2, written := 0, objs := [] } }
    sec := .reset, upd := .reset, jtag := .reset, out := [], pending := [] }

end Sys2Proof.Machine
end

