-- ==== Sys2Proof/Machine/Ops.lean ====
section
/-! DEFINITION. The named operations over the state's tables: cores, packs, memories, counters, queues. -/
namespace Sys2Proof.Machine

/-- A logical core. -/
def State.core (s : State) (c : Nat) : Core := tabGet Core.reset s.cores c
/-- The state with one core replaced. -/
def State.setCore (s : State) (c : Nat) (k : Core) : State := { s with cores := tabSet Core.reset s.cores c k }
/-- The state with one core changed. -/
def State.modCore (s : State) (c : Nat) (f : Core → Core) : State := s.setCore c (f (s.core c))
/-- A pack. -/
def State.pack (s : State) (p : Nat) : Pack := tabGet Pack.reset s.packs p
/-- The state with one pack replaced. -/
def State.setPack (s : State) (p : Nat) (k : Pack) : State := { s with packs := tabSet Pack.reset s.packs p k }
/-- The state with one pack changed. -/
def State.modPack (s : State) (p : Nat) (f : Pack → Pack) : State := s.setPack p (f (s.pack p))
/-- A loaded program. -/
def State.prog (s : State) (g : Nat) : Program := tabGet Program.none s.progs g
/-- The state with one program replaced. -/
def State.setProg (s : State) (g : Nat) (k : Program) : State := { s with progs := tabSet Program.none s.progs g k }
/-- The state with one program changed. -/
def State.modProg (s : State) (g : Nat) (f : Program → Program) : State := s.setProg g (f (s.prog g))
/-- A sequence context. -/
def State.ctx (s : State) (n : Nat) : Ctx := tabGet Ctx.none s.ctxs n
/-- The state with one context replaced. -/
def State.setCtx (s : State) (n : Nat) (k : Ctx) : State := { s with ctxs := tabSet Ctx.none s.ctxs n k }
/-- The state with one context changed. -/
def State.modCtx (s : State) (n : Nat) (f : Ctx → Ctx) : State := s.setCtx n (f (s.ctx n))
/-- An HBM stack. -/
def State.stack (s : State) (n : Nat) : Stack := tabGet Stack.reset s.hbmStacks n
/-- The state with one stack replaced. -/
def State.setStack (s : State) (n : Nat) (k : Stack) : State := { s with hbmStacks := tabSet Stack.reset s.hbmStacks n k }
/-- The state with one stack changed. -/
def State.modStack (s : State) (n : Nat) (f : Stack → Stack) : State := s.setStack n (f (s.stack n))
/-- A fabric port. -/
def State.port (s : State) (n : Nat) : Port := tabGet Port.reset s.ports n
/-- The state with one port replaced. -/
def State.setPort (s : State) (n : Nat) (k : Port) : State := { s with ports := tabSet Port.reset s.ports n k }
/-- The state with one port changed. -/
def State.modPort (s : State) (n : Nat) (f : Port → Port) : State := s.setPort n (f (s.port n))

/-- A stream of a core. -/
def Core.stream (k : Core) (i : Nat) : Stream := tabGet Stream.none k.streams i
/-- The core with one stream replaced. -/
def Core.setStream (k : Core) (i : Nat) (t : Stream) : Core := { k with streams := tabSet Stream.none k.streams i t }
/-- The core with one stream changed. -/
def Core.modStream (k : Core) (i : Nat) (f : Stream → Stream) : Core := k.setStream i (f (k.stream i))
/-- A Collar of a core. -/
def Core.collar (k : Core) (i : Nat) : Collar := tabGet Collar.none k.collars i
/-- The core with one Collar replaced. -/
def Core.setCollar (k : Core) (i : Nat) (t : Collar) : Core := { k with collars := tabSet Collar.none k.collars i t }
/-- A Bowl of a core. -/
def Core.bowl (k : Core) (i : Nat) : Bowl := tabGet Bowl.none k.bowls i
/-- The core with one Bowl replaced. -/
def Core.setBowl (k : Core) (i : Nat) (t : Bowl) : Core := { k with bowls := tabSet Bowl.none k.bowls i t }
/-- An input of a router. -/
def Core.input (k : Core) (d : Dir) : Input := tabGet Input.empty k.inputs d.code
/-- The core with one router input replaced. -/
def Core.setInput (k : Core) (d : Dir) (t : Input) : Core := { k with inputs := tabSet Input.empty k.inputs d.code t }
/-- An output of a router. -/
def Core.output (k : Core) (d : Dir) : Output := tabGet Output.reset k.outputs d.code
/-- The core with one router output replaced. -/
def Core.setOutput (k : Core) (d : Dir) (t : Output) : Core := { k with outputs := tabSet Output.reset k.outputs d.code t }
/-- A route configuration (R274). -/
def Core.route (k : Core) (i : Nat) : BitVec 256 := tabGet 0 k.routes i
/-- A scalar register of a stream; reading needs no prior write (R191). -/
def Stream.reg (t : Stream) (i : Nat) : Word := tabGet 0 t.x (i % 16)
/-- A stream with one scalar register written. -/
def Stream.setReg (t : Stream) (i : Nat) (v : Word) : Stream := { t with x := tabSet 0 t.x (i % 16) v }
/-- Whether a register is pending (R195). -/
def Stream.pending (t : Stream) (i : Nat) : Bool := bitAt t.pend i

/-- Logical column of a core index 32r + c (R11). -/
def colOf (c : Nat) : Nat := c % 32
/-- Logical row of a core index (R11). -/
def rowOf (c : Nat) : Nat := c / 32
/-- Core index of (column, row) (R11). -/
def coreAt (col row : Nat) : Nat := 32 * row + col
/-- The pack that holds a logical core (R13, R24). -/
def packOf (c : Nat) : Nat := rowOf c / 4 + (if colOf c < 16 then 0 else 8)
/-- The logical cores of a pack in ascending 32r + c (R13). -/
def packCores (p : Nat) : List Nat :=
  (List.range 4).flatMap (fun j => (List.range 16).map (fun i => coreAt (i + (if p < 8 then 0 else 16)) (4 * (p % 8) + j)))
/-- The packs a 16-bit mask names, in ascending order. -/
def packsIn (mask : Nat) : List Nat := (List.range 16).filter (fun p => fieldOf mask p 1 == 1)
/-- The Retriever router of a pack (R268). -/
def retrRouter (p : Nat) : Nat := coreAt (if p < 8 then 7 else 23) (4 * (p % 8) + 1)

/-- The island's Howl copy (R28, R30). -/
def State.howlAt (s : State) (c : Nat) : Time := s.howl + BitVec.ofInt 64 (s.core c).howlSkew

/-- A fresh free word, and the state with the counter advanced (log entry 3). -/
def State.fresh (s : State) : Word × State := (Config.freeWord s.nonce, { s with nonce := s.nonce + 1 })

/-- A counter's key: dictionary index and subindex (R16). -/
def statKey (idx sub : Nat) : Nat := idx * 256 + sub

/-- A PCIe function. -/
def State.fn (s : State) (n : Nat) : HostFn := tabGet .reset s.host.fns n
/-- The state with one function changed. -/
def State.modFn (s : State) (n : Nat) (f : HostFn → HostFn) : State := { s with host := { s.host with fns := tabMod .reset s.host.fns n f } }

/-- Add to a statistics counter; at its largest value it stays, saturation is recorded and bit 7 of ALERT_SOURCES is set (R493). -/
def State.bumpRaw (s : State) (key n : Nat) : State :=
  let v := tabGet 0 s.stats key
  if n = 0 then s
  else if v + n < 2 ^ 64 - 1 then { s with stats := tabSet 0 s.stats key (v + n) }
  else
    { s with
      stats := tabSet 0 s.stats key (2 ^ 64 - 1)
      statsFirst := if s.statsSat then s.statsFirst else BitVec.ofNat 32 key
      statsSat := true
      faults := { s.faults with alerts := s.faults.alerts ||| 0x80 } }

/-- Send a vector's message of a function: discarded while MSI-X Enable is 0, held pending while the vector is masked or
the function in D3hot (R501, R516). -/
def raiseMsix (fn v : Nat) (s : State) : State :=
  let f := s.fn fn
  if !f.msixOn then s.bumpRaw (statKey 0x501D 6) 1
  else if f.d3hot || (tabGet MsixVec.reset f.msix v).masked then s.modFn fn (fun f => { f with pba := tabSet false f.pba v true })
  else { s with host := { s.host with sent := s.host.sent ++ [(fn, v)] } }

/-- A setting's table value is stored plus 1 so that an unwritten object reads its default. -/
def State.rawSetting (s : State) (idx sub dflt : Nat) : Nat :=
  match tabGet 0 s.settings (statKey idx sub) with
  | 0 => dflt
  | n + 1 => n

/-- Send a notification to the subscriber whose MASK holds its kind, or count it lost (R533). -/
def notify (kind : Nat) (body : List Byte) (s : State) : State :=
  if fieldOf s.mgmt.subMask (kind - 1) 1 = 1 && !s.mgmt.silent && s.rawSetting 0x0250 7 1 = 1 then
    { s with mgmt := { s.mgmt with
        nseq := s.mgmt.nseq + 1
        notes := s.mgmt.notes ++ [leBytes 4 s.mgmt.nseq.toNat ++ leBytes 1 kind ++ leBytes 3 0 ++ body] } }
  else s.bumpRaw (statKey 0x501E 6) 1

/-- ALERT_SOURCES has gained a bit: vector 2 of PF0 and a notification (R516, R533). -/
def announceAlert (s : State) : State := raiseMsix 0 2 (notify 1 (leBytes 2 s.faults.alerts.toNat) s)

/-- Set a bit of ALERT_SOURCES (R472). -/
def State.alert (s : State) (bit : Nat) : State :=
  if bitAt s.faults.alerts bit then s
  else announceAlert { s with faults := { s.faults with alerts := s.faults.alerts ||| BitVec.ofNat 16 (2 ^ bit) } }

/-- Add to a statistics counter, announcing the alert of a first saturation (R493). -/
def State.bumpKey (s : State) (key n : Nat) : State :=
  let t := s.bumpRaw key n
  if t.faults.alerts = s.faults.alerts then t else announceAlert t

/-- Add to the statistics counter at index and subindex. -/
def State.bump (s : State) (idx sub n : Nat) : State := s.bumpKey (statKey idx sub) n

/-- Add to a per-core statistics counter (R116). -/
def State.bumpCore (s : State) (c sub n : Nat) : State := s.bump (0x1000 + c) sub n

/-- Advance a 48-bit progress counter (R493). -/
def State.advanceKey (s : State) (key n : Nat) : State :=
  { s with progress := tabSet 0 s.progress key ((tabGet 0 s.progress key + n) % 2 ^ 48) }

/-- Advance the pack's progress counter and note the beat (R474). -/
def State.advancePack (s : State) (p : Nat) : State :=
  (s.advanceKey (statKey (0x1800 + p) 0x50) 1).modPack p (fun k => { k with lastProg := s.clock })

/-- Watching of packs begins: every window restarts (R475). -/
def State.restartWatch (s : State) (packs : List Nat) : State :=
  packs.foldl (fun s p => s.modPack p (fun k => { k with watchFrom := s.clock })) s

/-- Advance a per-core progress counter and with it the pack's; note the beat of the last advance (R474). -/
def State.advanceCore (s : State) (c sub n : Nat) : State :=
  if n = 0 then s
  else
    let s := (s.advanceKey (statKey (0x1000 + c) sub) n).advancePack (packOf c)
    s.modCore c (fun k => { k with flitsSince := tabSet 0 k.flitsSince sub (s.clock + 1) })

/-- A statistics counter's value. -/
def State.stat (s : State) (idx sub : Nat) : Nat := tabGet 0 s.stats (statKey idx sub)

/-- Bytes of a memory from an address. -/
def memRead (m : Tab Byte) (a n : Nat) : List Byte := (List.range n).map (fun i => tabGet 0 m (a + i))

/-- A memory with bytes written from an address; nothing else changes. -/
def memWrite (m : Tab Byte) (a : Nat) : List Byte → Tab Byte
  | [] => m
  | b :: t => memWrite (tabSet 0 m a b) (a + 1) t

/-- A memory with a range set to zero. -/
def memZero (m : Tab Byte) (a n : Nat) : Tab Byte := m.filter (fun e => decide (e.1 < a) || decide (a + n ≤ e.1))

/-- A table without its keys in a range. -/
def tabDrop {α : Type} (t : Tab α) (a n : Nat) : Tab α := t.filter (fun e => decide (e.1 < a) || decide (a + n ≤ e.1))

/-- The stack a global HBM address names (R365). -/
def stackOf (a : Nat) : Nat := fieldOf a 37 3
/-- The offset of a global HBM address in its stack (R365). -/
def offsetOf (a : Nat) : Nat := fieldOf a 0 37
/-- Bytes of storage in a stack (R365). -/
def stackBytes : Nat := 80000000000
/-- Start of the Sniff area in stack N0 (R366). -/
def sniffBase : Nat := 0x12805F2000

/-- HBM bytes, as stored. -/
def State.hbmRead (s : State) (a n : Nat) : List Byte := memRead s.hbm a n
/-- HBM with bytes written; lines wholly covered lose their error (R375). -/
def State.hbmWrite (s : State) (a : Nat) (l : List Byte) : State :=
  let first := ceilDiv a 64
  let last := (a + l.length) / 64
  { s with
    hbm := memWrite s.hbm a l
    hbmStacks := (let k := stackOf a
               let st := tabGet Stack.reset s.hbmStacks k
               tabSet Stack.reset s.hbmStacks k { st with poison := if first < last then tabDrop st.poison first (last - first) else st.poison }) }

/-- HBM with a range set to zero; lines wholly covered lose their error (R375). -/
def State.hbmZero (s : State) (a n : Nat) : State :=
  let first := ceilDiv a 64
  let last := (a + n) / 64
  { s with
    hbm := memZero s.hbm a n
    hbmStacks := (let k := stackOf a
               let st := tabGet Stack.reset s.hbmStacks k
               tabSet Stack.reset s.hbmStacks k { st with poison := if first < last then tabDrop st.poison first (last - first) else st.poison }) }

/-- A little-endian number read from HBM. -/
def State.hbmNum (s : State) (a n : Nat) : Nat := leValue (s.hbmRead a n)

/-- A settings object's value or its default. -/
def State.setting (s : State) (idx sub dflt : Nat) : Nat := s.rawSetting idx sub dflt

/-- A settings object written. The table stores the value plus 1, so an unwritten object reads its default. -/
def State.setSetting (s : State) (idx sub v : Nat) : State :=
  { s with settings := tabSet 0 s.settings (statKey idx sub) (v + 1) }

/-- Status codes of R527: done. -/
def stDone : Nat := 0
/-- Unknown object. -/
def stUnknown : Nat := 1
/-- Access error. -/
def stAccess : Nat := 2
/-- Lock error. -/
def stLock : Nat := 3
/-- Range error. -/
def stRange : Nat := 4
/-- Type error. -/
def stType : Nat := 5
/-- Busy error. -/
def stBusy : Nat := 6
/-- State error. -/
def stState : Nat := 7
/-- Too large. -/
def stLarge : Nat := 8
/-- Malformed. -/
def stMalformed : Nat := 9
/-- Unknown opcode. -/
def stOpcode : Nat := 0x0A
/-- Unknown transfer. -/
def stTransfer : Nat := 0x0B
/-- Out of sequence. -/
def stSequence : Nat := 0x0C
/-- Transfer refused. -/
def stRefused : Nat := 0x0D
/-- Flash error. -/
def stFlash : Nat := 0x0E
/-- Storage error. -/
def stStorage : Nat := 0x10

/-- The status code a command answers with (R527), left in `out`. -/
def State.answer (r : Nat × State) : State := { r.2 with out := [BitVec.ofNat 8 r.1] }

/-- A write to a WO object that commands the module: answered with its status, once the management firmware runs. In Off nothing
answers, and the boot ROM's recovery service answers no command (R562, R602, R609). -/
def State.command (s : State) (f : State → Nat × State) : State := if s.power.booted && !s.power.romService then .answer (f s) else s

/-- A commit to management flash of a setting: refused while HOLDUP_OK is low, and counted in FLASH_WRITES (R527, R539, R584). `ok` is
whether the flash completes it. -/
def State.commitFlash (ok : Bool) (f : State → State) (s : State) : Nat × State :=
  if !s.env.holdupOk then (stState, s)
  else if !ok then (stFlash, s)
  else let s := f s; (stDone, { s with power := { s.power with flashWrites := s.power.flashWrites + 1 } })

/-- The pack's program, if it has one. -/
def State.progOf (s : State) (p : Nat) : Option Nat := (s.pack p).prog

/-- The stochastic-rounding seed, epoch and step of the program a core runs (R138, R403). -/
def State.coreProg (s : State) (c : Nat) : Program :=
  match s.progOf (packOf c) with
  | some g => s.prog g
  | none => Program.none

/-- The epoch packets of a core carry: the job's, or 0 in the local job (R403, R406). -/
def State.epochOf (s : State) (c : Nat) : Nat := (s.coreProg c).epoch

/-- The re-placement in progress of a program, if there is one (R456). -/
def State.replOf (s : State) (g : Nat) : Option Replace := s.vet.repl.find? (fun r => r.prog = g)

/-- The re-placement in progress of a pack's program. -/
def State.replAt (s : State) (p : Nat) : Option Replace :=
  match s.progOf p with
  | some g => s.replOf g
  | none => none

/-- Packs that hold a program whose mask names them. -/
def State.progPacks (s : State) (g : Nat) : List Nat := packsIn (s.prog g).packs

end Sys2Proof.Machine
end

