-- ==== Sys2Proof/Machine/HbmPort.lean ====
section
/-! DEFINITION. The stack controllers: accesses and their counters, poison, acceptance, service and the ring port (R320, R364-R389). -/
namespace Sys2Proof.Machine

/-- The 64 B lines of a range. -/
def linesOf (a n : Nat) : List Nat := (List.range ((a + n + 63) / 64 - a / 64)).map (fun i => a / 64 + i)

/-- The 256 B granules of a range. -/
def granulesOf (a n : Nat) : List Nat := (List.range ((a + n + 255) / 256 - a / 256)).map (fun i => a / 256 + i)

/-- The pseudo-channel of a global address under the keyed hash (R370; log entry 9). -/
def State.pchOf (s : State) (a : Nat) : Nat := Config.bankHash s.hbmKey (stackOf a) (offsetOf a / 256) % 32

/-- The bank of a global address under the keyed hash (R370; log entry 9). -/
def State.bankOf (s : State) (a : Nat) : Nat := Config.bankHash s.hbmKey (stackOf a) (offsetOf a / 256) % 2048

/-- LAST_HBM_ERROR (R389). -/
def hbmErrorWord (pch source a : Nat) : Word := BitVec.ofNat 64 (at_ 48 (pch % 32) + at_ 40 (source % 16) + a / 64 * 64)

/-- What a line holds: 0 good, 1 correctable, 2 or more poisoned (R375). -/
def State.lineErr (s : State) (line : Nat) : Nat := tabGet 0 (s.stack (stackOf (64 * line))).poison line

/-- The refresh rate a stack's temperature report requires (R374; log entry 17). -/
def Stack.refreshRate (k : Stack) : Nat := Config.refreshRate k.temp

/-- An RFM command to a bank: counted, and the bank's activation count falls by RAAIMT (R374). -/
def issueRfm (st bank : Nat) (s : State) : State :=
  (s.bump (0x2000 + st) 6 1).modStack st (fun k =>
    { k with activations := tabSet 0 k.activations bank (tabGet 0 k.activations bank - Config.raaimt) })

/-- One more activation of a bank, after an RFM command where the count would reach RAAMMT: no count reaches it (R374; log entry 17). -/
def activate (st bank : Nat) (s : State) : State :=
  let s := if Config.raammt ≤ tabGet 0 (s.stack st).activations bank + 1 then issueRfm st bank s else s
  s.modStack st (fun k => { k with activations := tabMod 0 k.activations bank (fun n => min (n + 1) (Config.raammt - 1)) })

/-- Accesses of a request counted: the pseudo-channels' requests and the banks' activations (R374, R388). -/
def countAccess (st a n : Nat) (s : State) : State :=
  (granulesOf a n).foldl (fun s g =>
    activate st (s.bankOf (256 * g)) (s.bump (0x2010 + st) (s.pchOf (256 * g) + 1) 1)) s

/-- Correctable lines of a range are corrected and rewritten (R375). -/
def correctLines (st a n : Nat) (s : State) : State :=
  (linesOf a n).foldl (fun s l =>
    if s.lineErr l = 1 then (s.bump (0x2000 + st) 4 1).modStack st (fun k => { k with poison := tabErase k.poison l }) else s) s

/-- The first poisoned line of a range. -/
def State.poisonedLine (s : State) (a n : Nat) : Option Nat := (linesOf a n).find? (fun l => decide (2 ≤ s.lineErr l))

/-- A poisoned reply is counted and recorded (R375, R389). -/
def poisonReply (st source line : Nat) (s : State) : State :=
  (s.bump (0x2000 + st) 5 1).modStack st (fun k => { k with lastError := hbmErrorWord (s.pchOf (64 * line)) source (64 * line) })

/-- A read at a controller: the bytes, or none when poisoned (R375). -/
def stackRead (source a n : Nat) (s : State) : Option (List Byte) × State :=
  let st := stackOf a
  let s := countAccess st a n s
  match s.poisonedLine a n with
  | some l => (none, poisonReply st source l s)
  | none =>
    let s := correctLines st a n s
    (some (s.hbmRead a n), s.bump (0x2000 + st) 7 n)

/-- Lines a range covers only in part. -/
def partLines (a n : Nat) : List Nat := (linesOf a n).filter (fun l => decide (64 * l < a) || decide (a + n < 64 * l + 64))

/-- A store at a controller: false when it meets a poisoned line it covers only in part (R375). -/
def stackPut (source a : Nat) (d : List Byte) (s : State) : Bool × State :=
  let st := stackOf a
  let n := d.length
  let s := countAccess st a n s
  match (partLines a n).find? (fun l => decide (2 ≤ s.lineErr l)) with
  | some l => (false, poisonReply st source l s)
  | none =>
    let s := (partLines a n).foldl (fun s l => if s.lineErr l = 1 then correctLines st (64 * l) 64 s else s) s
    (true, (s.hbmWrite a d).bump (0x2000 + st) 8 n)

/-- Bytes of the image at an address with its signatures: IMAGE_LEN and the two signatures (R321). -/
def State.imageSpan (s : State) (base : Nat) : Nat := s.hbmNum (base + 32) 8 + 64 + 3309

/-- Load images that are read-only: the one being checked, and every program's until its teardown (R320, R505). -/
def State.imageRanges (s : State) : List (Nat × Nat) :=
  (if s.load.state = .checking then [(s.load.image, s.imageSpan s.load.image)] else [])
    ++ (s.progs.filter (fun e => e.2.packs ≠ 0)).map (fun e => (e.2.imageAddr, e.2.imageLen + 64 + 3309))

/-- A range the Sniff dump alone may write, or a load image (R320, R366). -/
def State.readOnly (s : State) (a n : Nat) : Bool :=
  rangesMeet a n sniffBase 0x20000000 || s.imageRanges.any (fun r => rangesMeet a n r.1 r.2)

/-- A write at a controller. One that reaches a load image or the Sniff area stores nothing and is answered as done (R320, R366; log entry
69). -/
def stackWrite (source a : Nat) (d : List Byte) (s : State) : Bool × State :=
  if s.readOnly a d.length then (true, countAccess (stackOf a) a d.length s) else stackPut source a d s

/-- The edge router and input a stack's reply enters the mesh by (R25, R266, R289). -/
def replyEntry (st source : Nat) : Nat × Dir :=
  let col := 8 * (st % 4) + source % 8
  if st < 4 then (coreAt col 0, .n) else (coreAt col 31, .s)

/-- The reply to a fetch request (R379). -/
def fetchReplyPkt (req : Pkt) (status : Nat) (data : List Byte) : Pkt :=
  let w0 := nth 0 req.words 0
  let n := if status = 0 ∧ !bitAt w0 63 then ceilDiv data.length 256 else 0
  { hdr := { Hdr.zero with
      ptype := 0x0A, nw := 2, long := decide (0 < n), len := n, dstDev := req.hdr.srcDev, dstCore := req.hdr.srcCore, srcDev := req.hdr.dstDev,
      srcCore := req.hdr.dstCore, epoch := req.hdr.epoch }
    words := [BitVec.ofNat 64 (at_ 56 status + bitsOf w0 0 40), nth 0 req.words 1]
    payload := fitTo 0 (256 * n) data, exit := false, origin := 0 }

/-- Send a reply into the mesh through its edge router. -/
def sendReply (st source : Nat) (p : Pkt) (s : State) : State :=
  let e := replyEntry st source
  s.modCore e.1 (fun k => let i := k.input e.2; k.setInput e.2 { i with link := i.link ++ [p] })

/-- SOURCE of a fetch request or reply: 0 fetch engine, 1 Retriever (R378). -/
def reqSource (p : Pkt) : Nat := bitsOf (nth 0 p.words 1) 30 2
/-- WR of a fetch request (R378). -/
def reqWrites (p : Pkt) : Bool := bitAt (nth 0 p.words 0) 63
/-- Bytes a request moves: LEN64 lines for a fetch engine, the 32 B entry for a Retriever (R358, R376, R378). -/
def reqLen (p : Pkt) : Nat := if reqSource p = 1 then 32 else 64 * bitsOf (nth 0 p.words 0) 48 9
/-- Address of a request: H, a line; a Retriever's 32 B go to the upper half of it where the packet's `origin` is 4 (R378; log entry 41). -/
def reqAddr (p : Pkt) : Nat := bitsOf (nth 0 p.words 0) 0 40 + (if p.origin = 4 then 32 else 0)

/-- Sources in rotating order from a turn (R373). -/
def rotating (turn : Nat) : List Nat := (List.range 9).map (fun i => (turn + i) % 9)

/-- Whether a source's request queue has room (R373; log entry 67). -/
def Stack.queueRoom (k : Stack) (source : Nat) : Bool :=
  decide ((k.accepted.filter (fun r => r.source = source)).length ≤ Config.requestQueue)

/-- The oldest waiting request of a source whose queue has room (R373). -/
def Stack.offered (k : Stack) (source : Nat) : Option StackReq :=
  if k.queueRoom source then k.waiting.find? (fun r => r.source = source) else none

/-- The stack has accepted a write of a fetch engine: the STORE it belongs to has one write more accepted (R202). -/
def noteAccepted (p : Pkt) (s : State) : State :=
  let w1 := nth 0 p.words 1
  let tag := bitsOf w1 24 6
  let c := p.hdr.srcCore
  let k := s.core c
  if !reqWrites p || reqSource p ≠ 0 || bitsOf w1 32 8 ≠ (tabGet 0 k.tagGen tag).toNat then s
  else match k.reqs.find? (fun r => r.tag = tag) with
    | none => s
    | some r => s.setCore c { k with ops := k.ops.map (fun q => if q.seq = r.op then { q with doneReq := q.doneReq + 1 } else q) }

/-- The controller takes a waiting request: a Serving stack accepts it, another that is not recalibrating answers STATUS 2 (R373, R386). -/
def takeReq (st : Nat) (r : StackReq) (s : State) : State :=
  let k := s.stack st
  let k := { k with waiting := k.waiting.erase r, turn := (r.source + 1) % 9 }
  if k.state = .serving then noteAccepted r.pkt (s.setStack st { k with accepted := k.accepted ++ [r] })
  else sendReply st r.source (fetchReplyPkt r.pkt 2 []) (s.setStack st k)

/-- Completion writes of a context in flight (R515). -/
def State.cplOutstanding (s : State) (n : Nat) : Nat :=
  ((s.pack (n % 16)).retr.reqs.filter (fun r => r.ctx = n)).length

/-- The completion count the next entry of a context takes (R513). -/
def State.cplNext (s : State) (n : Nat) : BitVec 32 := (s.ctx n).cplTail + BitVec.ofNat 32 (s.cplOutstanding n)

/-- Address of completion entry count `i` (R513). -/
def Ctx.cplAddr (k : Ctx) (i : BitVec 32) : Nat := k.cplBase + 32 * (i.toNat % 2 ^ k.cplLog2)
/-- TOKENS_OUT, a statistics counter in the state block, grows; at its largest value it saturates as every such counter does, and what is
recorded as the first, which has no index, is a free value (R339, R493; log entry 70). `put` writes the state block. -/
def countToken (put : Nat → List Byte → State → State) (n : Nat) (s : State) : State :=
  let a := (s.ctx n).stateAddr + 16
  let v := satAdd 64 (s.hbmNum a 8) 1
  let s := put a (leBytes 8 v) s
  if v < 2 ^ 64 - 1 then s
  else
    let f := s.fresh
    ({ f.2 with statsFirst := if s.statsSat then s.statsFirst else f.1.setWidth 32, statsSat := true } : State).alert 7

/-- A completion entry has been written: CPL_TAIL, TOKENS_OUT and LAST_STEP (R339, R506, R515). -/
def cplAccepted (put : Nat → List Byte → State → State) (n : Nat) (step : Word) (s : State) : State :=
  let s := put ((s.ctx n).stateAddr + 24) (leBytes 8 step.toNat) (countToken put n s)
  (s.modCtx n (fun k => { k with cplTail := k.cplTail + 1 })).advancePack (n % 16)

/-- PHASE of completion count `i` (R513). -/
def Ctx.phase (k : Ctx) (i : BitVec 32) : Nat := if i.toNat / 2 ^ k.cplLog2 % 2 = 0 then 1 else 0

/-- Whether HBM holds, at the place of a context's next completion entry, one that a step program has written: STATUS 6, or 9 for a refused
HANDOFF, with the context's number and the PHASE of the pass (R341, R345, R513; log entry 41). -/
def State.stepEntry (s : State) (n : Nat) : Bool :=
  let k := s.ctx n
  let i := s.cplNext n
  let e := s.hbmRead (k.cplAddr i) 32
  let st := (nth 0 e 21).toNat
  k.owner.isSome && (st = 6 || st = 9) && leValue ((e.drop 22).take 2) = n && fieldOf (leValue ((e.drop 28).take 4)) 31 1 = k.phase i

/-- A STORE that has written the next completion entry of a context advances its CPL_TAIL (R341, R345, R515). -/
def storedEntries (a len : Nat) (s : State) : State :=
  s.ctxs.foldl (fun s e =>
    if rangesMeet a len ((s.ctx e.1).cplAddr (s.cplNext e.1)) 32 && s.stepEntry e.1 then
      cplAccepted (fun a d s => (stackWrite 8 a d s).2) e.1 (s.pack (e.1 % 16)).step s
    else s) s

/-- Serve a request that has left the queues, and reply (R375, R379, R386). -/
def serveReq (st : Nat) (r : StackReq) (s : State) : State :=
  let send (status : Nat) (d : List Byte) (s : State) : State := sendReply st r.source (fetchReplyPkt r.pkt status d) s
  if (s.stack st).state ≠ .serving then send 2 [] s
  else if reqWrites r.pkt then
    match stackWrite r.source (reqAddr r.pkt) (r.pkt.payload.take (reqLen r.pkt)) s with
    | (true, s) => send 0 [] (if reqSource r.pkt = 0 then storedEntries (reqAddr r.pkt) (reqLen r.pkt) s else s)
    | (false, s) => send 1 [] s
  else
    match stackRead r.source (reqAddr r.pkt) (reqLen r.pkt) s with
    | (some d, s) => send 0 d s
    | (none, s) => send 1 [] s

/-- Whether a request touches a line of a range. -/
def StackReq.touches (r : StackReq) (a n : Nat) : Bool := (linesOf (reqAddr r.pkt) (reqLen r.pkt)).any (fun l => (linesOf a n).contains l)

/-- The ring port's turn: each edge link whose turn comes before it and that has a request is taken first (R373). -/
def ringTurn (st : Nat) (s : State) : State :=
  let s := (List.range 8).foldl (fun s src =>
    if src < (s.stack st).turn then s
    else match (s.stack st).offered src with
      | some r => takeReq st r s
      | none => s) s
  s.modStack st (fun k => { k with turn := 0 })

/-- Requests accepted before an access that share a line with it, with those accepted before them, are served (R373, R380). -/
def serveBefore (st a n : Nat) (s : State) : State :=
  let l := (s.stack st).accepted
  let m := l.length - l.reverse.findIdx (fun r => r.touches a n)
  foldN m (fun s _ =>
    match (s.stack st).accepted with
    | [] => s
    | r :: t => serveReq st r (s.modStack st (fun k => { k with accepted := t }))) s

/-- Outcome of a ring-port access: done with the bytes read, poisoned, stack not serving, or held by a recalibration. -/
inductive RingAcc where
  | done (l : List Byte)
  | poisoned
  | notServing
  | held
  deriving DecidableEq, Repr

/-- Free bytes: what no storage or no readable line gives (log entries 3, 68). -/
def State.freeBytes (s : State) (n : Nat) : List Byte × State :=
  ((List.range n).map (fun i => Config.freeByte (s.nonce + i)), { s with nonce := s.nonce + n })

/-- A read through a stack's ring port, taken in its turn behind what was accepted before it; where there is no storage the bytes are free
(R365, R373, R375, R380, R383, R386). -/
def ringRead (a n : Nat) (s : State) : RingAcc × State :=
  match (s.stack (stackOf a)).state with
  | .serving =>
    let s := serveBefore (stackOf a) a n (ringTurn (stackOf a) s)
    if stackBytes < offsetOf a + n then (.done (s.freeBytes n).1, (s.freeBytes n).2)
    else match stackRead 8 a n s with
      | (some l, s) => (.done l, s)
      | (none, s) => (.poisoned, s)
  | .recalibrating => (.held, s)
  | .untrained => (.notServing, s)
  | .training => (.notServing, s)
  | .retraining => (.notServing, s)
  | .failed => (.notServing, s)

/-- A write through a stack's ring port; where there is no storage nothing is stored. -/
def ringWrite (a : Nat) (d : List Byte) (s : State) : RingAcc × State :=
  match (s.stack (stackOf a)).state with
  | .serving =>
    let s := serveBefore (stackOf a) a d.length (ringTurn (stackOf a) s)
    if stackBytes < offsetOf a + d.length then (.done [], s)
    else match stackWrite 8 a d s with
      | (true, s) => (.done [], s)
      | (false, s) => (.poisoned, s)
  | .recalibrating => (.held, s)
  | .untrained => (.notServing, s)
  | .training => (.notServing, s)
  | .retraining => (.notServing, s)
  | .failed => (.notServing, s)

/-- A write of the module's own to its state blocks, through the ring port; one to a recalibrating stack is not told apart from one that
waits for the end of the recalibration (R339, R373, R384; log entry 67). -/
def portWrite (a : Nat) (d : List Byte) (s : State) : State :=
  match ringWrite a d s with
  | (.held, s) => (stackWrite 8 a d s).2
  | (.done _, s) => s
  | (.poisoned, s) => s
  | (.notServing, s) => s

/-- A read of the module's own through the ring port: image bytes and weights; bytes that cannot be read are free (R366, R373; log entry
68). -/
def portRead (a n : Nat) (s : State) : List Byte × State :=
  match ringRead a n s with
  | (.done l, s) => (l, s)
  | (.held, s) => match stackRead 8 a n s with
    | (some l, s) => (l, s)
    | (none, s) => s.freeBytes n
  | (.poisoned, s) => s.freeBytes n
  | (.notServing, s) => s.freeBytes n

/-- A write of a Sniff dump, the one writer of the Sniff area (R366, R490). -/
def dumpWrite (a : Nat) (d : List Byte) (s : State) : State :=
  let st := stackOf a
  match (s.stack st).state with
  | .serving => (stackPut 8 a d (serveBefore st a d.length (ringTurn st s))).2
  | .recalibrating => (stackPut 8 a d s).2
  | .untrained => s
  | .training => s
  | .retraining => s
  | .failed => s

/-- A range zeroised by its stack's controller (R388, R480). -/
def zeroiseHbm (a n : Nat) (s : State) : State :=
  if n = 0 then s else ((countAccess (stackOf a) a n s).hbmZero a n).bump (0x2000 + stackOf a) 8 n

end Sys2Proof.Machine
end

