-- ==== Sys2Proof/Machine/Faults.lean ====
section
/-! DEFINITION. What every fault does: the record, the alert, the stop, the Bark, the start of teardown
(R92, R112, R315, R406, R424, R468-R481). -/
namespace Sys2Proof.Machine

/-- The class of a fault code (R468, R469). Vet findings are given their class by the caller. -/
def faultClass (code : Nat) : Nat :=
  if code = 0x09 then 2
  else if code ≤ 0x0A then 1
  else if 0x20 ≤ code ∧ code ≤ 0x44 then 1
  else if 0x80 ≤ code ∧ code ≤ 0xA1 then 2
  else if 0xB0 ≤ code ∧ code ≤ 0xB6 then 4
  else if code = 0xD0 ∨ code = 0xD1 then 2
  else if code = 0xD2 then 4
  else if 0xD3 ≤ code ∧ code ≤ 0xD6 then 3
  else if code = 0xD7 ∨ code = 0xD9 then 5
  else if code = 0xDA then 4
  else 0

/-- Whether a record is of a beat and of a code above another (R470). -/
def FaultRec.after (r : FaultRec) (now : Time) (code : Nat) : Bool :=
  decide (r.written < noRecord) && bitsOf r.word 64 64 = now.toNat && decide (code < bitsOf r.word 40 8)

/-- How many of the newest records are of this beat and of a higher code: a record of the code stands before them (R470; fuel: records). -/
def recordsAfter (log : Tab FaultRec) (now : Time) (code : Nat) : Nat → Nat → Nat
  | 0, _ => 0
  | fuel + 1, n =>
    if n ≠ 0 && (tabGet FaultRec.none log ((n - 1) % 64)).after now code then recordsAfter log now code fuel (n - 1) + 1 else 0

/-- A record with its number (R471). -/
def FaultRec.numbered (r : FaultRec) (n : Nat) : FaultRec :=
  { r with word := r.word - BitVec.ofNat 128 (at_ 48 (bitsOf r.word 48 16)) + BitVec.ofNat 128 (at_ 48 (n % 65536)) }

/-- The newest `k` records before number `n` move one place on (R470). -/
def shiftRecords : Nat → Nat → Tab FaultRec → Tab FaultRec
  | 0, _, log => log
  | k + 1, n, log =>
    shiftRecords k (n - 1) (tabSet FaultRec.none log (n % 64) ((tabGet FaultRec.none log ((n - 1) % 64)).numbered n))

/-- Write one fault record, before those of the same beat with higher codes, and set the alert bit of its class (R470-R472). -/
def writeFaultRecord (code cls pack core stream : Nat) (s : State) : State :=
  let n := s.faults.seq.toNat
  let k := recordsAfter s.faults.log s.howl code 63 n
  let w := at_ 64 s.howl.toNat + at_ 40 (code % 256) + at_ 37 (cls % 8) + at_ 32 (pack % 16) + at_ 10 (stream % 8) + core % 1024
  let r : FaultRec := { word := BitVec.ofNat 128 w, written := n }
  ({ s with faults := { s.faults with
      log := tabSet FaultRec.none (shiftRecords k n s.faults.log) ((n - k) % 64) (r.numbered (n - k)), seq := s.faults.seq + 1 } } : State).alert
    (if cls = 0 then 1 else 0)

/-- The fault record written at a FAULT_LOG_SEQ changed in place, while the ring still holds it (R471). -/
def editFaultRecord (n : Nat) (f : BitVec 128 → BitVec 128) (s : State) : State :=
  { s with faults := { s.faults with
      log := s.faults.log.map (fun e => if e.2.written = n && decide (n < noRecord) then (e.1, { e.2 with word := f e.2.word }) else e) } }

/-- RUNG of a record raised, never lowered (R471). -/
def raiseRung (n rung : Nat) (s : State) : State :=
  editFaultRecord n (fun w => if bitsOf w 29 3 < rung then w + BitVec.ofNat 128 (at_ 29 (rung - bitsOf w 29 3)) else w) s

/-- Whether the pack is stopping: torn down, in reset, or its streams already Stopped by a fault (R185, R248). -/
def State.isStopping (s : State) (p : Nat) : Bool :=
  (s.pack p).stopping || (s.pack p).state == .tearing || (s.pack p).state == .inReset

/-- Close the Bowls a stream reads (R315). -/
def Core.closeBowlsOf (k : Core) (stream : Nat) : Core :=
  { k with bowls := k.bowls.map (fun e => if bitsOf e.2.cfg 10 3 = stream && e.2.isOpen then (e.1, { e.2 with isOpen := false }) else e) }

/-- Close every Bowl of a core (R315). -/
def Core.closeBowls (k : Core) : Core :=
  { k with bowls := k.bowls.map (fun e => (e.1, { e.2 with isOpen := false })) }

/-- Whether a stream may still run or wake. -/
def StreamState.live : StreamState → Bool
  | .ready => true | .parkedCollar => true | .parkedBowl => true | .parkedClaim => true | .parkedLaunch => true
  | .uninstalled => false | .faulted => false | .stopped => false

/-- Every live stream of a core becomes Stopped and the Bowls it reads close (R91, R315, R478). A Faulted stream has
already stopped and keeps its state (log entry 10). -/
def Core.stopStreams (k : Core) : Core :=
  (List.range 8).foldl (fun k i =>
    let t := k.stream i
    if t.st.live then (k.setStream i { t with st := .stopped }).closeBowlsOf i else k) k

/-- Every stream of a core under reset becomes Stopped, and the Bowls it reads close (R315, R484). -/
def Core.resetStreams (k : Core) : Core :=
  (List.range 8).foldl (fun k i =>
    let t := k.stream i
    if t.st = .uninstalled then k else (k.setStream i { t with st := .stopped }).closeBowlsOf i) k

/-- Every stream of a pack stops issue and becomes Stopped (R184, R248, R292, R362, R478). -/
def stopPack (p : Nat) (s : State) : State :=
  let s := (packCores p).foldl (fun s c =>
    if (s.core c).streams.isEmpty then s else s.modCore c Core.stopStreams) s
  s.modPack p (fun k => { k with stopping := true })

/-- A Bowl's generation incremented mod 256 and the Bowl closed (R315, R481). -/
def Bowl.bumpGen (b : Bowl) : Bowl :=
  let g := bitsOf b.cfg 32 8
  { b with
    isOpen := false
    cfg := b.cfg - BitVec.ofNat 128 (at_ 32 g) + BitVec.ofNat 128 (at_ 32 ((g + 1) % 256)) }

/-- Every request tag generation of a table of `n` tags incremented mod 256 (R112, R481). -/
def bumpTags (n : Nat) (t : Tab (BitVec 8)) : Tab (BitVec 8) :=
  foldN n (fun t i => tabSet 0 t i (tabGet 0 t i + 1)) t

/-- The generation of every request tag of a fetch engine incremented: replies that arrive later are stale, and the tags are free (R112,
R379, R456, R478). -/
def Core.bumpRequests (k : Core) : Core := { k with tagGen := bumpTags 64 k.tagGen, reqs := [] }

/-- The generation bump of one core at teardown order 2 (R478). -/
def Core.bumpGens (k : Core) : Core :=
  { k.bumpRequests with
    bowls := (List.range 64).foldl (fun t b => tabMod Bowl.none t b Bowl.bumpGen) k.bowls
    collars := k.collars.map (fun e => if e.2.configured then (e.1, { e.2 with gen := e.2.gen + 1 }) else e) }

/-- Context state byte written in its state block (R339, R340). -/
def setCtxState (n code : Nat) (s : State) : State :=
  portWrite (s.ctx n).stateAddr [BitVec.ofNat 8 code] s

/-- The contexts a program owns. -/
def Program.ctxList (g : Program) : List Nat := (List.range g.ctxCount).map (fun i => g.ctxFirst + i)

/-- Teardown orders 1 and 2 on one program (R478): stop, queues emptied, generator off, contexts Stopped,
then the generation bump. A pack already being torn down is left as it is. -/
def startTeardown (g : Nat) (cause : Nat) (s : State) : State :=
  let pr := s.prog g
  if pr.packs = 0 || pr.barked then s
  else
    let s := s.modProg g (fun x => { x with barked := true })
    let s := { s with vet := { s.vet with repl := s.vet.repl.filter (fun r => r.prog ≠ g) } }
    let s := (packsIn pr.packs).foldl (fun s p =>
      let s := stopPack p s
      let s := (packCores p).foldl (fun s c =>
        if tabGet false pr.used c then s.modCore c Core.bumpGens else s.modCore c Core.bumpRequests) s
      s.modPack p (fun k => { k with
        state := if k.state == .inReset then .inReset else .tearing
        queue := []
        goAt := none
        posted := false
        retr := { k.retr with tagGen := bumpTags 8 k.retr.tagGen, reqs := [] }
        teardown := some
          { prog := g, startedAt := s.howl, drained := false, drainEnd := 0, dumpOpen := false, zeroScratchOpen := true,
            zeroHbmOpen := true, resetOpen := false, quarantineOpen := true, reset := false, cause := cause,
            escalated := false, record := noRecord } })) s
    let s := pr.ctxList.foldl (fun s n => setCtxState n 6 s) s
    let s := if (s.gen.packs.toNat &&& pr.packs) ≠ 0 then { s with gen := { s.gen with running := false } } else s
    if (s.load.state == .installed || s.load.state == .installing) && s.load.prog = g then { s with load := { s.load with state := .idle } } else s

/-- The teardown of a pack is to end in a Sniff dump and a pack reset (R468 class 2, R476). -/
def markReset (cause record p : Nat) (s : State) : State :=
  s.modPack p (fun k => { k with
    teardown := k.teardown.map (fun t => { t with reset := true, resetOpen := true, cause := cause, record := record }) })

/-- Bytes of a control message (R417, R418); T_TX is the Howl in 1/256 beat. -/
def encodeCtrl (m : CtrlMsg) : List Byte :=
  let h (ty : Nat) := leBytes 1 ty ++ leBytes 1 m.head.dir ++ leBytes 2 m.head.src ++ leBytes 4 m.head.epoch.toNat
    ++ leBytes 8 m.head.tTx.toNat
  let b : List Byte := match m.body with
    | .hello x => h 1 ++ leBytes 4 x.part.toNat ++ leBytes 1 x.stepping.toNat ++ leBytes 1 x.port ++ leBytes 2 x.expect
        ++ leBytes 8 x.rxEcho.toNat ++ leBytes 8 x.txEcho.toNat
    | .beacon x => h 2 ++ leBytes 8 x.rxEcho.toNat ++ leBytes 8 x.txEcho.toNat ++ leBytes 4 x.masterOffset.toNat
        ++ leBytes 1 x.heard.toNat ++ leBytes 1 (bit01 x.muzzled)
    | .bark o r t => h 3 ++ leBytes 2 o ++ leBytes 2 r ++ leBytes 4 0 ++ leBytes 8 t.toNat
    | .suspect su re st => h 4 ++ leBytes 2 su ++ leBytes 2 re ++ leBytes 1 st
    | .ready st => h 5 ++ leBytes 8 st.toNat
    | .go st t => h 6 ++ leBytes 8 st.toNat ++ leBytes 8 t.toNat
    | .join l c => h 7 ++ leBytes 4 l.toNat ++ leBytes 4 c
    | .start e t => h 8 ++ leBytes 4 e.toNat ++ leBytes 4 0 ++ leBytes 8 t.toNat
    | .rewind o st => h 9 ++ leBytes 2 o ++ leBytes 6 0 ++ leBytes 8 st.toNat
  fitTo 0 256 b

/-- The torus direction code of a port (R391). -/
def portDir (f : Nat) : Nat := f / 3

/-- The Howl in units of 1/256 beat (R417). -/
def howl256 (s : State) : Word := BitVec.ofNat 64 (s.howl.toNat * 256)

/-- Queue a control message on channel C0 of a port (R395, R417). -/
def sendCtrl (f : Nat) (body : CtrlBody) (s : State) : State :=
  let m : CtrlMsg := { head := { dir := portDir f, src := s.job.coord.toNat, epoch := s.job.epoch, tTx := howl256 s }, body := body }
  s.modPort f (fun p => { p with vcs := tabMod [] p.vcs 0 (fun l => l ++ [{ bytes := encodeCtrl m, sop := true, eop := true }]) })

/-- Whether a port is an up member port (R417). -/
def State.isMemberPort (s : State) (f : Nat) : Bool := (s.port f).state == .member

/-- Flood a control message on every up member port but one (R417). -/
def floodCtrl (except : Option Nat) (body : CtrlBody) (s : State) : State :=
  (List.range 18).foldl (fun s f => if s.isMemberPort f && except ≠ some f then sendCtrl f body s else s) s

/-- BARK_LINE_ENABLE (R433). -/
def State.barkLineEnabled (s : State) : Bool := s.setting 0x0221 1 1 == 1

/-- LAST_BARK's word (R434). -/
def lastBarkWord (origin via reason : Nat) : Word :=
  BitVec.ofNat 64 (at_ 48 (origin % 65536) + at_ 32 (via % 256) + at_ 16 (reason % 65536))

/-- A later Bark of the epoch (R424). -/
def barkDuplicate (s : State) : State :=
  let d := bitsOf s.job.lastBark 0 16
  let s := s.bump 0x501A 3 1
  if d = 0xFFFF then s else { s with job := { s.job with lastBark := s.job.lastBark + 1 } }

/-- The programs of the formed job, or of the local job, that are loaded (R406). -/
def State.jobProgs (s : State) (ofJob : Bool) : List Nat :=
  (List.range 16).filter (fun g => (s.prog g).packs ≠ 0 && (s.prog g).ofJob == ofJob && !(s.prog g).barked)

/-- The first Bark of the formed job's epoch, in the order of R424. -/
def jobBark (origin via reason : Nat) (barkHowl : Time) (s : State) : State :=
  if s.job.barkActed then barkDuplicate s
  else
    let s := { s with job := { s.job with barkActed := true, lastBark := lastBarkWord origin via reason, lastBarkTime := s.howl } }
    let s := s.bump 0x501A 2 1
    let s := floodCtrl (if via < 18 then some via else none) (.bark origin reason barkHowl) s
    let s := if s.barkLineEnabled then { s with job := { s.job with barkLineUntil := some (s.howl + 1024) } } else s
    let s := (s.jobProgs true).foldl (fun s g => (s.progPacks g).foldl (fun s p => stopPack p s) s) s
    let s := { s with gen := { s.gen with running := false }, mirror := { s.mirror with state := if s.mirror.state = 1 then 3 else s.mirror.state } }
    let s := { s with job := { s.job with
      state := if s.job.state = JobState.running then JobState.barked else s.job.state
      purgeFrom := some s.howl
      purgeEpoch := s.job.epoch } }
    let s := s.alert 4
    (s.jobProgs true).foldl (fun s g => startTeardown g reason s) s

/-- A Bark of the local job: orders 1, 4 and 6 of R424 on every local-job program loaded (R406). -/
def localBark (reason : Nat) (s : State) : State :=
  if (s.jobProgs false).isEmpty then barkDuplicate s
  else
    let s := { s with job := { s.job with
      lastBark := lastBarkWord s.job.coord.toNat 0xFF reason
      lastBarkTime := s.howl } }
    let s := s.bump 0x501A 2 1
    let s := s.alert 4
    (s.jobProgs false).foldl (fun s g => startTeardown g reason s) s

/-- Whether a Bark for this program would be the first of its job (R470). -/
def State.barkIsFirst (s : State) (ofJob : Bool) : Bool :=
  if ofJob then !s.job.barkActed else !(s.jobProgs false).isEmpty

/-- The device originates a Bark of a job with a reason (R406, R424). -/
def originateBark (ofJob : Bool) (reason : Nat) (s : State) : State :=
  if ofJob then jobBark s.job.coord.toNat 0xFF reason s.howl s else localBark reason s

/-- A pack Barks its program's job; a pack with no program has no job to Bark. Answers whether the Bark was the
first of its job. -/
def barkPack (reason p : Nat) (s : State) : Bool × State :=
  match s.progOf p with
  | none => (false, s)
  | some g =>
    let j := (s.prog g).ofJob
    (s.barkIsFirst j, originateBark j reason s)

/-- BARKED of a record set; the teardowns that its Bark began, and the resets within them, are what its fault led to (R471). -/
def setBarked (n : Nat) (s : State) : State :=
  let s := (List.range 16).foldl (fun s p =>
    if (s.pack p).teardown.isNone then s
    else s.modPack p (fun k => { k with teardown := k.teardown.map (fun t => { t with record := if t.record = noRecord then n else t.record }) })) s
  editFaultRecord n (fun w => if bitAt w 36 then w else w + BitVec.ofNat 128 (at_ 36 1)) s

/-- The first pack named of each job concerned: the formed job and the local job (R406). -/
def jobReps (packs : List Nat) (s : State) : List Nat :=
  [true, false].filterMap (fun j => packs.find? (fun p => match s.progOf p with | some g => (s.prog g).ofJob == j | none => false))

/-- One fault (R92, R292, R362, R387, R468-R471): a record of the first pack named, the Bark of each job of the packs, BARKED
where this fault gave the reason, and for a contain-class fault the mark that each pack ends in a reset. -/
def reportFault (code : Nat) (packs : List Nat) (core stream : Nat) (s : State) : State :=
  let cls := faultClass code
  let n := s.faults.seq.toNat
  let s := writeFaultRecord code cls (packs.headD 0) core stream s
  let r := (jobReps packs s).foldl (fun (a : Bool × State) p =>
    let b := barkPack code p a.2
    (a.1 || b.1, b.2)) (false, s)
  let s := if r.1 then setBarked n r.2 else r.2
  if cls = 2 || code = 0xD5 || code = 0xD6 then packs.foldl (fun s p => markReset code n p s) s else s

/-- STREAM_FAULT word (R93). -/
def streamFaultWord (stream : Nat) (pc : BitVec 12) (code : Nat) : BitVec 32 :=
  BitVec.ofNat 32 (at_ 28 (stream % 8) + at_ 12 pc.toNat + code % 256)

/-- A stream fault of the instruction at `pc`, in the order of R92; the Bowls the stream reads close (R315). -/
def streamFaultAt (c stream : Nat) (pc : BitVec 12) (code : Nat) (s : State) : State :=
  let w := streamFaultWord stream pc code
  let s := s.modCore c (fun k =>
    let k := k.setStream stream { k.stream stream with st := .faulted, fault := w }
    { k.closeBowlsOf stream with lastStreamFault := w })
  reportFault code [packOf c] c stream s

/-- A stream fault of the instruction at the stream's PC (R92). -/
def streamFault (c stream code : Nat) (s : State) : State :=
  streamFaultAt c stream ((s.core c).stream stream).pc code s

/-- A mesh fault, in the order of R292; `word` is LAST_MESH_FAULT (R293). -/
def meshFault (code : Nat) (packs : List Nat) (core : Nat) (word : Nat) (s : State) : State :=
  let s := if s.meshFaultHeld then s
    else { s with meshFaultHeld := true, meshFaultTime := s.howl, meshFault := BitVec.ofNat 64 word }
  let s := s.bump 0x5015 1 1
  let s := packs.foldl (fun s p => stopPack p s) s
  reportFault code packs core 0 s

/-- LAST_MESH_FAULT's word (R293). -/
def meshFaultWord (code period tag dir entry core : Nat) : Nat :=
  at_ 56 code + at_ 52 (period % 16) + at_ 40 (tag % 4096) + at_ 34 dir + at_ 22 (entry % 4096) + core % 1024

/-- A Retriever fault of a pack, in the order of R362; every context of the pack becomes Stopped. -/
def retrieverFault (code p ctx : Nat) (s : State) : State :=
  let s := s.modPack p (fun k => { k with retr := { k.retr with stopped := true, sampling := none } })
  let s := (s.setSetting (0x1800 + p) 0x32 s.howl.toNat).setSetting (0x1800 + p) 0x33 (at_ 24 code + ctx % 512)
  let s := stopPack p s
  let s := reportFault code [p] (retrRouter p) 0 s
  (List.range 512).foldl (fun s n => if n % 16 = p && ((s.ctx n).owner).isSome then setCtxState n 6 s else s) s

end Sys2Proof.Machine
end

