-- ==== Sys2Proof/Machine/Scratch.lean ====
section
/-! DEFINITION. Scratchpad access through the ports and its error codes (R229-R250, R256). -/
namespace Sys2Proof.Machine

/-- Bytes of a core's scratchpad (R229). -/
def spadBytes : Nat := 0x180000
/-- Start of the vet-slice save area (R229). -/
def saveBase : Nat := 0x178000

/-- Whether the word at an address is in the DEC-TED code: the weight region (R229, R235). -/
def Core.isDecTed (k : Core) (addr : Nat) : Bool := decide (addr < k.fence)

/-- LAST_ECC_EVENT's word (R260). -/
def eccEventWord (port kind addr : Nat) : Word :=
  BitVec.ofNat 64 (at_ 36 (port % 16) + at_ 32 (kind % 16) + (addr / 8 * 8) % 2 ^ 21)

/-- Record an ECC event unless an uncorrectable one is kept (R247, R249). -/
def recordEcc (c port kind addr : Nat) (s : State) : State :=
  s.modCore c (fun k =>
    if k.eccSticky then k
    else { k with lastEcc := eccEventWord port kind addr, eccSticky := decide (4 ≤ kind) })

/-- A correctable error found by a read: counted, recorded, queued for the Groomer (R247). -/
def eccCorrected (c port addr bits : Nat) (s : State) : State :=
  let dec := (s.core c).isDecTed addr
  let s := s.bumpCore c (if dec then 0x52 else 0x51) 1
  let s := recordEcc c port (if dec then (if bits ≤ 1 then 2 else 3) else 1) addr s
  s.modCore c (fun k => { k with rewriteQ := if k.rewriteQ.length < 16 then k.rewriteQ ++ [addr / 8 * 8] else k.rewriteQ })

/-- An uncorrectable error found by a read: the actions of R248 by the state of the pack. -/
def eccUncorrectable (c port addr : Nat) (record : Bool) (s : State) : State :=
  let p := packOf c
  let kind := if (s.core c).isDecTed addr then 5 else 4
  let st := (s.pack p).state
  if st = .heldSafe then s
  else if s.isStopping p then s.bumpCore c 0x53 1
  else if st = .empty then
    let s := if record then recordEcc c port kind addr s else s
    s.bumpCore c 0x53 1
  else
    let s := recordEcc c port kind addr s
    let s := s.bumpCore c 0x53 1
    let s := stopPack p s
    reportFault 0xD1 [p] c 0 s

/-- What a read of one word with `bits` wrong bits does at a port (R246). -/
inductive EccOutcome where
  | clean | corrected | uncorrectable | miscorrected | silent
  deriving DecidableEq, Repr

/-- The outcome of reading a word in the code of its region (R246); beyond the code it is open (log entry 6). -/
def eccOutcome (dec : Bool) (bits nonce : Nat) : EccOutcome :=
  let corr := if dec then 2 else 1
  if bits = 0 then .clean
  else if bits ≤ corr then .corrected
  else if bits = corr + 1 then .uncorrectable
  else match Config.beyondCode nonce with
    | 0 => .uncorrectable
    | 1 => .miscorrected
    | _ => .silent

/-- The occasion of an outcome the codes leave open has passed (R246; log entry 6). -/
def State.drawn (s : State) (dec : Bool) (bits : Nat) : State :=
  if (if dec then 2 else 1) + 1 < bits then { s with nonce := s.nonce + 1 } else s

/-- The accumulated result of reading words: whether any was uncorrectable, and words whose data is free. -/
structure EccRead where
  bad : Bool
  badWords : List Nat
  free : Tab Word
  st : State

/-- One erroneous word read through a port. -/
def eccReadWord (c port w bits : Nat) (r : EccRead) : EccRead :=
  let dec := (r.st.core c).isDecTed (8 * w)
  match eccOutcome dec bits r.st.nonce with
  | .clean => r
  | .corrected => { r with st := eccCorrected c port (8 * w) bits r.st }
  | .uncorrectable => { r with bad := true, badWords := r.badWords ++ [w], st := eccUncorrectable c port (8 * w) true (r.st.drawn dec bits) }
  | .miscorrected =>
    let f := r.st.fresh
    { r with free := tabSet 0 r.free w f.1, st := eccCorrected c port (8 * w) bits f.2 }
  | .silent =>
    let f := r.st.fresh
    { r with free := tabSet 0 r.free w f.1, st := f.2 }

/-- Erroneous words of a range, in ascending order. -/
def Core.errWords (k : Core) (addr len : Nat) : Tab Nat :=
  k.spadErr.filter (fun e => decide (addr / 8 ≤ e.1) && decide (8 * e.1 < addr + len))

/-- Read a range through a port: the state after the error handling, which words could not be read, and the bytes
the port receives with unreadable words as 0 (R246-R248). -/
def readWords (c port addr len : Nat) (s : State) : EccRead × List Byte :=
  let k := s.core c
  let r := (k.errWords addr len).foldl (fun r e => eccReadWord c port e.1 e.2 r)
    { bad := false, badWords := [], free := [], st := s }
  let bytes := memRead k.spad addr len
  let bytes := if r.free.isEmpty && r.badWords.isEmpty then bytes
    else bytes.mapIdx (fun i b =>
      let w := (addr + i) / 8
      if r.badWords.contains w then 0
      else if r.free.any (fun e => e.1 = w) then BitVec.ofNat 8 ((tabGet 0 r.free w).toNat >>> (8 * ((addr + i) % 8)))
      else b)
  (r, bytes)

/-- Read a range through a port; nothing where a word is uncorrectable (R248). -/
def readPort (c port addr len : Nat) (s : State) : Option (List Byte) × State :=
  let r := readWords c port addr len s
  (if r.1.bad then none else some r.2, r.1.st)

/-- Store bytes with fresh check bits; words touched hold no error afterwards (R236). -/
def Core.store_ (k : Core) (addr : Nat) (l : List Byte) : Core :=
  if l.isEmpty then k
  else { k with
    spad := memWrite k.spad addr l
    spadErr := if k.spadErr.isEmpty then k.spadErr else tabDrop k.spadErr (addr / 8) ((addr + l.length + 7) / 8 - addr / 8) }

/-- The bytes of an array whose last byte holds only `tail` bits of it (0: all 8): that byte keeps its other bits (R123, R236). -/
def Core.keepTail (k : Core) (addr tail : Nat) (l : List Byte) : List Byte :=
  match tail, l.getLast? with
  | 0, _ => l
  | _, none => l
  | n, some b => l.dropLast ++ [(b &&& BitVec.ofNat 8 (2 ^ n - 1)) ||| (tabGet 0 k.spad (addr + l.length - 1) >>> n <<< n)]

/-- Write an array through a port; `tail` as in `Core.keepTail`. A word covered in part is a merge, whose read meets the word's errors and
passes on what it returns (R236, R246). A word that cannot be read is not written, but in a pack without a program, where a service-window
merge writes the bytes it does not supply as 0 (R248). `port` is the port of the merge's read. -/
def writeArray (c port addr tail : Nat) (l : List Byte) (s : State) : State :=
  if l.isEmpty then s
  else
    let k := s.core c
    if k.spadErr.isEmpty then s.setCore c (k.store_ addr (k.keepTail addr tail l))
    else
      let last := addr + l.length
      let partials := (if addr % 8 = 0 then [] else [addr / 8]) ++ (if last % 8 = 0 && tail = 0 then [] else [(last - 1) / 8])
      let errs := (k.errWords addr l.length).filter (fun e => partials.contains e.1)
      let r := errs.foldl (fun r e => eccReadWord c port e.1 e.2 r) { bad := false, badWords := [], free := [], st := s }
      let zeroes := decide (port = 7) && (s.pack (packOf c)).state = .empty
      let s := r.free.foldl (fun s e => s.modCore c (fun k => k.store_ (8 * e.1) (leBytes 8 e.2.toNat))) r.st
      let s := if zeroes then r.badWords.foldl (fun s w => s.modCore c (fun k => k.store_ (8 * w) (leBytes 8 0))) s else s
      let bad (w : Nat) : Bool := !zeroes && r.badWords.contains w
      let a := if bad (addr / 8) then addr / 8 * 8 + 8 else addr
      let e := if bad ((last - 1) / 8) then (last - 1) / 8 * 8 else last
      s.modCore c (fun k => k.store_ a (((k.keepTail addr tail l).drop (a - addr)).take (e - a)))

/-- Write whole bytes through a port (R236). -/
def writePort (c port addr : Nat) (l : List Byte) (s : State) : State := writeArray c port addr 0 l s

/-- Zeroise a range: all-zero words, valid in either code (R235, R254). -/
def Core.zeroise (k : Core) (addr len : Nat) : Core :=
  { k with spad := memZero k.spad addr len, spadErr := tabDrop k.spadErr (addr / 8) (len / 8) }

/-- Contents an engine reset leaves unspecified in a write range: free bytes with valid check bits (R113). -/
def scrambleRange (c addr len : Nat) (s : State) : State :=
  let l := (List.range len).map (fun i => Config.freeByte (s.nonce + i))
  ({ s with nonce := s.nonce + len } : State).modCore c (fun k => k.store_ addr l)

/-- The accumulators after a reset of the matrix engine: the spec does not say what they hold, so every entry is a free value, and their class is
FP32 (R113; log entries 3, 5). -/
def scrambleAcc (c : Nat) (s : State) : State :=
  ({ s with nonce := s.nonce + 4096 } : State).modCore c (fun k =>
    { k with acc := (List.range 4096).foldl (fun t i => tabSet 0 t i (Config.freeAcc (s.nonce + i))) [], accClass := [] })

/-- A core's open-phase key (R243). -/
def State.openKey (s : State) (c : Nat) : Word := Config.trueRandom (s.power.keyDraw + c)

/-- The words of a byte range. -/
def wordsOfRange (addr len : Nat) : List Nat := (List.range ((addr + len + 7) / 8 - addr / 8)).map (fun i => addr / 8 + i)

/-- The largest number of distinct words of a set in one bank; word `w` lies in bank `w mod 64` (R233, R238). -/
def bankLoad (ws : List Nat) : Nat :=
  let ws := ws.eraseDups
  (List.range 64).foldl (fun m b => max m ((ws.filter (fun w => w % 64 = b)).length)) 0

/-- Cycles a fixed phase adds to serve a set of words (R238). -/
def conflictCycles (ws : List Nat) : Nat := bankLoad ws - 1

end Sys2Proof.Machine
end

