-- ==== Sys2Proof/Machine/Collars.lean ====
section
/-! DEFINITION. Collar operations, wakes, and the shared work counter (R88, R95-R111, R221-R223). -/
namespace Sys2Proof.Machine

/-- STREAM_PROGRESS of a stream advanced by an issue or a wake (R474). -/
def streamProgress (c i : Nat) (s : State) : State :=
  (s.advanceKey (statKey (0x1000 + c) (0x92 + i % 8)) 1).modCore c (fun k =>
    k.modStream i (fun t => { t with lastIssue := s.clock }))

/-- A parked stream becomes Ready (R89). -/
def wakeStream (c i : Nat) (s : State) : State :=
  let s := s.modCore c (fun k => k.modStream i (fun t => { t with st := .ready, woken := false }))
  (streamProgress c i s).advancePack (packOf c)

/-- The waking event of a parked stream has reached the Shepherd (R88, R89). -/
def Stream.noteWake (t : Stream) : Stream := { t with woken := true }

/-- The waking event of every stream whose WAIT on a Collar is now satisfied (R88, R98). -/
def wakeCollar (c k : Nat) (s : State) : State :=
  let col := (s.core c).collar k
  (List.range 8).foldl (fun s i =>
    let t := (s.core c).stream i
    if t.st = .parkedCollar && t.waitCollar = k && (decide (t.waitT.toNat ≤ col.value.toNat) || col.ovf) then
      s.modCore c (fun x => x.modStream i Stream.noteWake)
    else s) s

/-- Add to a Collar, saturating; the first carry raises the overflow event (R97, R98). -/
def collarAdd (c k : Nat) (n : BitVec 32) (s : State) : State :=
  let col := (s.core c).collar k
  let v := col.value.toNat + n.toNat
  let s :=
    if v < 2 ^ 32 then s.modCore c (fun x => x.setCollar k { col with value := BitVec.ofNat 32 v })
    else
      let s' := s.modCore c (fun x => x.setCollar k { col with value := 0xFFFFFFFF, ovf := true })
      if col.ovf then s' else writeFaultRecord 0xD8 0 (packOf c) c 0 (s'.bump 0x5011 1 1)
  wakeCollar c k s

/-- RESET of a Collar: value and OVF cleared, generation kept (R97). -/
def Collar.clear (col : Collar) : Collar := { col with value := 0, ovf := false }

/-- An operation discarded for its generation or because the Collar cannot accept it (R100). -/
def staleCollarOp (c : Nat) (s : State) : State := s.bumpCore c 0x07 1

/-- LEDGER_BASE, INDEX_LIMIT and DONE_COLLAR of a ledger descriptor (R103). -/
def ledgerBase (d : Word) : Nat := bitsOf d 0 21
/-- INDEX_LIMIT (R103). -/
def ledgerLimit (d : Word) : Nat := bitsOf d 32 13
/-- DONE_COLLAR (R103). -/
def ledgerDone (d : Word) : Nat := bitsOf d 48 4
/-- Address of the owner table (R104). -/
def ownerBase (d : Word) : Nat := ledgerBase d + alignUp (ceilDiv (ledgerLimit d) 8) 64
/-- Bytes of a ledger (R104). -/
def ledgerBytes (d : Word) : Nat := alignUp (ceilDiv (ledgerLimit d) 8) 64 + 4 * ledgerLimit d

/-- The owner table entry of an index (R105). -/
def Core.ownerEntry (k : Core) (d : Word) (i : Nat) : Nat := leValue (memRead k.spad (ownerBase d + 4 * i) 4)
/-- The bitmap bit of an index (R104). -/
def Core.ledgerBit (k : Core) (d : Word) (i : Nat) : Bool :=
  bitAt (tabGet (0 : Byte) k.spad (ledgerBase d + i / 8)) (i % 8)
/-- An owner table entry written (R105). -/
def Core.setOwner (k : Core) (d : Word) (i v : Nat) : Core := k.store_ (ownerBase d + 4 * i) (leBytes 4 v)
/-- A bitmap bit written (R104). -/
def Core.setLedgerBit (k : Core) (d : Word) (i : Nat) (b : Bool) : Core :=
  let a := ledgerBase d + i / 8
  let old := (tabGet (0 : Byte) k.spad a).toNat
  let m := 2 ^ (i % 8)
  let cleared := if old / m % 2 = 1 then old - m else old
  k.store_ a [BitVec.ofNat 8 (if b then cleared + m else cleared)]

/-- REISSUE of an owner entry (R105). -/
def ownerReissue (e : Nat) : Bool := fieldOf e 16 1 == 1
/-- CLAIM_GEN of an owner entry (R105). -/
def ownerGen (e : Nat) : Nat := fieldOf e 24 8

/-- The reply word of a CLAIM (R107). -/
def claimReply (index claimGen gen : Nat) : Word := BitVec.ofNat 64 (index + at_ 32 claimGen + at_ 40 gen)

/-- CLAIM at the home Shepherd (R109): the reply word and the state after it. The generation has been tested. -/
def onClaim (c k core stream : Nat) (s : State) : Word × State :=
  let x := s.core c
  let col := x.collar k
  let d := col.ledger
  let lim := ledgerLimit d
  let give (i : Nat) (s : State) : Word × State :=
    let e := (s.core c).ownerEntry d i
    let e' := at_ 24 (ownerGen e) + at_ 13 (stream % 8) + core % 1024
    (claimReply i (ownerGen e) col.gen.toNat, s.modCore c (fun y => (y.setOwner d i e').setLedgerBit d i true))
  match (List.range lim).find? (fun i => ownerReissue (x.ownerEntry d i)) with
  | some i => give i s
  | none =>
    if lim ≤ col.value.toNat then (claimReply 0xFFFFFFFF 0 col.gen.toNat, s)
    else
      let i := col.value.toNat
      let s := s.modCore c (fun y => y.setCollar k { col with value := col.value + 1 })
      give i (wakeCollar c k s)

/-- COMPLETE at the home Shepherd (R109, R223): accepted, the bit clears and DONE_COLLAR is posted; otherwise a late
completion is counted. -/
def onComplete (c k core : Nat) (index : BitVec 32) (claimGen gen : BitVec 8) (s : State) : State :=
  let x := s.core c
  let col := x.collar k
  let d := col.ledger
  let i := index.toNat
  let e := x.ownerEntry d i
  if ledgerLimit d ≤ i || gen ≠ col.gen || !x.ledgerBit d i || claimGen.toNat ≠ ownerGen e || fieldOf e 0 10 ≠ core then
    s.bumpCore c 0x08 1
  else collarAdd c (ledgerDone d) 1 (s.modCore c (fun y => y.setLedgerBit d i false))

/-- The home scan of R110 on one ledgered Collar: the claimed indices of a core marked for re-issue. -/
def reissueClaims (c k core : Nat) (s : State) : State :=
  let col := (s.core c).collar k
  let d := col.ledger
  (List.range (ledgerLimit d)).foldl (fun s i =>
    let x := s.core c
    let e := x.ownerEntry d i
    if x.ledgerBit d i && fieldOf e 0 10 = core then
      let e' := at_ 24 ((ownerGen e + 1) % 256) + at_ 16 1 + e % 65536
      (s.modCore c (fun y => y.setOwner d i e')).bumpCore c 0x09 1
    else s) s

/-- Write a scalar register of a stream and clear its pending bit (R195, R202). -/
def writeReg (c stream r : Nat) (v : Word) (s : State) : State :=
  s.modCore c (fun k => k.modStream stream (fun t =>
    { (t.setReg r v) with pend := t.pend &&& ~~~(BitVec.ofNat 16 (2 ^ (r % 16))) }))

/-- A CLAIM reply reaches its stream: the register is written and the stream wakes (R88, R107). -/
def claimAnswered (c stream r : Nat) (v : Word) (s : State) : State :=
  let s := writeReg c stream r v s
  s.modCore c (fun k => k.modStream stream (fun t => if t.st = .parkedClaim && t.waitReg = r % 16 then t.noteWake else t))

end Sys2Proof.Machine
end

