-- ==== Sys2Proof/Machine/Logits.lean ====
section
/-! DEFINITION. Retriever words, slots of the logit store and the pairing of logits and commands (R228, R351-R353, R361). -/
namespace Sys2Proof.Machine

/-- CTX of a Retriever word (R351). -/
def retrCtx (w : Word) : Nat := bitsOf w 0 9
/-- SEQ of a Retriever word (R351). -/
def retrSeq (w : Word) : Nat := bitsOf w 16 16

/-- Whether a pack's Retriever serves a context: its number and a loaded image (R337, R361). -/
def State.retrServes (s : State) (p n : Nat) : Bool := n % 16 = p && ((s.ctx n).owner).isSome

/-- Contexts a Retriever serves. -/
def State.retrCtxs (s : State) (p : Nat) : List Nat := ((List.range 32).map (fun j => 16 * j + p)).filter (s.retrServes p)

/-- Slots of a Retriever's logit store (R352). -/
def State.retrSlots (s : State) (p : Nat) : Nat :=
  let v := (s.retrCtxs p).foldl (fun a n => max a (s.ctx n).vocab) 1
  min 32 (4194304 / (4 * v))

/-- The difference of two SEQ values as serial numbers, in magnitude (R353). -/
def seqDistance (a b : Nat) : Nat := (BitVec.ofNat 16 a - BitVec.ofNat 16 b).toInt.natAbs

/-- Whether a pair's logits are complete: every element 0 to V - 1 has arrived (R353). -/
def RetrPair.full (x : RetrPair) (v : Nat) : Bool := decide (v ≤ x.count)
/-- Whether a pair is complete: logits and command (R353). -/
def RetrPair.whole (x : RetrPair) (v : Nat) : Bool := x.full v && x.cmd.isSome
/-- Halves a pair holds that are not yet paired (R353; log entry 41). -/
def RetrPair.halves (x : RetrPair) : Nat := if x.slot && x.cmd.isSome then 0 else bit01 x.slot + bit01 x.cmd.isSome

/-- A pair that holds nothing yet. -/
def RetrPair.fresh (n seq : Nat) : RetrPair := { ctx := n, seq := seq, slot := false, logits := [], seen := [], count := 0, bad := false, cmd := none }

/-- Change the pair of a context and SEQ, making it if there is none. -/
def setPair (n seq : Nat) (f : RetrPair → RetrPair) (l : List RetrPair) : List RetrPair :=
  if l.any (fun x => x.ctx = n && x.seq = seq) then l.map (fun x => if x.ctx = n && x.seq = seq then f x else x)
  else l ++ [f (RetrPair.fresh n seq)]

/-- Whether the half that makes the pair of a context and SEQ what `f` gives is a steering fault: too far from a held half, or a third half
pending (R353). -/
def halfFaults (l : List RetrPair) (n seq v : Nat) (f : RetrPair → RetrPair) : Bool :=
  l.any (fun x => x.ctx = n && !x.whole v && decide (64 < seqDistance seq x.seq))
  || decide (3 ≤ (((setPair n seq f l).filter (fun x => x.ctx = n)).map RetrPair.halves).sum)

/-- A list of SEQs with one more, without those half the number space away (R228, R353). -/
def addSeq (q : Nat) (l : List Nat) : List Nat := l.filter (fun x => decide (seqDistance q x < 32768)) ++ [q]

/-- Whether the L output of a Retriever's router holds a logits packet for want of a slot (R352). -/
def logitsHeld (c : Nat) (p : Pkt) (s : State) : Bool :=
  let r := (s.pack (packOf c)).retr
  let w := nth 0 p.words 0
  let n := retrCtx w
  p.hdr.ptype = 0x07 && c = retrRouter (packOf c) && !r.stopped && s.retrServes (packOf c) n
  && !(tabGet [] r.finished n).contains (retrSeq w)
  && !(r.pairs.any (fun x => x.ctx = n && x.seq = retrSeq w && x.slot))
  && decide (s.retrSlots (packOf c) ≤ (r.pairs.filter (fun x => x.slot)).length)

/-- The context of a pack whose feedback a channel-closed packet answers: the one whose feedback Bowl, tag and period it names (R311, R358,
R361). -/
def State.feedbackOf (s : State) (p : Nat) (ws : List Word) : Option Nat :=
  let w := nth 0 ws 0
  (s.retrCtxs p).find? (fun n =>
    let k := s.ctx n
    k.fbDev = bitsOf (nth 0 ws 1) 0 16 && k.fbCore = bitsOf w 14 10 && k.fbBowl = bitsOf w 8 6 && k.fbPeriod = bitsOf w 28 4
    && k.fbTag = bitsOf w 32 12)

end Sys2Proof.Machine
end

