-- ==== Sys2Proof/Machine/Numfmt.lean ====
section
/-! DEFINITION. The eight element formats, exact values, rounding and conversion (R117-R141). -/
namespace Sys2Proof.Machine

/-- The element formats of R117, in the order of their codes. -/
inductive Fmt where
  | fp32 | bf16 | fp16 | e4m3 | e5m2 | e3m2 | e2m1 | int8
  deriving DecidableEq, Repr

/-- The format a 3-bit code names (R117). -/
def Fmt.ofCode : Nat → Fmt
  | 0 => .fp32 | 1 => .bf16 | 2 => .fp16 | 3 => .e4m3 | 4 => .e5m2 | 5 => .e3m2 | 6 => .e2m1 | _ => .int8

/-- Width in bits (R117). -/
def Fmt.width : Fmt → Nat
  | .fp32 => 32 | .bf16 => 16 | .fp16 => 16 | .e4m3 => 8 | .e5m2 => 8 | .e3m2 => 6 | .e2m1 => 4 | .int8 => 8

/-- Mantissa bits (R117). -/
def Fmt.mbits : Fmt → Nat
  | .fp32 => 23 | .bf16 => 7 | .fp16 => 10 | .e4m3 => 3 | .e5m2 => 2 | .e3m2 => 2 | .e2m1 => 1 | .int8 => 0

/-- Exponent bias (R117). -/
def Fmt.bias : Fmt → Nat
  | .fp32 => 127 | .bf16 => 127 | .fp16 => 15 | .e4m3 => 7 | .e5m2 => 15 | .e3m2 => 3 | .e2m1 => 1 | .int8 => 0

/-- Formats that encode infinities (R120). -/
def Fmt.hasInf : Fmt → Bool
  | .fp32 => true | .bf16 => true | .fp16 => true | .e5m2 => true
  | .e4m3 => false | .e3m2 => false | .e2m1 => false | .int8 => false

/-- The one NaN encoding the module writes, where the format has NaN (R120). -/
def Fmt.nanCode : Fmt → Option Nat
  | .fp32 => some 0x7FC00000 | .bf16 => some 0x7FC0 | .fp16 => some 0x7E00 | .e4m3 => some 0x7F
  | .e5m2 => some 0x7F | .e3m2 => none | .e2m1 => none | .int8 => none

/-- Largest finite magnitude as mantissa and exponent (R117). -/
def Fmt.maxFinite : Fmt → Nat × Int
  | .fp32 => (2 ^ 24 - 1, 104) | .bf16 => (255, 120) | .fp16 => (2047, 5) | .e4m3 => (14, 5)
  | .e5m2 => (7, 13) | .e3m2 => (7, 2) | .e2m1 => (3, 1) | .int8 => (127, 0)

/-- The encoding of the largest finite magnitude, sign 0 (R117). -/
def Fmt.maxCode : Fmt → Nat
  | .fp32 => 0x7F7FFFFF | .bf16 => 0x7F7F | .fp16 => 0x7BFF | .e4m3 => 0x7E | .e5m2 => 0x7B
  | .e3m2 => 0x1F | .e2m1 => 0x7 | .int8 => 0x7F

/-- Formats MX scaling supports (R124). -/
def Fmt.isMx : Fmt → Bool
  | .e4m3 => true | .e5m2 => true | .e3m2 => true | .e2m1 => true
  | .fp32 => false | .bf16 => false | .fp16 => false | .int8 => false

/-- EMAX of R130. -/
def Fmt.emax : Fmt → Int
  | .e4m3 => 8 | .e5m2 => 15 | .e3m2 => 4 | .e2m1 => 2
  | .fp32 => 127 | .bf16 => 127 | .fp16 => 15 | .int8 => 6

/-- An exact value: NaN, an infinity, or sign and magnitude `m × 2^e` (zeros keep their sign, R119). -/
inductive Num where
  | nan
  | inf (neg : Bool)
  | fin (neg : Bool) (m : Nat) (e : Int)
  deriving DecidableEq, Repr

/-- +0. -/
def Num.zero : Num := .fin false 0 0

/-- Whether the value is a NaN or an infinity. -/
def Num.special : Num → Bool
  | .nan => true
  | .inf _ => true
  | .fin _ _ _ => false

/-- Whether the value is a NaN. -/
def Num.isNan : Num → Bool
  | .nan => true
  | .inf _ => false
  | .fin _ _ _ => false

/-- The sign of a value; a NaN has none. -/
def Num.neg? : Num → Bool
  | .nan => false
  | .inf n => n
  | .fin n _ _ => n

/-- The value with its sign changed. -/
def Num.negate : Num → Num
  | .nan => .nan
  | .inf n => .inf (!n)
  | .fin n m e => .fin (!n) m e

/-- The magnitude of a value. -/
def Num.abs : Num → Num
  | .nan => .nan
  | .inf _ => .inf false
  | .fin _ m e => .fin false m e

/-- The value an encoding has (R118, R120, R121). -/
def decodeNum (f : Fmt) (c : Nat) : Num :=
  match f with
  | .int8 =>
    let v := c % 256
    if v < 128 then .fin false v 0 else .fin true (256 - v) 0
  | f =>
    let w := f.width
    let mb := f.mbits
    let eb := w - 1 - mb
    let s := fieldOf c (w - 1) 1 == 1
    let e := fieldOf c mb eb
    let m := fieldOf c 0 mb
    let top := e == 2 ^ eb - 1
    if top && f.hasInf then (if m = 0 then .inf s else .nan)
    else if top && f == .e4m3 && m == 7 then .nan
    else if e = 0 then .fin s m (1 - (f.bias : Int) - (mb : Int))
    else .fin s (2 ^ mb + m) ((e : Int) - (f.bias : Int) - (mb : Int))

/-- Rounding modes of R136. -/
inductive RMode where
  | rne | rtz | sr
  deriving DecidableEq, Repr

/-- The rounding mode of a 2-bit code; code 3 faults before it is used (R136). -/
def RMode.ofCode : Nat → RMode
  | 0 => .rne
  | 1 => .rtz
  | _ => .sr

/-- `n / d` rounded to an integer under a mode; `r` is the random value of R137. -/
def roundDiv (mode : RMode) (r n d : Nat) : Nat :=
  let t := n / d
  let rem := n % d
  match mode with
  | .rtz => t
  | .rne => if 2 * rem < d then t else if d < 2 * rem then t + 1 else if t % 2 = 1 then t + 1 else t
  | .sr => if r < rem * 65536 / d then t + 1 else t

/-- Compare magnitudes `m × 2^e` and `m' × 2^e'`. -/
def magLt (m : Nat) (e : Int) (m' : Nat) (e' : Int) : Bool :=
  if e ≤ e' then decide (m < m' * 2 ^ (e' - e).toNat) else decide (m * 2 ^ (e - e').toNat < m')

/-- `floor(log2)` of the magnitude `m × 2^e`, for `m ≠ 0`. -/
def magLog2 (m : Nat) (e : Int) : Int := (Nat.log2 m : Int) + e

/-- The magnitude `m × 2^e` rounded to a multiple of the destination spacing (R136, R137, R145):
the rounded integer and the exponent of its unit. -/
def roundMag (f : Fmt) (mode : RMode) (r : Nat) (m : Nat) (e : Int) : Nat × Int :=
  let q : Int := max (magLog2 m e - (f.mbits : Int)) (1 - (f.bias : Int) - (f.mbits : Int))
  if q ≤ e then (m * 2 ^ (e - q).toNat, q) else (roundDiv mode r m (2 ^ (q - e).toNat), q)

/-- The encoding of a rounded magnitude within the finite range (R118). -/
def encodeMag (f : Fmt) (t : Nat) (q : Int) : Nat :=
  let mb := f.mbits
  if t < 2 ^ mb then t
  else
    let p := if t = 2 ^ (mb + 1) then (2 ^ mb, q + 1) else (t, q)
    let ef := (p.2 + (mb : Int) + (f.bias : Int)).toNat
    ef * 2 ^ mb + (p.1 - 2 ^ mb)

/-- What a conversion counts: NaN written, saturation, NaN squashed (R140-R142). -/
inductive CvtEvent where
  | none | nanOut | saturated | squashed
  deriving DecidableEq, Repr

/-- Narrowing of an exact value to a floating-point format under rounding mode, random value and
overflow mode (`ieee` true is mode 1) (R139-R141). -/
def encodeNum (f : Fmt) (mode : RMode) (ieee : Bool) (r : Nat) (x : Num) : Nat × CvtEvent :=
  let sgn (n : Bool) : Nat := if n then 2 ^ (f.width - 1) else 0
  match x with
  | .nan => match f.nanCode with
    | some c => (c, .nanOut)
    | none => (0, .squashed)
  | .inf n =>
    if f.hasInf then (sgn n + (2 ^ (f.width - 1 - f.mbits) - 1) * 2 ^ f.mbits, .none)
    else (sgn n + f.maxCode, .saturated)
  | .fin n m e =>
    if m = 0 then (sgn n, .none)
    else
      let tq := roundMag f mode r m e
      if magLt f.maxFinite.1 f.maxFinite.2 tq.1 tq.2 then
        if ieee then
          (if mode == .rtz then (sgn n + f.maxCode, .none)
           else (sgn n + (2 ^ (f.width - 1 - f.mbits) - 1) * 2 ^ f.mbits, .none))
        else (sgn n + f.maxCode, .saturated)
      else (sgn n + encodeMag f tq.1 tq.2, .none)

/-- Two's complement byte of a sign and magnitude. -/
def int8Code (n : Bool) (q : Nat) : Nat := if n then (256 - q) % 256 else q

/-- Conversion of an exact value to unscaled INT8: rounded, saturated to -127..127 (R139-R141); every saturation counts,
that of an INT8 source's -128 too (log entry 36). -/
def encodeInt8 (mode : RMode) (r : Nat) (x : Num) : Nat × CvtEvent :=
  match x with
  | .nan => (0, .squashed)
  | .inf n => (int8Code n 127, .saturated)
  | .fin n m e =>
    let q := if 0 ≤ e then m * 2 ^ e.toNat else roundDiv mode r m (2 ^ (-e).toNat)
    if 127 < q then (int8Code n 127, .saturated) else (int8Code n q, .none)

/-- Conversion to any unscaled format (R139). -/
def convertNum (f : Fmt) (mode : RMode) (ieee : Bool) (r : Nat) (x : Num) : Nat × CvtEvent :=
  match f with
  | .int8 => encodeInt8 mode r x
  | f => encodeNum f mode ieee r x

/-- Rounding to FP32 by round-to-nearest-even with IEEE overflow (R133, R135). -/
def toF32 (x : Num) : Num := decodeNum .fp32 (encodeNum .fp32 .rne true 0 x).1

/-- The FP32 encoding of a value that FP32 holds. -/
def f32Bits (x : Num) : Nat := (encodeNum .fp32 .rne true 0 x).1

/-- Signed magnitude at exponent `e'` not above the value's own. -/
def finAt (n : Bool) (m : Nat) (e e' : Int) : Int :=
  let v : Int := (m * 2 ^ (e - e').toNat : Nat)
  if n then -v else v

/-- Exact sum; a zero sum has the sign IEEE 754 gives under round-to-nearest-even (R119, R133). -/
def addExact (x y : Num) : Num :=
  match x, y with
  | .nan, _ => .nan
  | _, .nan => .nan
  | .inf a, .inf b => if a == b then .inf a else .nan
  | .inf a, .fin _ _ _ => .inf a
  | .fin _ _ _, .inf b => .inf b
  | .fin n m e, .fin n' m' e' =>
    let q := min e e'
    let s := finAt n m e q + finAt n' m' e' q
    if s = 0 then .fin (n && n') 0 0
    else .fin (decide (s < 0)) s.natAbs q

/-- Exact product; ∞ × 0 is NaN (IEEE 754). -/
def mulExact (x y : Num) : Num :=
  match x, y with
  | .nan, _ => .nan
  | _, .nan => .nan
  | .inf a, .inf b => .inf (a != b)
  | .inf a, .fin n m _ => if m = 0 then .nan else .inf (a != n)
  | .fin n m _, .inf b => if m = 0 then .nan else .inf (n != b)
  | .fin n m e, .fin n' m' e' => .fin (n != n') (m * m') (e + e')

/-- FP32 addition, subtraction and multiplication (R135). -/
def addF32 (x y : Num) : Num := toF32 (addExact x y)
/-- FP32 subtraction (R135). -/
def subF32 (x y : Num) : Num := toF32 (addExact x y.negate)
/-- FP32 multiplication (R135). -/
def mulF32 (x y : Num) : Num := toF32 (mulExact x y)
/-- FP32 fused multiply-add, one rounding (R135). -/
def fmaF32 (x y z : Num) : Num := toF32 (addExact (mulExact x y) z)

/-- Order of two values that are not NaN; zeros are equal (R173). -/
def numLt (x y : Num) : Bool :=
  match x, y with
  | .nan, _ => false
  | _, .nan => false
  | .inf a, .inf b => a && !b
  | .inf a, .fin _ _ _ => a
  | .fin _ _ _, .inf b => !b
  | .fin n m e, .fin n' m' e' =>
    let q := min e e'
    decide (finAt n m e q < finAt n' m' e' q)

/-- Equality of two values that are not NaN; -0 equals +0 (R173). -/
def numEq (x y : Num) : Bool :=
  !x.isNan && !y.isNan && !numLt x y && !numLt y x

/-- Strict order with -0 below +0 (R173, R174). -/
def numLtZ (x y : Num) : Bool := numLt x y || (numEq x y && x.neg? && !y.neg?)

/-- MIN of R173. -/
def minNum (x y : Num) : Num :=
  if x.isNan || y.isNan then .nan else if numLtZ y x then y else x

/-- MAX of R173. -/
def maxNum (x y : Num) : Num :=
  if x.isNan || y.isNan then .nan else if numLtZ x y then y else x

/-- `x × 2^k`, exact. -/
def scaleNum (x : Num) (k : Int) : Num :=
  match x with
  | .nan => .nan
  | .inf n => .inf n
  | .fin n m e => .fin n m (e + k)

/-- The value an E8M0 scale byte gives an element: 0xFF makes it NaN (R125, R127). -/
def applyMx (s : Nat) (x : Num) : Num := if s = 0xFF then .nan else scaleNum x ((s : Int) - 127)

/-- Element `i` of a packed array, from its bytes' little-endian value (R123). -/
def packedElem (w v i : Nat) : Nat := fieldOf v (w * i) w

/-- Elements packed as one little-endian number (R123). -/
def packElems (w : Nat) : List Nat → Nat
  | [] => 0
  | a :: t => a % 2 ^ w + 2 ^ w * packElems w t

/-- Bytes an array of `n` elements of width `w` takes (R123). -/
def packedBytes (w n : Nat) : Nat := ceilDiv (w * n) 8

/-- The result of quantising one MX block: scale byte, elements, NaN values counted (R130). -/
structure MxBlock where
  scale : Nat
  elems : List Nat
  nans : Nat
  deriving DecidableEq, Repr

/-- MX quantisation of one block of FP32 values; `rs` gives the random value of each element (R130). -/
def mxQuantise (f : Fmt) (mode : RMode) (rs : Nat → Nat) (xs : List Num) : MxBlock :=
  if xs.any Num.special then ⟨0xFF, xs.map (fun _ => 0), 32⟩
  else
    let m := xs.foldl (fun a x => if numLt a x.abs then x.abs else a) Num.zero
    match m with
    | .fin _ mm me =>
      if mm = 0 then ⟨0x7F, xs.map (fun x => if x.neg? then 2 ^ (f.width - 1) else 0), 0⟩
      else
        let e : Int := max (magLog2 mm me - f.emax) (-127)
        ⟨(e + 127).toNat, xs.mapIdx (fun i x => (encodeNum f mode false (rs i) (scaleNum x (-e))).1), 0⟩
    | .nan => ⟨0xFF, xs.map (fun _ => 0), 32⟩
    | .inf _ => ⟨0xFF, xs.map (fun _ => 0), 32⟩

/-- The result of quantising one row to INT8 with per-row scale: FP32 scale code, bytes, NaN count, and elements clamped to ±127 (R131, R142). -/
structure RowQuant where
  scale : Nat
  elems : List Nat
  nans : Nat
  sats : Nat
  deriving DecidableEq, Repr

/-- FP32 rounding, by round-to-nearest-even, of the quotient of a magnitude and a positive number. -/
def divF32 (m : Nat) (e : Int) (d : Nat) : Num :=
  -- enough low bits that one sticky bit decides every rounding
  let k : Nat := 64 + Nat.log2 d
  let n := m * 2 ^ k
  let t := n / d
  let sticky := if n % d = 0 then 0 else 1
  toF32 (.fin false (2 * t + sticky) (e - (k : Int) - 1))

/-- Magnitude `m × 2^e` divided by `sm × 2^se`, as a fraction of numbers. -/
def magFrac (m : Nat) (e : Int) (sm : Nat) (se : Int) : Nat × Nat :=
  if se ≤ e then (m * 2 ^ (e - se).toNat, sm) else (m, sm * 2 ^ (se - e).toNat)

/-- Per-row INT8 quantisation of one row of FP32 values (R131). -/
def rowQuantise (mode : RMode) (rs : Nat → Nat) (xs : List Num) : RowQuant :=
  if xs.any Num.special then ⟨0x7FC00000, xs.map (fun _ => 0), 1, 0⟩
  else
    let m := xs.foldl (fun a x => if numLt a x.abs then x.abs else a) Num.zero
    match m with
    | .fin _ mm me =>
      if mm = 0 then ⟨0, xs.map (fun _ => 0), 0, 0⟩
      else
        let s0 := divF32 mm me 127
        let s := match s0 with
          | .fin _ sm se => if sm = 0 then (1, (-149 : Int)) else (sm, se)
          | .nan => (1, (-149 : Int))
          | .inf _ => (1, (-149 : Int))
        let q := xs.mapIdx (fun i x =>
          match x with
          | .fin n xm xe =>
            let fr := magFrac xm xe s.1 s.2
            let k := roundDiv mode (rs i) fr.1 fr.2
            (int8Code n (min 127 k), decide (127 < k))
          | .nan => (0, false)
          | .inf _ => (0, false))
        ⟨f32Bits (.fin false s.1 s.2), q.map Prod.fst, 0, (q.filter Prod.snd).length⟩
    | .nan => ⟨0x7FC00000, xs.map (fun _ => 0), 1, 0⟩
    | .inf _ => ⟨0x7FC00000, xs.map (fun _ => 0), 1, 0⟩

/-- Integer square root by bits from the top (fuel: bits). -/
def isqrtAux : Nat → Nat → Nat → Nat
  | 0, _, acc => acc
  | k + 1, n, acc =>
    let c := acc + 2 ^ k
    isqrtAux k n (if c * c ≤ n then c else acc)

/-- Integer square root. -/
def isqrt (n : Nat) : Nat := isqrtAux (Nat.log2 n / 2 + 1) n 0

/-- Square root, correctly rounded to FP32 (R177 code 13, R178). -/
def sqrtF32 (x : Num) : Num :=
  match x with
  | .nan => .nan
  | .inf n => if n then .nan else .inf false
  | .fin n m e =>
    if m = 0 then .fin n 0 0
    else if n then .nan
    else
      let odd := e % 2 ≠ 0
      let m' := (if odd then 2 * m else m) * 2 ^ 120
      let e' := ((if odd then e - 1 else e) - 120) / 2
      let t := isqrt m'
      let sticky := if t * t = m' then 0 else 1
      toF32 (.fin false (2 * t + sticky) (e' - 1))

/-- Two's complement value of 32 bits. -/
def int32Val (v : Nat) : Int := (BitVec.ofNat 32 v).toInt

/-- An integer as an exact value. -/
def numOfInt (i : Int) : Num := .fin (decide (i < 0)) i.natAbs 0

/-- The quotient of two FP32 values with one rounding; the divisor is a finite value above 0 (R354, R592). -/
def divNum (x y : Num) : Num :=
  match x, y with
  | .nan, _ => .nan
  | .inf n, _ => .inf n
  | .fin n m e, .fin _ d f =>
    if m = 0 || d = 0 then .fin n 0 0
    else
      let sh := Nat.log2 d + 64
      let q := m * 2 ^ sh / d
      toF32 (.fin n (2 * q + bit01 (decide (m * 2 ^ sh % d ≠ 0))) (e - f - (sh : Int) - 1))
  | .fin n _ _, .inf _ => .fin n 0 0
  | .fin _ _ _, .nan => .nan

end Sys2Proof.Machine
end

