-- ==== Sys2Proof/Machine/Mesh.lean ====
section
/-! DEFINITION. Packets, routes, paths, Leash tables, merges, and the Bowl judgement (R261-R317). -/
namespace Sys2Proof.Machine

/-- The 256 bits of a header as a number (R270). -/
def Hdr.encode (h : Hdr) : Nat :=
  at_ 245 (h.nw % 32) + at_ 244 (bit01 h.note) + at_ 224 (h.doff % 2 ^ 15) + at_ 192 (h.rowMask % 2 ^ 32)
  + at_ 160 (h.colMask % 2 ^ 32) + at_ 128 (h.epoch % 2 ^ 32) + at_ 124 (h.period % 16) + at_ 112 (h.tag % 4096)
  + at_ 104 (h.gen % 256) + at_ 80 (h.srcDev % 65536) + at_ 74 (h.srcStream % 8) + at_ 64 (h.srcCore % 1024)
  + at_ 48 (h.dstDev % 65536) + at_ 42 (h.dstBowl % 64) + at_ 32 (h.dstCore % 1024) + at_ 24 (h.rid % 256)
  + at_ 16 (h.len % 128) + at_ 12 (bit01 h.rfmt) + at_ 11 (bit01 h.reduce) + at_ 10 (bit01 h.mcast)
  + at_ 9 (bit01 h.long) + at_ 8 (bit01 h.service) + h.ptype % 256

/-- The header fields of 256 bits (R270). -/
def Hdr.decode (w : Nat) : Hdr :=
  { nw := fieldOf w 245 5, note := fieldOf w 244 1 == 1, doff := fieldOf w 224 15, rowMask := fieldOf w 192 32,
    colMask := fieldOf w 160 32, epoch := fieldOf w 128 32, period := fieldOf w 124 4, tag := fieldOf w 112 12,
    gen := fieldOf w 104 8, srcDev := fieldOf w 80 16, srcStream := fieldOf w 74 3, srcCore := fieldOf w 64 10,
    dstDev := fieldOf w 48 16, dstBowl := fieldOf w 42 6, dstCore := fieldOf w 32 10, rid := fieldOf w 24 8,
    len := fieldOf w 16 7, rfmt := fieldOf w 12 1 == 1, reduce := fieldOf w 11 1 == 1, mcast := fieldOf w 10 1 == 1,
    long := fieldOf w 9 1 == 1, service := fieldOf w 8 1 == 1, ptype := fieldOf w 0 8 }

/-- Bytes of tuple words. -/
def wordBytes (l : List Word) : List Byte := l.flatMap (fun w => leBytes 8 w.toNat)
/-- Words of bytes, 8 bytes each. -/
def bytesWords (l : List Byte) : List Word := (chunks 8 l).map (fun c => BitVec.ofNat 64 (leValue c))

/-- The flits of a packet as bytes: the header flit, then the payload flits (R269). Tuples of 5-16 words travel in
the payload; shorter ones and notes in the header flit. -/
def Pkt.flits (p : Pkt) : List (List Byte) :=
  let inHead := p.hdr.len = 0 || p.payload.length ≠ 0
  let head := fitTo 0 256 (leBytes 32 p.hdr.encode ++ (if inHead then wordBytes (p.words.take 4) else []))
  let body := if p.hdr.len = 0 then [] else if p.payload.length ≠ 0 then p.payload else wordBytes p.words
  head :: (if p.hdr.len = 0 then [] else chunks 256 (fitTo 0 (256 * p.hdr.len) body))

/-- The packet types of R271 whose long form carries a payload rather than a tuple. -/
def isBlock (ptype : Nat) : Bool := ptype = 0x01 || ptype = 0x04 || ptype = 0x07 || ptype = 0x09 || ptype = 0x0A

/-- A packet rebuilt from its flits (R269, R270). -/
def Pkt.ofFlits (exit : Bool) (l : List (List Byte)) : Pkt :=
  let head := l.headD []
  let h := Hdr.decode (leValue (head.take 32))
  let body := (l.drop 1).flatten
  let nHead := if h.ptype = 0x01 then (if h.note then 1 else 0) else if h.ptype = 0x07 then 1
    else if h.ptype = 0x09 || h.ptype = 0x0A || h.ptype = 0x05 || h.ptype = 0x06 then 2 else if h.ptype = 0x08 then 1 else h.nw
  if isBlock h.ptype || h.len = 0 then
    { hdr := h, words := bytesWords ((head.drop 32).take (8 * min nHead 4)), payload := body, exit := exit, origin := 0 }
  else { hdr := h, words := bytesWords (body.take (8 * h.nw)), payload := [], exit := exit, origin := 0 }

/-- Flits of a packet: LEN + 1 (R269). -/
def Pkt.size (p : Pkt) : Nat := p.hdr.len + 1

/-- Fetch packets, told by PTYPE (R271). -/
def Pkt.isFetch (p : Pkt) : Bool := p.hdr.ptype = 0x09 || p.hdr.ptype = 0x0A
/-- Packets that travel in open slots: service class, and channel closed (R271). -/
def Pkt.isSvc (p : Pkt) : Bool := p.hdr.service || p.hdr.ptype = 0x0B

/-- KIND of a route (R274). -/
def rKind (r : BitVec 256) : Nat := bitsOf r 0 4
/-- MCAST of a route. -/
def rMcast (r : BitVec 256) : Bool := bitAt r 4
/-- REDUCE of a route. -/
def rReduce (r : BitVec 256) : Bool := bitAt r 5
/-- RFMT of a route. -/
def rRfmt (r : BitVec 256) : Bool := bitAt r 6
/-- RID of a route. -/
def rRid (r : BitVec 256) : Nat := bitsOf r 8 8
/-- DST_DEV of a route. -/
def rDev (r : BitVec 256) : Nat := bitsOf r 16 16
/-- DST_CORE of a route. -/
def rCore (r : BitVec 256) : Nat := bitsOf r 32 10
/-- DST_BOWL of a route, or the Collar in its low four bits. -/
def rBowl (r : BitVec 256) : Nat := bitsOf r 42 6
/-- GEN of a route. -/
def rGen (r : BitVec 256) : Nat := bitsOf r 48 8
/-- COLMASK of a route. -/
def rCols (r : BitVec 256) : Nat := bitsOf r 64 32
/-- ROWMASK of a route. -/
def rRows (r : BitVec 256) : Nat := bitsOf r 96 32
/-- TAG_BASE of a route. -/
def rTag (r : BitVec 256) : Nat := bitsOf r 128 12
/-- USES of a route. -/
def rUses (r : BitVec 256) : Nat := bitsOf r 140 13
/-- WIN64 of a route. -/
def rWin (r : BitVec 256) : Nat := bitsOf r 160 15
/-- EXIT of a route. -/
def rExit (r : BitVec 256) : Bool := bitAt r 175

/-- KIND of a Leash entry: 0 scheduled, 1 merge, 2 open slot, 3 fetch lane (R277). -/
def eKind (w : Word) : Nat := bitsOf w 61 3
/-- Whether INSET holds an input (R277). -/
def eHas (w : Word) (d : Dir) : Bool := bitAt w (56 + d.code)
/-- FLITS of an entry. -/
def eFlits (w : Word) : Nat := bitsOf w 48 7
/-- TAG of an entry. -/
def eTag (w : Word) : Nat := bitsOf w 36 12
/-- OFFSET of an entry. -/
def eOffset (w : Word) : Nat := bitsOf w 0 24

/-- The entry at an index of a table (R277). -/
def LeashTable.entry (t : LeashTable) (j : Nat) : Word := tabGet 0 t.words j

/-- The output directions a packet takes from a router (R265, R266, R284). `dev` is the own device. -/
def outDirs (dev c : Nat) (inp : Dir) (p : Pkt) : List Dir :=
  let h := p.hdr
  let col := colOf c
  let row := rowOf c
  if h.dstDev ≠ dev then [if p.exit then .e else .w]
  else if h.mcast then
    let colsE := h.colMask >>> (col + 1) ≠ 0
    let colsW := h.colMask % 2 ^ col ≠ 0
    let here := fieldOf h.colMask col 1 == 1
    let rowsN := h.rowMask % 2 ^ row ≠ 0
    let rowsS := h.rowMask >>> (row + 1) ≠ 0
    let isL := fieldOf h.rowMask row 1 == 1
    let trunk := inp = .l || inp = .e || inp = .w
    Dir.all.filter (fun d => match d with
      | .e => (inp = .l || inp = .w) && colsE
      | .w => (inp = .l || inp = .e) && colsW
      | .n => ((trunk && here) || inp = .s) && rowsN
      | .s => ((trunk && here) || inp = .n) && rowsS
      | .l => ((trunk && here) || inp = .n || inp = .s) && isL)
  else
    let dc := colOf h.dstCore
    let dr := rowOf h.dstCore
    if dc > col then [.e] else if dc < col then [.w]
    else if dr < row then [.n] else if dr > row then [.s]
    else if h.ptype = 0x09 then [if row = 0 then .n else .s]
    else [.l]

/-- The next `n` entries of an output from its head, across period and step boundaries: index, period and word (R281).
Before a program's first launch the look-ahead runs into the shadow table (R283, log entry 12). -/
def lookAhead (o : Output) (n : Nat) : List (Nat × Nat × Word) :=
  let t := if o.table.idle then (o.shadow.getD o.table) else o.table
  let h := if o.table.idle then 0 else o.head
  let p := if o.table.idle then 0 else o.period
  if t.entries = 0 || t.idle then []
  else (List.range n).map (fun i =>
    let q := h + i
    let j := q % t.entries
    (j, (p + q / t.entries) % (max t.periods 1), t.entry j))

/-- Whether an entry of a look-ahead is the one a header waits for (R281). -/
def entryMatches (inp : Dir) (h : Hdr) (e : Nat × Nat × Word) : Bool :=
  (eKind e.2.2 = 0 || eKind e.2.2 = 1) && eHas e.2.2 inp && eTag e.2.2 = h.tag && e.2.1 % 16 = h.period

/-- Whether an output has a matching entry for a header within the look-ahead (R281). -/
def hasMatch (o : Output) (inp : Dir) (h : Hdr) : Bool :=
  (lookAhead o 64).any (entryMatches inp h)

/-- Whether the head entry of an output is the one a header waits for (R281). -/
def headMatches (o : Output) (inp : Dir) (h : Hdr) : Bool :=
  let w := o.table.entry o.head
  o.running && !o.table.idle && (eKind w = 0 || eKind w = 1) && eHas w inp && eTag w = h.tag && o.period % 16 = h.period

/-- The nominal beat of an output's head entry (R278). -/
def Output.nominal (o : Output) : Time :=
  o.launchAt + BitVec.ofNat 64 (o.period * o.table.beats + eOffset (o.table.entry o.head))

/-- The head moves to the next entry, which reaches the head at `at_`, when the last flit before it has left; after the last entry of the
last period the output waits for the next launch (R53, R278). -/
def Output.advance (o : Output) (at_ : Time) : Output :=
  let o := { o with headSince := at_, slipped := false }
  if o.head + 1 < o.table.entries then { o with head := o.head + 1 }
  else if o.period + 1 < o.table.periods then { o with head := 0, period := o.period + 1 }
  else { o with head := 0, period := 0, running := false }

/-- The table's last step has completed at every output of the router (R43, R283). -/
def Core.tablesDone (k : Core) : Bool := Dir.all.all (fun d => (k.output d).table.idle || !(k.output d).running)

/-- The router holds no scheduled or fetch flit and nothing is on a link into it (R283). -/
def Core.routerEmpty (k : Core) : Bool :=
  Dir.all.all (fun d =>
    let i := k.input d
    i.sched.isEmpty && i.fetch.isEmpty && i.held.isEmpty && i.link.all Pkt.isSvc && (k.output d).fetchQ.isEmpty)

/-- The neighbour router an output leads to, with its input; none at the grid edge and at L (R261). -/
def neighbourOf (c : Nat) (d : Dir) : Option (Nat × Dir) :=
  match d with
  | .n => if rowOf c = 0 then none else some (c - 32, .s)
  | .s => if rowOf c = 31 then none else some (c + 32, .n)
  | .e => if colOf c = 31 then none else some (c + 1, .w)
  | .w => if colOf c = 0 then none else some (c - 1, .e)
  | .l => none

/-- The stack an edge output leads to (R25, R261). -/
def edgeStack (c : Nat) (d : Dir) : Option (Nat × Nat) :=
  match d with
  | .n => if rowOf c = 0 then some (colOf c / 8, colOf c % 8) else none
  | .s => if rowOf c = 31 then some (4 + colOf c / 8, colOf c % 8) else none
  | .e => none
  | .w => none
  | .l => none

/-- The fetch column of a core for a stack (R266). -/
def fetchCol (c stack : Nat) : Nat :=
  let q := stack % 4
  if colOf c / 8 = q then colOf c else if colOf c < 8 * q then 8 * q else 8 * q + 7

/-- The edge router that carries a core's requests to a stack (R266). -/
def fetchRouter (c stack : Nat) : Nat := coreAt (fetchCol c stack) (if stack < 4 then 0 else 31)

/-- Flits in an input's scheduled buffer and on the link toward it. -/
def Input.flitsHeld (i : Input) : Nat :=
  (i.sched.map (fun a => a.pkt.size)).sum + (i.held.map Pkt.size).sum + ((i.link.filter (fun p => !p.isFetch && !p.isSvc)).map Pkt.size).sum

/-- Whether an input's buffer for a packet's class has room for its first flit; a packet moves as a whole (R263; log entry 74). -/
def Input.accepts (i : Input) (p : Pkt) : Bool :=
  if p.isFetch then decide (i.fetch.length + (i.link.filter Pkt.isFetch).length < 2)
  else if p.isSvc then decide (i.svc.length + (i.link.filter Pkt.isSvc).length < 2)
  else decide (i.flitsHeld < 32)

/-- CONFIGURED of a Bowl (R296). -/
def bConf (b : Bowl) : Bool := bitAt b.cfg 0
/-- CLASS of a Bowl: true for service. -/
def bSvc (b : Bowl) : Bool := bitAt b.cfg 1
/-- READER of a Bowl. -/
def bReader (b : Bowl) : Nat := bitsOf b.cfg 10 3
/-- RET of a Bowl. -/
def bRet (b : Bowl) : Bool := bitAt b.cfg 16
/-- Entries of a Bowl: 2^DEPTH. -/
def bDepth (b : Bowl) : Nat := 2 ^ bitsOf b.cfg 20 4
/-- GEN of a Bowl. -/
def bGen (b : Bowl) : Nat := bitsOf b.cfg 32 8
/-- Ring base of a Bowl in bytes. -/
def bBase (b : Bowl) : Nat := 64 * bitsOf b.cfg 47 15
/-- Receive window base in bytes. -/
def bWinBase (b : Bowl) : Nat := 64 * bitsOf b.cfg 62 15
/-- Receive window size in units of 64 B. -/
def bWin (b : Bowl) : Nat := bitsOf b.cfg 77 15

/-- What the router decides on a packet bound for a Bowl (R304). -/
inductive Judgement where
  | write | hold | discard | refuse (reason : Nat)
  deriving DecidableEq, Repr

/-- Entries a packet needs in its Bowl (R299, R304). -/
def bowlNeed (h : Hdr) : Nat :=
  if h.ptype = 0x01 || h.ptype = 0x04 then (if h.note then 1 else 0) else (h.nw + 3) / 4

/-- A Bowl as the router sees it: in the beat a TAKE completes, with the RP of before (R303). -/
def Bowl.atRouter (b : Bowl) (now : Nat) : Bowl := if b.rpAt = now + 1 then { b with rp := b.rpOld } else b

/-- The judgement of R304. The free-space test uses the write pointer that includes tuples written and not yet published. -/
def judge (b : Bowl) (h : Hdr) : Judgement :=
  if h.gen ≠ bGen b then .discard
  else if !bConf b || !b.isOpen then .refuse 0x01
  else if h.service ≠ bSvc b then .refuse 0x03
  else if (h.ptype = 0x01 || h.ptype = 0x04) && decide (bWin b * 64 < h.doff * 64 + 256 * h.len) then .refuse 0x04
  else
    let k := bowlNeed h
    if k = 0 then .write
    else
      let depth := bDepth b
      let pos := b.wpNext.toNat % depth
      let room := depth - pos
      let need := if k ≤ room then k else room + k
      let used := (b.wpNext - b.rp).toNat
      if depth - used < need then (if bSvc b then .refuse 0x02 else .hold) else .write

/-- Packets bound for a Bowl (R304): data and service tuples and blocks. -/
def Pkt.forBowl (p : Pkt) : Bool := p.hdr.ptype = 0x01 || p.hdr.ptype = 0x02 || p.hdr.ptype = 0x03 || p.hdr.ptype = 0x04

/-- The own device's coordinates as programs see them (R406, R433). -/
def State.device (s : State) : Nat := s.job.coord.toNat

/-- Whether a packet at an L output is of another job epoch than its core, which discards it (R304, R403). -/
def wrongEpoch (c : Nat) (p : Pkt) (s : State) : Bool := !p.isFetch && p.hdr.epoch ≠ s.epochOf c && p.origin = 0

/-- The judgement of a packet at a core's L output: the epoch check comes first (R303, R304). -/
def judgeAt (c : Nat) (p : Pkt) (s : State) : Judgement := judge (((s.core c).bowl p.hdr.dstBowl).atRouter s.clock) p.hdr

/-- Whether the L output holds a packet for a full Bowl (R304, R306). -/
def bowlHolds (c : Nat) (p : Pkt) (s : State) : Bool := p.forBowl && !wrongEpoch c p s && judgeAt c p s = .hold

/-- Whether a service packet waits for the end of a vet slice: at the L output of the slice's core (R444), and at every output that leads to the
router of a core while one of slices 56-63 tests it (R442). -/
def sliceHolds (c : Nat) (atL : Bool) (p : Pkt) (s : State) : Bool :=
  p.isSvc && (s.core c).vetting &&
    (atL || (match (tabGet VetPack.reset s.vet.packs (packOf c)).active with | some a => decide (56 ≤ a.slice) | none => false))

/-- Whether the L output's core side accepts a packet: the last one handed over has been dealt with, and no full Bowl, want of a logit
slot or vet slice holds it (R51, R306, R352, R444). -/
def coreAccepts (c : Nat) (p : Pkt) (s : State) : Bool :=
  (s.core c).lq.isEmpty && !bowlHolds c p s && !logitsHeld c p s && !sliceHolds c true p s

/-- The departure port of a packet by R391 and R397 in the torus of the job's extent. -/
def torusDir (ext own dst : Nat) : Option Nat :=
  let dim (lo w : Nat) (neg pos : Nat) : Option Nat :=
    let e := fieldOf ext lo w + 1
    let a := fieldOf own lo w
    let b := fieldOf dst lo w
    if a = b then none
    else
      let fwd := (b + e - a) % e
      if 2 * fwd ≤ e then some pos else some neg
  match dim 0 6 0 3 with
  | some d => some d
  | none => match dim 6 6 1 4 with
    | some d => some d
    | none => dim 12 4 2 5

/-- The port a packet for another device leaves by: entry r mod k of its direction's list (R391). -/
def departPort (p : Pkt) (s : State) : Option Nat :=
  match torusDir s.job.extent.toNat s.job.coord.toNat p.hdr.dstDev with
  | none => none
  | some d =>
    let l := tabGet [] s.job.lists d
    if l.isEmpty then none else some (nth 0 l (rowOf p.hdr.dstCore % l.length))

/-- Whether a service packet is between rings only: a multicast that names no core, by which the model tells mirror traffic (log entry 28). -/
def Hdr.toRing (h : Hdr) : Bool := h.mcast && h.colMask = 0 && h.rowMask = 0
/-- A mirror request: a service tuple or block between rings (R271, R395, R430). -/
def Hdr.isMirrorReq (h : Hdr) : Bool := (h.ptype = 0x03 || h.ptype = 0x04) && h.toRing
/-- A mirror answer: a service answer between rings (R271, R395, R430). -/
def Hdr.isMirrorAns (h : Hdr) : Bool := h.ptype = 0x0D && h.toRing

/-- Class of a fabric packet: 2 requests, 4 replies, 6 collectives (R395). -/
def vcBase (p : Pkt) : Nat :=
  if p.hdr.ptype = 0x03 || p.hdr.ptype = 0x04 then 2
  else if p.hdr.ptype = 0x0B || p.hdr.ptype = 0x0C || p.hdr.ptype = 0x0D then 4 else 6

/-- Whether a packet has more flits than its channel's receive buffer (R395). -/
def Pkt.outsize (p : Pkt) : Bool := decide (tabGet 0 vcBuffers (vcBase p) < p.size)

/-- Return the credits of an arrival (R395, R399). -/
def owePkt (r : RingPkt) (s : State) : State :=
  if r.pkt.outsize then s
  else s.modPort r.fromPort (fun p => { p with owed := tabMod 0 p.owed (vcBase r.pkt + bit01 r.cls1) (· + r.pkt.size) })

/-- Whether the ring takes a packet that leaves the mesh at an edge column: a collective advances only against a credit of
its channel at the departure port (R398). -/
def ringAccepts (p : Pkt) (s : State) : Bool :=
  if p.isSvc then true
  else match departPort p s with
    | none => false
    | some f =>
      let q := s.port f
      decide ((tabGet [] q.vcs 6).length + (tabGet [] q.vcs 7).length < tabGet 0 q.credits 6 + tabGet 0 q.credits 7)

/-- The seam lies between columns 15 and 16; a program stopped by a seam-rate fault passes no data flits there (R64, R67). -/
def seamStops (c : Nat) (d : Dir) (p : Pkt) (s : State) : Bool :=
  ((colOf c = 15 && d = .e) || (colOf c = 16 && d = .w)) && !p.isSvc && !p.isFetch &&
  (match s.progOf (packOf c) with | some g => (s.prog g).seamHalt | none => false)

/-- Whether the downstream side of an output accepts a packet (R51, R263, R289, R290, R442, R444). -/
def downAccepts (c : Nat) (d : Dir) (p : Pkt) (s : State) : Bool :=
  if seamStops c d p s then false
  else match neighbourOf c d with
    | some (n, i) => ((s.core n).input i).accepts p && !sliceHolds n false p s
    | none => match d with
      | .l => coreAccepts c p s
      | .n => p.isFetch
      | .s => p.isFetch
      | .e => ringAccepts p s
      | .w => ringAccepts p s

/-- Hand a packet to what an output leads to (R261, R268, R289, R290). A packet of another epoch is discarded at an
L output and counted (R403). -/
def handOver (c : Nat) (d : Dir) (p : Pkt) (s : State) : State :=
  match neighbourOf c d with
  | some (n, i) => s.modCore n (fun k =>
      let x := k.input i
      k.setInput i { x with link := x.link ++ [p] })
  | none => match d with
    | .l =>
      if wrongEpoch c p s then s.bump 0x501A 1 1 else s.modCore c (fun k => { k with lq := k.lq ++ [p] })
    | .n => match edgeStack c .n with
      | some (st, src) => s.modStack st (fun k => { k with waiting := k.waiting ++ [{ pkt := p, source := src }] })
      | none => s
    | .s => match edgeStack c .s with
      | some (st, src) => s.modStack st (fun k => { k with waiting := k.waiting ++ [{ pkt := p, source := src }] })
      | none => s
    | .e => ringTakes c p s
    | .w => ringTakes c p s
where
  /-- The ring takes a packet from an edge router (R290, R398, R400). -/
  ringTakes (_c : Nat) (p : Pkt) (s : State) : State :=
    let r : RingPkt := { pkt := p, since := s.howl, fromPort := 18, cls1 := false }
    if p.hdr.ptype = 0x0B then
      (if s.ring.closed.length < 64 then { s with ring := { s.ring with closed := s.ring.closed ++ [r] } } else s.bump 0x501A 6 1)
    else if p.hdr.ptype = 0x0C || p.hdr.ptype = 0x0D then { s with ring := { s.ring with replies := s.ring.replies ++ [r] } }
    else if p.isSvc then { s with ring := { s.ring with requests := s.ring.requests ++ [r] } }
    else { s with ring := { s.ring with collectives := s.ring.collectives ++ [r] } }

/-- Beats between the flits an output's link starts: 4 on a seam link between packs at different commanded steps (R64), otherwise 1 (R35). -/
def flitBeats (c : Nat) (d : Dir) (s : State) : Nat :=
  match neighbourOf c d with
  | some (n, _) => if colOf c / 16 ≠ colOf n / 16 && (s.pack (packOf c)).freq ≠ (s.pack (packOf n)).freq then 4 else 1
  | none => 1

/-- Progress and statistics of flits sent on an output (R294). -/
def countFlits (c : Nat) (d : Dir) (n : Nat) (s : State) : State := s.advanceCore c (0x65 + d.code) n

/-- `n` flits leave an output: its link is free again when the last has left (R35, R64). -/
def useLink (c : Nat) (d : Dir) (n : Nat) (s : State) : State :=
  s.modCore c (fun k => k.setOutput d { k.output d with freeAt := max (k.output d).freeAt s.clock + n * flitBeats c d s })

/-- Put a packet made at a core into its router's L input: fetch and service buffers, or the scheduled buffer with
the steering check of R281. A header that matches no entry raises 0x80, and the router holds it (R292). -/
def enterL (c : Nat) (p : Pkt) (s : State) : State :=
  let k := s.core c
  let i := k.input .l
  let a : Arrived := { pkt := p, at_ := s.howl, gap := 1 }
  if p.isFetch then s.setCore c (k.setInput .l { i with fetch := i.fetch ++ [a] })
  else if p.isSvc then s.setCore c (k.setInput .l { i with svc := i.svc ++ [a] })
  else
    let ds := outDirs s.device c .l p
    match ds.find? (fun d => !hasMatch (k.output d) .l p.hdr) with
    | none => s.setCore c (k.setInput .l { i with sched := i.sched ++ [a] })
    | some d =>
      let s := s.setCore c (k.setInput .l { i with held := i.held ++ [p] })
      meshFault 0x80 [packOf c] c (meshFaultWord 0x80 p.hdr.period p.hdr.tag d.code (k.output d).head c) s

/-- Whether the L input has room for a packet of its class (R263). -/
def lAccepts (c : Nat) (p : Pkt) (s : State) : Bool := ((s.core c).input .l).accepts p

/-- A service multicast, which its source answers for (R286). -/
def Pkt.isSvcMcast (p : Pkt) : Bool := p.hdr.service && p.hdr.mcast

/-- Whether a packet of the mesh port can enter the router: it waits for no Leash entry, no mesh fault holds it, its class has room, and a
service multicast finds fewer than 4 awaiting answers (R203, R263, R286, R292). -/
def Core.canEnter (k : Core) (o : MeshOp) : Bool :=
  o.src.isNone && !o.held && (k.input .l).accepts o.pkt && (!o.pkt.isSvcMcast || decide (k.mcasts.length < 4))

/-- A packet of the mesh port leaves it; a service multicast awaits its answers from now on (R286). -/
def Core.leavePort (k : Core) (o : MeshOp) : Core :=
  { k with
    mesh := k.mesh.filter (fun x => x.seq ≠ o.seq)
    mcasts := if o.pkt.isSvcMcast then k.mcasts ++ [.of o.seq o.pkt.hdr] else k.mcasts }

/-- A null claim: a Collar packet with operation 4 (R108, R272). -/
def Pkt.isNullClaim (p : Pkt) : Bool := p.hdr.ptype = 0x05 && bitsOf (nth 0 p.words 0) 32 4 = 4

/-- Whether a null claim's entry is within the look-ahead of each output of its path; any other packet enters when it can (R281; log entry
72). -/
def nearEntry (c : Nat) (p : Pkt) (s : State) : Bool :=
  !p.isNullClaim || (outDirs s.device c .l p).all (fun d => hasMatch ((s.core c).output d) .l p.hdr)

/-- Packets made at the core, then those that have issued and wait in the mesh port, enter the router as it has room, each class in order
(R202, R203, R263). A SEND stays until its Leash entry reads its payload. -/
def promoteAux (c : Nat) : Nat → State → State
  | 0, s => s
  | f + 1, s =>
    match (s.core c).lout.find? (fun p => lAccepts c p s) with
    | some p => promoteAux c f (enterL c p (s.modCore c (fun k => { k with lout := k.lout.erase p })))
    | none => match (s.core c).mesh.find? (fun o => (s.core c).canEnter o && nearEntry c o.pkt s) with
      | none => s
      | some o => promoteAux c f (enterL c o.pkt (s.modCore c (fun k => k.leavePort o)))

/-- All packets the router can take enter it. -/
def promote (c : Nat) (s : State) : State := promoteAux c 40 s

/-- A packet made at a core enters its router once the L input has room for its class (R263). -/
def sendFromL (c : Nat) (p : Pkt) (s : State) : State := promote c (s.modCore c (fun k => { k with lout := k.lout ++ [p] }))

/-- The sum of one payload flit of the contributions, in their order: 64 FP32 or 128 BF16 elements (R273, R288). -/
def reduceSum (bf16 : Bool) (ps : List (List Byte)) : List Byte :=
  let w := if bf16 then 2 else 4
  let f : Fmt := if bf16 then .bf16 else .fp32
  let cols := ps.map (fun l => (chunks w l).map (fun b => decodeNum f (leValue b)))
  match cols with
  | [] => []
  | a :: rest =>
    let total := rest.foldl (fun acc l => List.zipWith addF32 acc l) a
    total.flatMap (fun x => leBytes w (encodeNum f .rne true 0 x).1)

end Sys2Proof.Machine
end

