-- ==== Sys2Proof/Machine/Order.lean ====
section
/-! DEFINITION. Ordering of POST and COMPLETE behind earlier work of their stream, and the refusals, NACKs and
answers a router sends (R82, R286, R310-R314, R381, R401). -/
namespace Sys2Proof.Machine

/-- Whether every earlier engine instruction and SEND of the stream has completed (R82, R381). -/
def Core.earlierDone (k : Core) (stream seq : Nat) : Bool :=
  k.ops.all (fun o => decide (o.stream ≠ stream) || decide (seq ≤ o.seq)) &&
  k.mesh.all (fun o => decide (o.stream ≠ stream) || decide (seq ≤ o.seq) || o.src.isNone)

/-- A deferred POST or COMPLETE takes effect (R82, R97, R109). -/
def applyDeferred (c : Nat) (d : DeferredOp) (s : State) : State :=
  let s := s.modCore c (fun k => { k with deferred := k.deferred.filter (fun x => x.seq ≠ d.seq) })
  if d.isLocal then
    match d.op with
    | .post n => collarAdd c d.collar n s
    | .complete i cg g => onComplete c d.collar c i cg g s
    | .fadd _ _ => s
    | .claim _ => s
  else match d.pkt with
    | some p =>
      promote c (s.modCore c (fun k => { k with mesh := k.mesh ++
        [{ seq := d.seq, stream := d.stream, pc := 0, pkt := p, src := none, ranges := [], at_ := s.howl, held := false }] }))
    | none => s

/-- Deferred operations whose conditions are met take effect in issue order (fuel: how many there may be). -/
def runDeferredAux (c : Nat) : Nat → State → State
  | 0, s => s
  | f + 1, s =>
    match (s.core c).deferred.find? (fun d => (s.core c).earlierDone d.stream d.seq) with
    | none => s
    | some d => runDeferredAux c f (applyDeferred c d s)

/-- Everything deferred at a core that may now take effect. -/
def runDeferred (c : Nat) (s : State) : State := runDeferredAux c (s.core c).deferred.length s

/-- The refusal tuple of R311. -/
def refusalWords (dev c : Nat) (h : Hdr) (reason : Nat) : List Word :=
  [BitVec.ofNat 64 (at_ 32 (h.tag % 4096) + at_ 28 (h.period % 16) + at_ 24 (h.srcStream % 8) + at_ 14 (c % 1024)
      + at_ 8 (h.dstBowl % 64) + reason % 256),
   BitVec.ofNat 64 (dev % 65536)]

/-- A short packet from this core back to the sender of another (R311). -/
def replyPkt (dev c : Nat) (h : Hdr) (ptype : Nat) (service : Bool) (words : List Word) : Pkt :=
  { hdr := { Hdr.zero with
      ptype := ptype, service := service, nw := words.length, dstDev := h.srcDev, dstCore := h.srcCore, srcDev := dev,
      srcCore := c, epoch := h.epoch, dstBowl := h.dstBowl, srcStream := h.srcStream, tag := h.tag, period := h.period, gen := h.gen }
    words := words, payload := [], exit := decide (16 ≤ colOf c), origin := 0 }

/-- A service answer of a multicast leaf or a delivery answer: word 0 holds 0 accepted, the refusal reason, or 0xFF for a
stale-generation discard; word 1 the answering core (R286, R401, log entry 13). -/
def answerPkt (dev c : Nat) (h : Hdr) (outcome : Nat) : Pkt :=
  replyPkt dev c h 0x0D true [BitVec.ofNat 64 outcome, BitVec.ofNat 64 c]

/-- Return an outcome to ring-origin traffic or to another device's ring (R313, R401). -/
def ringOutcome (c : Nat) (p : Pkt) (outcome : Nat) (s : State) : State :=
  { s with ring := { s.ring with replies := s.ring.replies ++
      [{ pkt := { answerPkt s.device c p.hdr outcome with origin := p.origin }, since := s.howl, fromPort := 18, cls1 := false }] } }

/-- A refusal at a Bowl (R286, R307, R310-R313, R401). -/
def refuseAt (c : Nat) (p : Pkt) (reason : Nat) (s : State) : State :=
  let h := p.hdr
  let dev := s.device
  if h.service then
    let s := s.bumpCore c 0x74 1
    if p.origin ≠ 0 || h.srcDev ≠ dev then ringOutcome c p reason s
    else if h.mcast then sendFromL c (answerPkt dev c h reason) s
    else sendFromL c (replyPkt dev c h 0x0C true (refusalWords dev c h reason)) s
  else
    let s := s.bumpCore c 0x73 1
    sendFromL c (replyPkt dev c h 0x0B false (refusalWords dev c h reason)) s

/-- An accepted service write: a multicast leaf and a request from another device or a ring answer (R286, R401). -/
def acceptAt (c : Nat) (p : Pkt) (s : State) : State :=
  let h := p.hdr
  if !h.service then s
  else if p.origin ≠ 0 || h.srcDev ≠ s.device then ringOutcome c p 0 s
  else if h.mcast then sendFromL c (answerPkt s.device c h 0) s
  else s

/-- A stale-generation discard: silent, except that another device's ring hears of it (R304, R307, R401). -/
def discardAt (c : Nat) (p : Pkt) (s : State) : State :=
  let s := s.bumpCore c 0x72 1
  if p.hdr.service && !p.hdr.mcast && (p.origin ≠ 0 || p.hdr.srcDev ≠ s.device) then ringOutcome c p 0xFF s else s

/-- The entry tag word of a Bowl entry (R300). -/
def entryTag (kind count : Nat) (note : Bool) (reason : Nat) (h : Hdr) : Nat :=
  at_ 62 kind + at_ 57 (count % 32) + at_ 56 (bit01 note) + at_ 48 (reason % 256) + at_ 32 (h.srcDev % 65536)
  + at_ 28 (h.period % 16) + at_ 16 (h.tag % 4096) + at_ 13 (h.srcStream % 8) + h.srcCore % 1024

/-- Address of an entry, and of its tag (R295). -/
def entryAddr (b : Bowl) (e : Nat) : Nat := bBase b + 32 * e
/-- Address of an entry's tag (R295). -/
def tagAddr (b : Bowl) (e : Nat) : Nat := bBase b + 32 * bDepth b + 8 * e

/-- Write a tuple and any pad it needs at a Bowl's write pointer; WP is published later (R299, R302, R304). -/
def writeTuple (bi : Nat) (words : List Word) (note : Bool) (reason : Nat) (h : Hdr) (k : Core) : Core :=
  let b := k.bowl bi
  let depth := bDepth b
  let n := words.length
  let cnt := (n + 3) / 4
  let pos0 := b.wpNext.toNat % depth
  let room := depth - pos0
  let padded := decide (room < cnt)
  let k := if padded then
      foldN room (fun k j => k.store_ (tagAddr b (pos0 + j)) (leBytes 8 (at_ 62 2 + at_ 57 (room - j)))) k
    else k
  let pos := if padded then 0 else pos0
  let k := k.store_ (entryAddr b pos) (fitTo 0 (32 * cnt) (wordBytes words))
  let k := foldN cnt (fun k j =>
    k.store_ (tagAddr b (pos + j)) (leBytes 8 (if j = 0 then entryTag 0 n note reason h else entryTag 1 0 false 0 h))) k
  k.setBowl bi { b with wpNext := b.wpNext + BitVec.ofNat 15 ((if padded then room else 0) + cnt) }

/-- Write an accepted packet into its Bowl and window (R299, R305). -/
def writeBowl (p : Pkt) (k : Core) : Core :=
  let h := p.hdr
  let b := k.bowl h.dstBowl
  if h.ptype = 0x01 || h.ptype = 0x04 then
    let k := k.store_ (bWinBase b + 64 * h.doff) p.payload
    if h.note then writeTuple h.dstBowl (p.words.take 1) true 0 h k else k
  else writeTuple h.dstBowl p.words false 0 h k

/-- The core's service-return Bowl, if it has an open one (R296, R313). -/
def Core.retBowl (k : Core) : Option Nat :=
  (List.range 64).find? (fun i => bConf (k.bowl i) && bRet (k.bowl i) && (k.bowl i).isOpen)

/-- A NACK written to the sending core's service-return Bowl, or lost and counted (R313, R314). -/
def deliverNack (c : Nat) (words : List Word) (reason : Nat) (h : Hdr) (s : State) : State :=
  let k := s.core c
  match k.retBowl with
  | none => s.bumpCore c 0x75 1
  | some bi =>
    let b := k.bowl bi
    let depth := bDepth b
    let cnt := (words.length + 3) / 4
    let room := depth - b.wpNext.toNat % depth
    let need := if cnt ≤ room then cnt else room + cnt
    if depth - (b.wpNext - b.rp).toNat < need then s.bumpCore c 0x75 1
    else s.setCore c (writeTuple bi words false reason h k)

end Sys2Proof.Machine
end

