-- ==== Sys2Proof/Machine/Router.lean ====
section
/-! DEFINITION. The router's steps: entries, slips, open slots, fetch lanes, headers, drains
(ENTRY_START … SERVICE_MCAST_TIMEOUT; R49-R63, R261-R294). -/
namespace Sys2Proof.Machine

/-- One contribution to a Leash entry: its input, the packet, when its header became present and the beats between its flits, and the
mesh-port SEND it comes from where its payload is still in scratchpad. -/
structure Contrib where
  inp : Dir
  pkt : Pkt
  at_ : Time
  gap : Nat
  op : Option MeshOp

/-- The packet of an input that waits for the head entry of an output (R51, R281). -/
def contribution (dev c : Nat) (k : Core) (inp d : Dir) : Option Contrib :=
  let o := k.output d
  match (k.input inp).sched.find? (fun a => headMatches o inp a.pkt.hdr && (outDirs dev c inp a.pkt).contains d) with
  | some a => some { inp := inp, pkt := a.pkt, at_ := a.at_, gap := a.gap, op := none }
  | none =>
    if inp = .l then
      match k.mesh.find? (fun m => m.src.isSome && !m.held && headMatches o .l m.pkt.hdr && (outDirs dev c .l m.pkt).contains d) with
      | some m => some { inp := .l, pkt := m.pkt, at_ := m.at_, gap := 1, op := some m }
      | none => none
    else none

/-- Contributions of every input of an entry; none while one is missing (R51, R282). -/
def contributions (dev c : Nat) (k : Core) (d : Dir) (w : Word) : Option (List Contrib) :=
  (Dir.all.filter (fun i => eHas w i)).foldl (fun acc i =>
    match acc, contribution dev c k i d with
    | some l, some x => some (l ++ [x])
    | _, _ => none) (some [])

/-- The fields in which merge contributions must agree (R287). -/
def sameMerge (a b : Hdr) : Bool :=
  a.reduce && b.reduce && a.rid = b.rid && a.rfmt == b.rfmt && a.len = b.len && a.dstDev = b.dstDev &&
  a.dstCore = b.dstCore && a.dstBowl = b.dstBowl && a.doff = b.doff && a.tag = b.tag

/-- When flit `j` of a contribution became present, its header being flit 0 (R288). -/
def Contrib.flitAt (x : Contrib) (j : Nat) : Time := x.at_ + BitVec.ofNat 64 (j * x.gap)

/-- Contributions in the order in which their flit `j` became present; ties stay in the order N, E, S, W, L (R288). -/
def presenceOrder {α : Type} (j : Nat) (l : List (Contrib × α)) : List (Contrib × α) :=
  l.foldl (fun acc x =>
    let before (y : Contrib × α) : Bool := howlGe (x.1.flitAt j) (y.1.flitAt j)
    acc.takeWhile before ++ [x] ++ acc.dropWhile before) []

/-- The payload of a packet made of contributions: the one contribution's, or flit by flit the sum (R273, R288). -/
def mergedPayload (h : Hdr) (l : List (Contrib × List Byte)) : List Byte :=
  match l with
  | [x] => x.2
  | l => (List.range h.len).flatMap (fun j =>
      reduceSum h.rfmt ((presenceOrder (j + 1) l).map (fun x => (x.2.drop (256 * j)).take 256)))

/-- The beat from which the head entry counts as held: the later of its nominal beat and the beat it reached the head (R53). -/
def Output.heldFrom (o : Output) : Time := howlMax o.nominal o.headSince

/-- A slip begins: counted per output and device with the beats held so far, and captured if the capture is armed; later beats are counted
as they pass (R53, R54, R60). -/
def slipBegin (c : Nat) (d : Dir) (s : State) : State :=
  let o := (s.core c).output d
  let s := ((s.bumpCore c (0x20 + d.code) 1).bump 0x5010 1 1).bump 0x5010 2 (howlDiff s.howl o.heldFrom).toNat
  let s := s.modCore c (fun k => k.setOutput d { k.output d with slipped := true })
  if s.slipHeld then s
  else { s with
    slipHeld := true
    slipTime := o.heldFrom
    slipPlace := BitVec.ofNat 32 (at_ 16 (o.head % 4096) + at_ 10 d.code + c % 1024) }

/-- The slip of an entry that starts late and whose hold no SLIP_BEGIN has told of (R53, R54). -/
def slipAtStart (c : Nat) (d : Dir) (s : State) : State :=
  let o := (s.core c).output d
  if decide (0 < howlDiff s.howl o.heldFrom) && !o.slipped then slipBegin c d s else s

/-- Advance an output past the entry it has just sent: the next reaches the head when the link is free (R53). -/
def advanceOutput (c : Nat) (d : Dir) (s : State) : State :=
  s.modCore c (fun k => k.setOutput d ((k.output d).advance (s.howl + BitVec.ofNat 64 ((k.output d).freeAt - s.clock))))

/-- Remove what contributed to an entry from the buffers it came from. -/
def takeContrib (c : Nat) (x : Contrib) (s : State) : State :=
  match x.op with
  | some m => s.modCore c (fun k => { k with mesh := k.mesh.filter (fun y => y.seq ≠ m.seq) })
  | none => s.modCore c (fun k =>
      let i := k.input x.inp
      k.setInput x.inp { i with sched := i.sched.eraseIdx (i.sched.findIdx (fun a => a.pkt == x.pkt)) })

/-- A contribution that a mesh fault holds at its router: no entry sends it any more (R292). -/
def holdContrib (c : Nat) (x : Contrib) (s : State) : State :=
  match x.op with
  | some m => s.modCore c (fun k => { k with mesh := k.mesh.map (fun y => if y.seq = m.seq then { y with held := true } else y) })
  | none => (takeContrib c x s).modCore c (fun k => let i := k.input x.inp; k.setInput x.inp { i with held := i.held ++ [x.pkt] })

/-- The payload of a contribution, read from scratchpad for a SEND (R202, R241); none after an uncorrectable word. -/
def contribPayload (c : Nat) (x : Contrib) (s : State) : Option (List Byte) × State :=
  match x.op with
  | some m => match m.src with
    | some (a, n) => readPort c 5 a n s
    | none => (some x.pkt.payload, s)
  | none => (some x.pkt.payload, s)

/-- The contributions with their payloads; none if one cannot be read. -/
def gatherPayloads (c : Nat) (l : List Contrib) (s : State) : Option (List (Contrib × List Byte)) × State :=
  l.foldl (fun acc x =>
    let r := contribPayload c x acc.2
    match acc.1, r.1 with
    | some ps, some p => (some (ps ++ [(x, p)]), r.2)
    | _, _ => (none, r.2)) (some [], s)

/-- Send a packet whose entry starts on one output. -/
def sendOn (c : Nat) (p : Pkt) (s : State) (d : Dir) : State :=
  advanceOutput c d (useLink c d p.size (countFlits c d p.size (handOver c d p (slipAtStart c d s))))

/-- The outputs a head entry's packet leaves by: all of a multicast's together (R284, R285). -/
def entryOuts (c : Nat) (d : Dir) (x : Contrib) (s : State) : List Dir :=
  if x.pkt.hdr.mcast then outDirs s.device c x.inp x.pkt else [d]

/-- Whether every output of a packet has its entry at the head, a free link and a downstream side that accepts (R35, R51, R285). -/
def outsReady (c : Nat) (outs : List Dir) (x : Contrib) (s : State) : Bool :=
  outs.all (fun q => headMatches ((s.core c).output q) x.inp x.pkt.hdr && decide (((s.core c).output q).freeAt ≤ s.clock) && downAccepts c q x.pkt s)

/-- The first output whose head entry the packet matches and whose FLITS its length does not meet (R282). -/
def wrongLength (c : Nat) (outs : List Dir) (x : Contrib) (s : State) : Option Dir :=
  outs.find? (fun q =>
    let o := (s.core c).output q
    headMatches o x.inp x.pkt.hdr && x.pkt.size ≠ eFlits (o.table.entry o.head))

/-- Start the head entry of an output with its contributions present (R51, R282, R284-R288). -/
def startEntry (c : Nat) (d : Dir) (w : Word) (l : List Contrib) (s : State) : State :=
  match l with
  | [] => s
  | x :: rest =>
    let h := x.pkt.hdr
    let outs := entryOuts c d x s
    let bad := wrongLength c outs x s
    if bad.isSome || rest.any (fun y => !sameMerge h y.pkt.hdr) || (eKind w = 1 && !h.reduce) then
      let q := bad.getD d
      meshFault 0x81 [packOf c] c (meshFaultWord 0x81 h.period h.tag q.code ((s.core c).output q).head c)
        (l.foldl (fun s y => holdContrib c y s) s)
    else if !outsReady c outs x s then s
    else
      match gatherPayloads c l s with
      | (none, s) => s
      | (some ps, s) =>
        let first := ((presenceOrder 0 ps).headD (x, [])).1
        let p : Pkt := { first.pkt with payload := mergedPayload h ps }
        let s := l.foldl (fun s y => takeContrib c y s) s
        let s := outs.foldl (sendOn c p) s
        let s := if eKind w = 1 then s.bumpCore c 0x61 1 else s
        runDeferred c (promote c s)

/-- The word of an output's head entry, if it is a scheduled or merge entry of a running table. -/
def Output.headPacket (o : Output) : Option Word :=
  let w := o.table.entry o.head
  if o.running && !o.table.idle && (eKind w = 0 || eKind w = 1) then some w else none

/-- ENTRY_START: the head entry of an output starts if it can (R51). -/
def execEntryStart (core : CoreId) (dir : Dir) (s : State) : Host.Outcome State Fault Refusal :=
  let c := core.val
  match ((s.core c).output dir).headPacket with
  | none => .next s
  | some w => match contributions s.device c (s.core c) dir w with
    | some l => .next (startEntry c dir w l s)
    | none => .next s

/-- Whether the head entry of an output can start now on all outputs of its packet (R285). -/
def startable (c : Nat) (d : Dir) (s : State) : Bool :=
  let o := (s.core c).output d
  match contributions s.device c (s.core c) d (o.table.entry o.head) with
  | some (x :: _) => outsReady c (entryOuts c d x s) x s
  | some [] => false
  | none => false

/-- SLIP_BEGIN: an output holds its head entry at or past its nominal beat (R53-R55). -/
def execSlipBegin (core : CoreId) (dir : Dir) (s : State) : Host.Outcome State Fault Refusal :=
  let c := core.val
  let o := (s.core c).output dir
  if o.headPacket.isSome && !o.slipped && howlGe s.howl o.heldFrom && !startable c dir s then .next (slipBegin c dir s) else .next s

/-- The packet that arrived first of those at the heads of input buffers; ties stay in the order N, E, S, W, L (R62, R277). -/
def firstArrived (l : List (Dir × Arrived)) : Option (Dir × Arrived) :=
  match l with
  | [] => none
  | x :: rest => some (rest.foldl (fun (b : Dir × Arrived) y => if howlGe y.2.at_ b.2.at_ then b else y) x)

/-- Packets of the inputs' service buffers that this output takes, in arrival order (R62, R286): unicast moves to the queue; a multicast
is copied into every branch's queue once all have room. -/
def refillSvc (c : Nat) (d : Dir) : Nat → State → State
  | 0, s => s
  | f + 1, s =>
    let k := s.core c
    let cand := Dir.all.filterMap (fun i =>
      match (k.input i).svc with
      | [] => none
      | a :: _ =>
        let ds := outDirs s.device c i a.pkt
        if ds.contains d && ds.all (fun q => decide ((k.output q).svcQ.length < 4)) then some (i, a) else none)
    match firstArrived cand with
    | none => s
    | some x =>
      let k := k.setInput x.1 { k.input x.1 with svc := (k.input x.1).svc.drop 1 }
      let k := (outDirs s.device c x.1 x.2.pkt).foldl (fun k q => k.setOutput q { k.output q with svcQ := (k.output q).svcQ ++ [x.2.pkt] }) k
      refillSvc c d f (promote c (s.setCore c k))

/-- Fetch packets of the inputs a lane serves, in arrival order, into the output's fetch queue (R263, R277, R279). -/
def refillFetch (c : Nat) (d : Dir) (serves : Dir → Bool) : Nat → State → State
  | 0, s => s
  | f + 1, s =>
    let k := s.core c
    let cand := (Dir.all.filter serves).filterMap (fun i =>
      match (k.input i).fetch with
      | [] => none
      | a :: _ => if (outDirs s.device c i a.pkt).contains d then some (i, a) else none)
    match firstArrived cand with
    | none => s
    | some x =>
      if 4 ≤ (k.output d).fetchQ.length then s
      else
        let k := k.setInput x.1 { k.input x.1 with fetch := (k.input x.1).fetch.drop 1 }
        let k := k.setOutput d { k.output d with fetchQ := (k.output d).fetchQ ++ [x.2.pkt] }
        refillFetch c d serves f (promote c (s.setCore c k))

/-- A service multicast leaves its source: its leaves have 2^14 beats from now to answer (R286). -/
def noteLeft (c : Nat) (p : Pkt) (s : State) : State :=
  if p.isSvcMcast && p.origin = 0 && p.hdr.srcCore = c && p.hdr.srcDev = s.device then
    s.modCore c (fun k => { k with
      mcasts := k.mcasts.map (fun m => if m.hdr = p.hdr && !m.left then { m with left := true, sentAt := s.howl } else m) })
  else s

/-- Send packets of one class in order while each one's last flit fits the slot, its capacity `cap` in flits and the `room` in beats to its
end; the queue is filled again from the inputs as it empties (R62, R63, R64, R279). -/
def sendFitting (c : Nat) (d : Dir) (fetch : Bool) (refill : State → State) : Nat → Nat → Nat → State → State
  | 0, _, _, s => s
  | f + 1, cap, room, s =>
    let s := refill s
    let o := (s.core c).output d
    match (if fetch then o.fetchQ else o.svcQ) with
    | [] => s
    | p :: rest =>
      let fb := flitBeats c d s
      if cap < p.size || room < (p.size - 1) * fb + 1 || !downAccepts c d p s then s
      else
        let s := s.modCore c (fun k =>
          let o := k.output d
          k.setOutput d (if fetch then { o with fetchQ := rest } else { o with svcQ := rest }))
        let s := useLink c d p.size (countFlits c d p.size (noteLeft c p (handOver c d p s)))
        let s := s.bumpCore c (if fetch then 0x62 else 0x63) p.size
        sendFitting c d fetch refill f (cap - p.size) (room - p.size * fb) s

/-- Beats left in the current slot of an output: its nominal end less now, none when past (R63). -/
def slotRoom (o : Output) (w : Word) (now : Time) : Nat :=
  (howlDiff (o.nominal + BitVec.ofNat 64 (eFlits w)) now).toNat

/-- Beats left in an entry of the idle table, which restarts every 130 beats: the fetch lane has beats 0-64, the open slot 65-129 (R278,
R280; log entry 75). -/
def idleRoom (o : Output) (fetch : Bool) (now : Time) : Nat :=
  let phase := (now - o.launchAt).toNat % 130
  if fetch then 65 - phase else if phase < 65 then 0 else 130 - phase

/-- A slot of one class at the head of an output carries the packets that fit; the output then moves on. The idle table serves each class in
its own beats (R62, R63, R279, R280). -/
def serveSlot (c : Nat) (d : Dir) (fetch : Bool) (s : State) : State :=
  let o := (s.core c).output d
  let w := o.table.entry o.head
  let refill (serves : Dir → Bool) (s : State) : State := if fetch then refillFetch c d serves 16 s else refillSvc c d 16 s
  if s.clock < o.freeAt then s
  else if o.table.idle then sendFitting c d fetch (refill (fun _ => true)) 65 65 (idleRoom o fetch s.howl) s
  else if o.running && eKind w = (if fetch then 3 else 2) then
    promote c (advanceOutput c d (sendFitting c d fetch (refill (eHas w)) 65 (eFlits w) (slotRoom o w s.howl) s))
  else s

/-- OPEN_SLOT_SERVICE: an open slot at the head of an output carries service packets that fit (R62, R63, R286). -/
def execOpenSlotService (core : CoreId) (dir : Dir) (s : State) : Host.Outcome State Fault Refusal := .next (serveSlot core.val dir false s)

/-- FETCH_LANE_SERVICE: a fetch lane at the head of an output carries fetch packets that fit (R277, R279, R289). -/
def execFetchLaneService (core : CoreId) (dir : Dir) (s : State) : Host.Outcome State Fault Refusal := .next (serveSlot core.val dir true s)

/-- FIRST_SLIP_REARM: writing 1 clears the capture and re-arms it (R54, R59). -/
def execFirstSlipRearm (s : State) : Host.Outcome State Fault Refusal :=
  .next { s with slipHeld := false, slipTime := 0, slipPlace := 0 }

/-- The packs at both ends of the link into an input (R292). -/
def linkPacks (c : Nat) (d : Dir) : List Nat :=
  match neighbourOf c d with
  | some (n, _) => if packOf n = packOf c then [packOf c] else [packOf c, packOf n]
  | none => [packOf c]

/-- A header that has crossed its link is taken into its buffer; a scheduled one is matched, and held where no entry waits for it (R263,
R281, R292). `rest` is what the link still carries. -/
def takeHeader (c : Nat) (d : Dir) (p : Pkt) (rest : List Pkt) (s : State) : State :=
  let k := s.core c
  let i := { k.input d with link := rest }
  let a : Arrived := { pkt := p, at_ := s.howl, gap := flitBeats c d s }
  if p.isFetch then s.setCore c (k.setInput d { i with fetch := i.fetch ++ [a] })
  else if p.isSvc then s.setCore c (k.setInput d { i with svc := i.svc ++ [a] })
  else
    match (outDirs s.device c d p).find? (fun q => !hasMatch (k.output q) d p.hdr) with
    | none => s.setCore c (k.setInput d { i with sched := i.sched ++ [a] })
    | some q =>
      meshFault 0x80 [packOf c] c (meshFaultWord 0x80 p.hdr.period p.hdr.tag q.code (k.output q).head c)
        (s.setCore c (k.setInput d { i with held := i.held ++ [p] }))

/-- The next packet that crosses a link into an input, with what follows it: a data packet stays in the seam bridge while its program is
halted there, and service traffic passes it (R67). -/
def nextOnLink (c : Nat) (d : Dir) (s : State) : Option (Pkt × List Pkt) :=
  let l := ((s.core c).input d).link
  (l.findIdx? (fun p => !seamStops c d p s)).bind (fun j => l[j]?.map (fun p => (p, l.eraseIdx j)))

/-- HEADER_ARRIVAL: the next packet on a router input's link, with what its check bits show (R264, R281, R292). -/
def execHeaderArrival (core : CoreId) (dir : Dir) (ecc : LinkEcc) (s : State) : Host.Outcome State Fault Refusal :=
  let c := core.val
  if ((s.core c).input dir).stuck then .next s
  else match nextOnLink c dir s with
  | none => .next s
  | some (p, rest) =>
    match ecc with
    | .uncorrectable =>
      let s := s.modCore c (fun k => k.setInput dir { k.input dir with stuck := true })
      .next (meshFault 0x83 (linkPacks c dir) c (meshFaultWord 0x83 0 0 dir.code 0 c) s)
    | .corrected n => .next (takeHeader c dir p rest (s.bumpCore c 0x60 n))
    | .clean => .next (takeHeader c dir p rest s)

/-- LAST_MESH_FAULT_READ: the record is answered and re-armed (R292-R294). -/
def execLastMeshFaultRead (s : State) : Host.Outcome State Fault Refusal :=
  .next { s with out := leBytes 8 s.meshFault.toNat, meshFaultHeld := false }

/-- An output switched to the idle table, its period from now (R278, R280, R283). -/
def Output.toIdle (o : Output) (now : Time) : Output :=
  { o with table := .idleTable, shadow := none, running := true, head := 0, period := 0, launchAt := now, headSince := now, slipped := false }

/-- An output switched to its shadow table for a step launched at `a` (R278, R283). -/
def Output.toShadow (o : Output) (a : Time) : Output :=
  match o.shadow with
  | some t => { o with table := t, shadow := none, running := true, head := 0, period := 0, launchAt := a, headSince := a, slipped := false }
  | none => o

/-- Every output of a router changed. -/
def Core.mapOutputs (k : Core) (f : Output → Output) : Core := Dir.all.foldl (fun k d => k.setOutput d (f (k.output d))) k

/-- ROUTER_DRAINED: a drained router switches tables: back to the idle table in a teardown, or into the program's tables
when its first step has launched and it could not switch then (R283). -/
def execRouterDrained (core : CoreId) (s : State) : Host.Outcome State Fault Refusal :=
  let c := core.val
  let k := s.core c
  let p := s.pack (packOf c)
  if !k.routerEmpty then .next s
  else if p.teardown.isSome then
    if k.tablesDone then .next (s.setCore c (k.mapOutputs (fun o => if o.table.idle && o.shadow.isNone then o else o.toIdle s.howl)))
    else .next s
  else if p.everLaunched && Dir.all.any (fun d => (k.output d).shadow.isSome) then
    .next (s.setCore c (k.mapOutputs (fun o => o.toShadow p.launchAt)))
  else .next s

/-- A multicast at its source with one leaf's answer entered (R286). -/
def SvcMcast.answer (m : SvcMcast) (leaf : Nat) (refused : Bool) : SvcMcast :=
  { m with answered := m.answered ++ [leaf], refused := if refused then m.refused ++ [leaf] else m.refused }

/-- Leaves of a multicast (R284). -/
def SvcMcast.leaves (m : SvcMcast) : List Nat :=
  (List.range 1024).filter (fun c => fieldOf m.colMask (colOf c) 1 == 1 && fieldOf m.rowMask (rowOf c) 1 == 1)

/-- The 1,024-bit mask of refused or silent leaves as 16 words (R286, R314). -/
def maskWords (l : List Nat) : List Word :=
  (List.range 16).map (fun w => BitVec.ofNat 64 ((l.filter (fun c => c / 64 = w)).foldl (fun a c => a + 2 ^ (c % 64)) 0))

/-- A multicast at its source ends: a mask NACK if any leaf refused or was silent (R286, R314). -/
def endMcast (c : Nat) (m : SvcMcast) (s : State) : State :=
  let bad := m.leaves.filter (fun l => m.refused.contains l || !m.answered.contains l)
  let s := promote c (s.modCore c (fun k => { k with mcasts := k.mcasts.erase m }))
  if bad.isEmpty then s
  else
    let s := s.bump 0x5015 4 bad.length
    sendFromL c
      { hdr := { Hdr.zero with ptype := 0x0C, service := true, long := true, len := 1, nw := 16, dstDev := s.device, dstCore := c,
                               srcDev := s.device, srcCore := c, epoch := m.hdr.epoch, srcStream := m.hdr.srcStream,
                               dstBowl := m.hdr.dstBowl }
        words := maskWords bad, payload := [], exit := false, origin := 0 } s

/-- SERVICE_ANSWER: a leaf's answer reaches the source of a service multicast (R286). -/
def execServiceAnswer (core : CoreId) (s : State) : Host.Outcome State Fault Refusal :=
  let c := core.val
  match (s.core c).lq with
  | [] => .next s
  | p :: rest =>
    if p.hdr.ptype ≠ 0x0D then .next s
    else
      let s := s.modCore c (fun k => { k with lq := rest })
      let leaf := p.hdr.srcCore
      let refused := (nth 0 p.words 0) ≠ 0
      match (s.core c).mcasts.find? (fun m => m.hdr.dstBowl = p.hdr.dstBowl && m.leaves.contains leaf && !m.answered.contains leaf) with
      | none => .next s
      | some m =>
        let m' := m.answer leaf refused
        let s := s.modCore c (fun k => { k with mcasts := k.mcasts.map (fun x => if x = m then m' else x) })
        .next (if m'.leaves.all (fun l => m'.answered.contains l) then endMcast c m' s else s)

/-- SERVICE_MCAST_TIMEOUT: 2^14 beats after a multicast left, its silent leaves count as refused (R286). -/
def execServiceMcastTimeout (core : CoreId) (s : State) : Host.Outcome State Fault Refusal :=
  let c := core.val
  match (s.core c).mcasts.find? (fun m => m.left && decide ((2 : Int) ^ 14 ≤ howlDiff s.howl m.sentAt)) with
  | none => .next s
  | some m => .next (endMcast c m s)

end Sys2Proof.Machine
end

