-- ==== Sys2Proof/Machine/Bowls.lean ====
section
/-! DEFINITION. Bowl steps and Collar operations that arrive from other cores (BOWL_DELIVERY … COLLAR_REPLY;
R84, R88-R111, R272, R302-R314). -/
namespace Sys2Proof.Machine

/-- The head packet of the core side of an L output. -/
def lqHead (c : Nat) (s : State) : Option Pkt := (s.core c).lq.head?

/-- The head packet of the core side of an L output is dealt with. -/
def lqPop (c : Nat) (s : State) : State := s.modCore c (fun k => { k with lq := k.lq.drop 1 })

/-- Whether the packet at the head of a core's L output is one that `holds` keeps there (R306, R352). -/
def heldAtL (holds : Pkt → Bool) (c : Nat) (s : State) : Bool :=
  let k := s.core c
  let o := k.output .l
  decide (o.freeAt ≤ s.clock) && (match o.headPacket with
    | none => false
    | some w => match contributions s.device c k .l w with
      | some (x :: _) => holds x.pkt
      | some [] => false
      | none => false)

/-- BOWL_DELIVERY: a packet bound for a Bowl that has left the L output is judged and written, discarded or refused; one that the Bowl now
holds stays (R304-R307). The beats of a hold are counted as they pass. -/
def execBowlDelivery (core : CoreId) (s : State) : Host.Outcome State Fault Refusal :=
  let c := core.val
  match lqHead c s with
  | none => .next s
  | some p =>
    if !p.forBowl then .next s
    else
      match judgeAt c p s with
      | .write => .next (acceptAt c p ((lqPop c s).modCore c (writeBowl p)))
      | .hold => .next s
      | .discard => .next (discardAt c p (lqPop c s))
      | .refuse r => .next (refuseAt c p r (lqPop c s))

/-- Whether a Bowl of the core holds a packet at its L output in this beat (R306). -/
def bowlHoldNow (c : Nat) (s : State) : Bool :=
  heldAtL (fun p => bowlHolds c p s) c s || (match lqHead c s with | some p => bowlHolds c p s | none => false)

/-- WRITE_POINTER_PUBLISH: the new WP becomes visible, and a reader parked on the Bowl has its waking event (R88, R302, R309). -/
def execWritePointerPublish (core : CoreId) (bowl : BowlId) (s : State) : Host.Outcome State Fault Refusal :=
  let c := core.val
  let b := (s.core c).bowl bowl.val
  if b.wp = b.wpNext then .next s
  else
    .next (s.modCore c (fun k =>
      (k.setBowl bowl.val { b with wp := b.wpNext }).modStream (bReader b) (fun t =>
        if t.st = .parkedBowl && t.waitBowl = bowl.val then t.noteWake else t)))

/-- The stream fault code of a data-class refusal reason (R310). -/
def channelFaultCode (reason : Nat) : Nat := 0x40 + reason

/-- CHANNEL_CLOSED: the named stream faults and its pack Barks, or the packet came too late (R312); one sent by a
Retriever as feedback is fault 0x93 (R361). -/
def execChannelClosed (core : CoreId) (s : State) : Host.Outcome State Fault Refusal :=
  let c := core.val
  match lqHead c s with
  | none => .next s
  | some p =>
    if p.hdr.ptype ≠ 0x0B then .next s
    else
      let s := lqPop c s
      let w := nth 0 p.words 0
      let stream := bitsOf w 24 3
      let pk := packOf c
      match (if c = retrRouter pk then s.feedbackOf pk p.words else none) with
      | some n => .next (if (s.pack pk).retr.stopped then s else retrieverFault 0x93 pk n s)
      | none =>
      if (((s.core c).stream stream).st).live then
        .next (streamFault c stream (channelFaultCode (bitsOf w 0 8)) s)
      else .next (s.bumpCore c 0x77 1)

/-- SERVICE_NACK: a NACK is written to the core's service-return Bowl with its reason in the tag, or lost (R313, R314). -/
def execServiceNack (core : CoreId) (s : State) : Host.Outcome State Fault Refusal :=
  let c := core.val
  match lqHead c s with
  | none => .next s
  | some p =>
    if p.hdr.ptype ≠ 0x0C then .next s
    else
      let reason := if p.hdr.long then 0x06 else bitsOf (nth 0 p.words 0) 0 8
      .next (deliverNack c p.words reason p.hdr (lqPop c s))

/-- STREAM_WAKE: a parked stream whose waking event has come becomes Ready (R88, R89). -/
def execStreamWake (core : CoreId) (stream : StreamId) (s : State) : Host.Outcome State Fault Refusal :=
  let t := (s.core core.val).stream stream.val
  if t.woken && (t.st = .parkedCollar || t.st = .parkedBowl || t.st = .parkedClaim) then .next (wakeStream core.val stream.val s)
  else .next s

/-- The Collar a Collar packet names (R270). -/
def pktCollar (p : Pkt) : Nat := p.hdr.dstBowl % 16
/-- OP of a Collar operation packet: 0 POST, 1 FADD, 2 CLAIM, 3 COMPLETE, 4 null claim (R272). -/
def pktCollarOp (p : Pkt) : Nat := bitsOf (nth 0 p.words 0) 32 3

/-- Whether a remote operation meets R100: the generation, a configured Collar, and the mode the operation needs. The
generation of a COMPLETE is tested by R109 itself, which counts it late (log entry 14). -/
def remoteAccepts (col : Collar) (p : Pkt) (ledgered : Bool) : Bool :=
  col.configured && (pktCollarOp p = 3 || col.gen.toNat = p.hdr.gen) && col.ledgered == ledgered

/-- The reply of a Collar operation (R272). -/
def collarReplyPkt (dev c : Nat) (p : Pkt) (result : Word) : Pkt :=
  { hdr := { Hdr.zero with
      ptype := 0x06, nw := 2, dstDev := p.hdr.srcDev, dstCore := p.hdr.srcCore, srcDev := dev, srcCore := c, srcStream := p.hdr.srcStream,
      epoch := p.hdr.epoch, period := p.hdr.period, tag := p.hdr.tag, gen := p.hdr.gen }
    words := [result, nth 0 p.words 1], payload := [], exit := p.exit, origin := 0 }

/-- Handle the Collar operation at the head of the core side when it is of the kind named (R84, R97, R100, R109). One of another
device is served as any other (log entry 34). -/
def remoteOp (c op : Nat) (ledgered : Bool) (f : Nat → Pkt → State → State) (s : State) : State :=
  match lqHead c s with
  | none => s
  | some p =>
    if p.hdr.ptype ≠ 0x05 || pktCollarOp p ≠ op then s
    else
      let s := lqPop c s
      let k := pktCollar p
      if remoteAccepts ((s.core c).collar k) p ledgered then f k p s else staleCollarOp c s

/-- REMOTE_POST (R97, R100). -/
def execRemotePost (core : CoreId) (s : State) : Host.Outcome State Fault Refusal :=
  .next (remoteOp core.val 0 false (fun k p s => collarAdd core.val k (BitVec.ofNat 32 (bitsOf (nth 0 p.words 0) 0 32)) s) s)

/-- REMOTE_FETCH_ADD: the add, and a reply with the value before it (R97, R98, R272). -/
def execRemoteFetchAdd (core : CoreId) (s : State) : Host.Outcome State Fault Refusal :=
  let c := core.val
  .next (remoteOp c 1 false (fun k p s =>
    let old := ((s.core c).collar k).value
    let s := collarAdd c k (BitVec.ofNat 32 (bitsOf (nth 0 p.words 0) 0 32)) s
    sendFromL c (collarReplyPkt s.device c p (old.setWidth 64)) s) s)

/-- REMOTE_CLAIM: the home Shepherd hands out an index or EMPTY and replies (R107, R109). -/
def execRemoteClaim (core : CoreId) (s : State) : Host.Outcome State Fault Refusal :=
  let c := core.val
  .next (remoteOp c 2 true (fun k p s =>
    let r := onClaim c k p.hdr.srcCore p.hdr.srcStream s
    sendFromL c (collarReplyPkt r.2.device c p r.1) r.2) s)

/-- REMOTE_COMPLETE: a completion is checked against the ledger (R109, R110, R223). A completion of another generation is
late, not stale, once the Collar is ledgered (R109). -/
def execRemoteComplete (core : CoreId) (s : State) : Host.Outcome State Fault Refusal :=
  let c := core.val
  .next (remoteOp c 3 true (fun k p s =>
    let w := nth 0 p.words 1
    onComplete c k p.hdr.srcCore (BitVec.ofNat 32 (bitsOf w 0 32)) (BitVec.ofNat 8 (bitsOf w 32 8)) (BitVec.ofNat 8 p.hdr.gen) s) s)

/-- NULL_CLAIM: the home router discards it (R108). -/
def execNullClaim (core : CoreId) (s : State) : Host.Outcome State Fault Refusal :=
  match lqHead core.val s with
  | none => .next s
  | some p => if p.hdr.ptype = 0x05 && pktCollarOp p = 4 then .next (lqPop core.val s) else .next s

/-- COLLAR_REPLY: the result is written to the requesting stream's register, and a parked CLAIM has its waking event (R88, R222). -/
def execCollarReply (core : CoreId) (s : State) : Host.Outcome State Fault Refusal :=
  let c := core.val
  match lqHead c s with
  | none => .next s
  | some p =>
    if p.hdr.ptype ≠ 0x06 then .next s
    else
      let w := nth 0 p.words 1
      .next (claimAnswered c (bitsOf w 4 3) (bitsOf w 0 4) (nth 0 p.words 0) (lqPop c s))

end Sys2Proof.Machine
end

