-- ==== Sys2Proof/Machine/Functions.lean ====
section
/-! DEFINITION. The function table's exact results, to far more bits than FP32 holds, and the error bounds that hold an implementation's own
result to them (R177, R178). Reals are integers of 320 fraction bits here. -/
namespace Sys2Proof.Machine

/-- Fraction bits of the fixed-point reals of this file. -/
def fixBits : Nat := 320

/-- The real 1. -/
def fixOne : Int := 2 ^ fixBits

/-- Product of two reals. -/
def fixMul (a b : Int) : Int := a * b / fixOne

/-- Quotient of two reals. -/
def fixDiv (a b : Int) : Int := a * fixOne / b

/-- Square root of a real that is not negative. -/
def fixSqrt (a : Int) : Int := isqrt (a.toNat * 2 ^ fixBits)

/-- A finite value as a real: exact, since no FP32 value has more than 149 fraction bits. -/
def fixOf (neg : Bool) (m : Nat) (e : Int) : Int := finAt neg m e (-(fixBits : Int))

/-- A real as an exact value; a zero has the sign `neg`. -/
def fixNum (neg : Bool) (a : Int) : Num := .fin (if a = 0 then neg else decide (a < 0)) a.natAbs (-(fixBits : Int))

/-- `1 + z/3 + z²/5 + …`, of `n` terms. -/
def oddSeries (n : Nat) (z : Int) : Int :=
  (List.range n).foldl (fun acc i => fixOne / (2 * (n - 1 - i) + 1 : Nat) + fixMul z acc) 0

/-- atanh of a real of at most 1/3. -/
def fixAtanh (z : Int) : Int := fixMul z (oddSeries 110 (fixMul z z))

/-- atan of a real of at most 1/5. -/
def fixAtan (z : Int) : Int := fixMul z (oddSeries 80 (-(fixMul z z)))

/-- ln 2. -/
def fixLn2 : Int := 2 * fixAtanh (fixOne / 3)

/-- π, by Machin's formula. -/
def fixPi : Int := 16 * fixAtan (fixOne / 5) - 4 * fixAtan (fixOne / 239)

/-- `e^r` for a real of magnitude below 1. -/
def expSeries (r : Int) : Int := (List.range 64).foldl (fun acc i => fixOne + fixMul r acc / (64 - i : Nat)) fixOne

/-- `e^v` as a real and a power of two. -/
def expParts (v : Int) : Int × Int :=
  let k := (2 * v + fixLn2) / (2 * fixLn2)
  (expSeries (v - k * fixLn2), k)

/-- `e^v` of a real that is not positive. -/
def expNeg (v : Int) : Int := let p := expParts v; p.1 / 2 ^ (-p.2).toNat

/-- The sigmoid of a real. -/
def fixSigmoid (v : Int) : Int :=
  let e := expNeg (-(v.natAbs : Int))
  if v < 0 then fixDiv e (fixOne + e) else fixDiv fixOne (fixOne + e)

/-- `erf a` of a real that is not negative, by its series of positive terms. -/
def fixErf (a : Int) : Int :=
  let x2 := 2 * fixMul a a
  let s := (List.range 640).foldl (fun (p : Int × Int) n => (p.1 + p.2, fixMul p.2 x2 / (2 * n + 3 : Nat))) (0, a)
  let e := expParts (-(fixMul a a))
  fixDiv (2 * (fixMul s.1 e.1 / 2 ^ (-e.2).toNat)) (fixSqrt fixPi)

/-- ln of the positive value `m × 2^e`. -/
def fixLn (m : Nat) (e : Int) : Int :=
  let l := Nat.log2 m
  let x : Int := (m : Int) * fixOne / 2 ^ l
  (e + l) * fixLn2 + 2 * fixAtanh (fixDiv (x - fixOne) (x + fixOne))

/-- The exact result of a function at a finite input that R178 leaves to R177, to a precision that decides its rounding. Past the limits
named here the result rounds as its limit does. -/
def funcExact (code : Nat) (n : Bool) (m : Nat) (e : Int) : Num :=
  let v := fixOf n m e
  let a := fixOf false m e
  let big (k : Nat) : Bool := decide ((k : Int) * fixOne ≤ a)
  let one : Num := .fin n 1 0
  let gated (g : Int) : Num := if big 128 then (if n then .fin true 0 0 else .fin n m e) else fixNum n (fixMul v g)
  match code with
  | 2 =>
    if big 16 then (if n then .fin true 0 0 else .fin n m e)
    else
      let cube := fixMul v (fixMul v v)
      gated (fixSigmoid (2 * fixMul (fixSqrt (fixDiv (2 * fixOne) fixPi)) (v + 44715 * cube / 1000000)))
  | 3 =>
    if big 16 then (if n then .fin true 0 0 else .fin n m e)
    else
      let f := fixErf (fixDiv a (fixSqrt (2 * fixOne)))
      gated ((if n then fixOne - f else fixOne + f) / 2)
  | 4 => gated (if big 128 then 0 else fixSigmoid v)
  | 5 => if big 256 then (if n then .zero else one) else fixNum false (fixSigmoid v)
  | 6 => if big 64 then one else fixNum n (2 * fixSigmoid (2 * v) - fixOne)
  | 7 =>
    if big 256 then (if n then .zero else .fin false 1 256)
    else let p := expParts v; .fin false p.1.toNat (p.2 - (fixBits : Int))
  | 8 =>
    if big 256 then (if n then .zero else .fin false 1 256)
    else let p := expParts (fixMul v fixLn2); if v % fixOne = 0 then .fin false 1 (v / fixOne) else .fin false p.1.toNat (p.2 - (fixBits : Int))
  | 9 => fixNum false (fixLn m e)
  | 10 => fixNum false (fixDiv (fixLn m e) fixLn2)
  | 11 =>
    let sh := Nat.log2 m + 64
    .fin n (2 * (2 ^ sh / m) + bit01 (decide (2 ^ sh % m ≠ 0))) (-e - (sh : Int) - 1)
  | 12 =>
    let m' := if e % 2 ≠ 0 then 2 * m else m
    let e' := if e % 2 ≠ 0 then e - 1 else e
    let t := isqrt (2 ^ 400 / m')
    .fin false (2 * t + bit01 (decide (t * t * m' ≠ 2 ^ 400))) (-(e' / 2) - 201)
  | _ => if big 6 then one else fixNum n (if n then -(fixErf a) else fixErf a)

/-- R177's largest error of a function in ulps, and whether it is 2^-26 where that is larger. -/
def funcUlps (code : Nat) : Nat × Bool :=
  if code = 7 || code = 9 then (3, false) else if code = 8 || code = 10 then (2, false)
  else if code = 11 || code = 12 then (1, false) else (4, true)

/-- Whether the FP32 value `y` lies within a function's largest error of its exact result `z`, rounded to FP32 (R177). -/
def withinError (code : Nat) (z y : Num) : Bool :=
  match toF32 z, y, z with
  | .fin rn rm re, .fin yn ym ye, .fin _ m e =>
    let u : Int := if m = 0 then -149 else max (magLog2 m e - 23) (-149)
    let d := addExact (.fin yn ym ye) (.fin (!rn) rm re)
    let b := funcUlps code
    !numLt (.fin false b.1 u) d.abs || (b.2 && !numLt (.fin false 1 (-26)) d.abs)
  | _, _, _ => false

/-- A function where R178 leaves it to R177: +∞ for an exp or exp2 above the FP32 range, else the implementation's own result, which is
within the table's error of the exact one (log entry 7). A result that the spec's bound leaves no room for is the exact one, rounded. -/
def funcBounded (code : Nat) (bits : BitVec 32) (n : Bool) (m : Nat) (e : Int) : Num :=
  let z := funcExact code n m e
  let y := decodeNum .fp32 (Config.specialFn code bits).toNat
  if withinError code z y then y else toF32 z

end Sys2Proof.Machine
end

