-- ==== Sys2Proof/Machine/Operands.lean ====
section
/-! DEFINITION. The instruction word: opcode map, fields, reserved bits, registers read and written, and the field
checks of R192 that the word alone decides (R188-R228). -/
namespace Sys2Proof.Machine

/-- A field `[hi:lo]` of an instruction word. -/
def ifld (w : Insn) (hi lo : Nat) : Nat := bitsOf w lo (hi - lo + 1)

/-- OP of a word (R188). -/
def opOf (w : Insn) : Nat := ifld w 7 0

/-- The opcodes of R189. -/
def isOpcode (op : Nat) : Bool :=
  (1 ≤ op && op ≤ 7) || op = 0x10 || op = 0x11 || op = 0x20 || op = 0x21 || (0x30 ≤ op && op ≤ 0x3E) ||
  (0x40 ≤ op && op ≤ 0x42) || (0x50 ≤ op && op ≤ 0x55) || op = 0x60 || op = 0x70 || op = 0x71

/-- The bits `[hi:lo]` as a mask. -/
def maskOf (hi lo : Nat) : Nat := (2 ^ (hi - lo + 1) - 1) * 2 ^ lo

/-- Masks of several ranges joined. -/
def masks (l : List (Nat × Nat)) : Nat := l.foldl (fun a r => a + maskOf r.1 r.2) 0

/-- The bits a word's opcode uses; every other bit is reserved (R190, R196, R204, R208, R211, R212, R215, R217-R227). -/
def usedBits (w : Insn) : Nat :=
  let op := opOf w
  let b (i : Nat) : Bool := bitAt w i
  let imm := (95, 64)
  let scalarA := (15, 12)
  match op with
  | 0x01 => masks [(7, 0)]
  | 0x02 => masks [(11, 0), (127, 64)]
  | 0x03 => masks ([(15, 0), (25, 20)] ++ (if b 20 then [imm] else [(19, 16)]))
  | 0x04 => masks ([(7, 0), (25, 20)] ++ (if b 20 then [scalarA] else [imm]))
  | 0x05 => masks [(7, 0), (25, 21), (43, 32)]
  | 0x06 => masks [(7, 0), (19, 12), (25, 21), (43, 32)]
  | 0x07 => masks [(11, 0), (25, 21)]
  | 0x10 => masks [(43, 0)]
  | 0x11 => masks [(43, 0)]
  | 0x20 => masks ([(57, 0), (96, 61)] ++ (if b 57 then [(60, 58)] else []))
  | 0x21 => masks [(31, 0)]
  | 0x36 => masks [(30, 0), (38, 34), (49, 46), (59, 54)]
  | 0x37 => masks [(30, 0), (38, 34), (49, 46), (59, 54)]
  | 0x38 => masks [(24, 0), (33, 28), (57, 37)]
  | 0x39 => masks [(30, 0), (38, 34), (59, 46)]
  | 0x3A => masks ([(30, 0), (38, 34), (49, 46), (59, 54)] ++ (if ifld w 59 58 = 2 then [(76, 60)] else []))
  | 0x3B => masks [(30, 0), (38, 34), (49, 41), (59, 54)]
  | 0x3C => masks [(24, 0), (30, 28), (38, 34), (49, 41), (57, 54)]
  | 0x3D => masks [(30, 0), (40, 34), (77, 46)]
  | 0x3E => masks [(30, 0), (38, 34), (49, 46), (59, 54)]
  | 0x40 => masks ([(27, 0)] ++ (if b 27 then [(31, 28)] else []))
  | 0x41 => masks [(24, 0)]
  | 0x42 => masks [(17, 0)]
  | 0x50 => masks ([(7, 0), (12, 12), (29, 29)] ++ (if b 12 then [(20, 13)] else [(11, 8)]) ++ (if b 29 then [(24, 21)] else [imm]))
  | 0x51 => masks ([(11, 0), (29, 29)] ++ (if b 29 then [(24, 21)] else [imm]))
  | 0x52 => masks ([(7, 0), (12, 12), (29, 25)] ++ (if b 12 then [(20, 13)] else [(11, 8)]) ++ (if b 29 then [(24, 21)] else [imm]))
  | 0x53 => masks [(11, 0)]
  | 0x54 => masks ([(7, 0), (12, 12), (28, 25)] ++ (if b 12 then [(20, 13)] else [(11, 8)]))
  | 0x55 => masks ([(7, 0), (12, 12), (24, 21)] ++ (if b 12 then [(20, 13)] else [(11, 8)]))
  | 0x60 => if b 8 then masks ([(12, 0), (17, 17)] ++ (if b 17 then [(16, 13)] else [imm])) else masks [(8, 0)]
  | 0x70 => masks [(20, 0)]
  | 0x71 => masks [(19, 0)]
  | _ => if 0x30 ≤ op ∧ op ≤ 0x35 then masks [(40, 0), (59, 46)] else masks [(7, 0)]

/-- Reserved bits that are set (R190, R192). -/
def reservedSet (w : Insn) : Bool := (w.toNat &&& (2 ^ 128 - 1 - usedBits w)) ≠ 0

/-- The first code of a list of checks that fails. -/
def firstFail : List (Bool × Nat) → Option Nat
  | [] => none
  | (bad, code) :: t => if bad then some code else firstFail t

/-- Whether an operand pair is one of R132. -/
def pairOk (a b : Fmt) : Bool :=
  (a.isMx && b.isMx) || (a == .int8 && b == .int8) || (a == .bf16 && b == .bf16) || (a == .fp16 && b == .fp16)

/-- Whether a scale mode is valid for a matrix operand's format (R128). -/
def scaleOk (f : Fmt) (mode : Nat) : Bool :=
  mode = 0 || (mode = 1 && f.isMx) || (mode = 2 && f == .int8)

/-- Whether an operand kind is valid for a vector operand's format (R171, R214). -/
def kindOk (f : Fmt) (kind : Nat) : Bool :=
  kind = 0 || (kind = 1 && f.isMx) || (kind = 2 && f == .int8) || kind = 3

/-- The field checks of a word in ascending order of low bit; a check over several fields stands at the last of them (R192). CVT
takes every pair of source and destination formats (log entry 36). -/
def fieldChecks (w : Insn) : Option Nat :=
  let op := opOf w
  let f (hi lo : Nat) := ifld w hi lo
  let fmtD := Fmt.ofCode (f 27 25)
  let fmtA := Fmt.ofCode (f 30 28)
  let fmtB := Fmt.ofCode (f 33 31)
  let dkind := f 59 58
  let l := f 24 8
  let ovfm := bitAt w 36
  match op with
  | 0x03 => firstFail [(decide (15 < f 25 21), 0x23)]
  | 0x04 => firstFail [(decide (3 < f 25 21), 0x23)]
  | 0x05 => firstFail [(decide (3 < f 25 21), 0x23)]
  | 0x06 => firstFail [(decide (8 < f 25 21), 0x23)]
  | 0x07 => firstFail [(decide (11 < f 25 21), 0x23)]
  | 0x20 =>
    let p := f 42 30
    let k := 32 * f 29 20
    let afmt := Fmt.ofCode (f 49 47)
    let bfmt := Fmt.ofCode (f 52 50)
    let zero := bitAt w 45
    let dcen := bitAt w 57
    firstFail [(f 13 8 = 0 || decide (32 < f 13 8), 0x24), (f 19 14 = 0 || decide (32 < f 19 14), 0x24),
      (f 29 20 = 0 || decide (512 < f 29 20), 0x24), (p = 0 || decide (4096 < p), 0x24),
      (decide (1 < p) && decide (f 44 43 % 2 = 1), 0x25), (decide (1 < p) && !zero, 0x25),
      (!pairOk afmt bfmt, 0x26), (!scaleOk afmt (f 54 53), 0x27), (!scaleOk bfmt (f 56 55), 0x27),
      (decide (1 < p) && !dcen, 0x25),
      (f 84 73 = 0 || decide (16 * f 84 73 < packedBytes afmt.width k), 0x2A),
      (f 96 85 = 0 || (!dcen && decide (16 * f 96 85 < 4 * f 19 14)), 0x2A)]
  | 0x21 => firstFail [(f 31 11 % 64 ≠ 0, 0x29)]
  | 0x40 => firstFail [(f 22 16 = 0 || decide (64 < f 22 16), 0x33)]
  | 0x41 => firstFail [(f 24 20 = 0 || decide (16 < f 24 20), 0x33), (decide (16 < f 19 16 + f 24 20), 0x22)]
  | 0x50 => firstFail [(!bitAt w 29 && f 95 64 = 0, 0x35)]
  | 0x52 => firstFail [(!bitAt w 29 && f 95 64 = 0, 0x35)]
  | _ =>
    if op = 0x10 ∨ op = 0x11 then
      firstFail [(f 28 16 = 0 || decide (4096 < f 28 16), 0x2F), (f 43 29 = 0 || decide (24576 < f 43 29), 0x2F)]
    else if 0x30 ≤ op ∧ op ≤ 0x3E then
      let twoSrc := decide (op ≤ 0x35) || op = 0x38
      let akind := f 38 37
      let bkind := f 40 39
      let akOk := if op = 0x3D then akind = 0 else if op = 0x3E then akind = 3 else kindOk fmtA akind
      let bkOk := if op = 0x3D then bkind = 0 else if twoSrc then kindOk fmtB bkind else true
      let sub := f 45 41
      firstFail [(l = 0 || decide (65536 < l), 0x2F),
        (op = 0x3D && fmtD ≠ fmtA, 0x2E),
        (f 35 34 = 3, 0x2C),
        (ovfm && !fmtD.hasInf, 0x2D),
        (!akOk, 0x27), (!bkOk, 0x27),
        ((op = 0x38 && decide (6 < sub)) || (op = 0x3B && decide (14 < sub)) || (op = 0x3C && decide (4 < sub)), 0x23),
        (dkind = 3 || (dkind = 2 && op ≠ 0x3A) || (dkind = 1 && !fmtD.isMx) || (dkind = 2 && fmtD ≠ .int8), 0x27),
        (ovfm && dkind ≠ 0, 0x2D),
        (dkind = 1 && l % 32 ≠ 0, 0x2F),
        (op = 0x3A && dkind = 2 && (decide (f 76 60 < 32) || decide (65536 < f 76 60) || l % f 76 60 ≠ 0), 0x2F),
        (op = 0x3D && (f 76 60 = 0 || decide (65536 < f 76 60)), 0x2F)]
    else none

/-- The checks a word alone decides: opcode, reserved bits, fields (R192, R193). -/
def wordCheck (w : Insn) : Option Nat :=
  if !isOpcode (opOf w) then some 0x20
  else if reservedSet w then some 0x21
  else fieldChecks w

/-- One register as a mask bit. -/
def regBit (r : Nat) : Nat := 2 ^ (r % 16)

/-- Registers an instruction reads, as a mask (R195). -/
def regsRead (w : Insn) : Nat :=
  let op := opOf w
  let f (hi lo : Nat) := ifld w hi lo
  let b (i : Nat) : Bool := bitAt w i
  match op with
  | 0x03 => regBit (f 15 12) ||| (if b 20 then 0 else regBit (f 19 16))
  | 0x04 => if b 20 then regBit (f 15 12) else 0
  | 0x06 => regBit (f 15 12) ||| regBit (f 19 16)
  | 0x10 => regBit (f 11 8) ||| regBit (f 15 12)
  | 0x11 => regBit (f 11 8) ||| regBit (f 15 12)
  | 0x20 => regBit (f 64 61) ||| regBit (f 68 65) ||| regBit (f 72 69)
  | 0x40 => regBit (f 26 23) ||| (if b 27 then regBit (f 31 28) else 0)
  | 0x41 => (2 ^ (f 24 20) - 1) * 2 ^ (f 19 16) % 65536
  | 0x50 => if b 29 then regBit (f 24 21) else 0
  | 0x51 => if b 29 then regBit (f 24 21) else 0
  | 0x52 => if b 29 then regBit (f 24 21) else 0
  | 0x55 => regBit (f 24 21)
  | 0x60 => if b 8 && b 17 then regBit (f 16 13) else 0
  | 0x70 => regBit (f 19 16)
  | 0x71 => regBit (f 19 16)
  | _ =>
    if 0x30 ≤ op ∧ op ≤ 0x3E then
      let two := decide (op ≤ 0x35) || op = 0x38 || op = 0x39 || op = 0x3D
      regBit (f 49 46) ||| (if two then regBit (f 53 50) else 0) ||| regBit (f 57 54)
    else 0

/-- Registers an instruction writes, as a mask (R195, R219). -/
def regsWritten (w : Insn) : Nat :=
  let f (hi lo : Nat) := ifld w hi lo
  match opOf w with
  | 0x02 => regBit (f 11 8)
  | 0x03 => regBit (f 11 8)
  | 0x07 => regBit (f 11 8)
  | 0x42 => 65536 - 2 ^ (f 17 14)
  | 0x52 => regBit (f 28 25)
  | 0x54 => regBit (f 28 25)
  | _ => 0

/-- An MMA operand register (R209): base, scale base, stride and scale stride in bytes. -/
structure MmaOperand where
  base : Nat
  scale : Nat
  stride : Nat
  scaleStride : Nat
  deriving DecidableEq, Repr

/-- The packing of R209. -/
def mmaOperand (x : Word) : MmaOperand :=
  { base := 64 * bitsOf x 0 15, scale := 64 * bitsOf x 15 15, stride := 64 * bitsOf x 30 15, scaleStride := 64 * bitsOf x 45 15 }

/-- Element address of a vector operand register (R213). -/
def vecEaddr (x : Word) : Nat := bitsOf x 0 21
/-- Scale address of a vector operand register (R213). -/
def vecSaddr (x : Word) : Nat := bitsOf x 21 21

/-- The class of an operand pair's accumulator (R154). -/
def pairInt (w : Insn) : Bool := Fmt.ofCode (ifld w 49 47) == .int8

end Sys2Proof.Machine
end

