-- ==== Sys2Proof/Machine/Flags.lean ====
section
/-! DEFINITION. ALU functions, branch conditions, CMP relations, and the function table (R173, R177, R178, R197-R199). -/
namespace Sys2Proof.Machine

/-- The ALU functions of R198, mod 2^64; shifts use bits [5:0] of B. -/
def aluFn (sub : Nat) (a b : Word) : Word :=
  match sub with
  | 0 => a + b
  | 1 => a - b
  | 2 => a &&& b
  | 3 => a ||| b
  | 4 => a ^^^ b
  | 5 => a <<< (b.toNat % 64)
  | 6 => a >>> (b.toNat % 64)
  | 7 => a.sshiftRight (b.toNat % 64)
  | 8 => a * b
  | 9 => if a.toNat ≤ b.toNat then a else b
  | 10 => if a.toNat ≤ b.toNat then b else a
  | 11 => if a.toInt ≤ b.toInt then a else b
  | 12 => if a.toInt ≤ b.toInt then b else a
  | 13 => if a.toNat < b.toNat then 1 else 0
  | 14 => if a.toInt < b.toInt then 1 else 0
  | _ => BitVec.ofNat 64 (a.toNat * b.toNat / 2 ^ 64)

/-- The BR conditions of R199. -/
def brHolds (sub : Nat) (a b : Word) : Bool :=
  match sub with
  | 0 => true
  | 1 => a == b
  | 2 => a != b
  | 3 => decide (a.toNat < b.toNat)
  | 4 => decide (b.toNat ≤ a.toNat)
  | 5 => decide (a.toInt < b.toInt)
  | 6 => decide (b.toInt ≤ a.toInt)
  | 7 => a == 0
  | _ => a != 0

/-- The CMP relations of R173 and R215. -/
def cmpHolds (sub : Nat) (x y : Num) : Bool :=
  let un := x.isNan || y.isNan
  match sub with
  | 0 => numEq x y
  | 1 => un || !numEq x y
  | 2 => numLt x y
  | 3 => numLt x y || numEq x y
  | 4 => numLt y x
  | 5 => numLt y x || numEq x y
  | _ => un

/-- What R178 fixes of a function at special inputs; codes of R177. -/
def funcSpecial (code : Nat) (x : Num) : Option Num :=
  let one : Num := .fin false 1 0
  let gated := code = 2 || code = 3 || code = 4
  match x with
  | .nan => some .nan
  | .inf false =>
    if code = 11 || code = 12 then some .zero
    else if code = 5 || code = 6 || code = 14 then some one
    else some (.inf false)
  | .inf true =>
    if code = 7 || code = 8 || code = 5 then some .zero
    else if code = 9 || code = 10 || code = 13 || code = 12 then some .nan
    else if code = 11 || gated then some (.fin true 0 0)
    else if code = 6 || code = 14 then some (.fin true 1 0)
    else some (.inf true)
  | .fin n m _ =>
    if m = 0 then
      (if code = 9 || code = 10 then some (.inf true)
       else if code = 11 || code = 12 then some (.inf n)
       else if code = 13 then some (.fin n 0 0)
       else none)
    else if n && (code = 9 || code = 10 || code = 12 || code = 13) then some .nan
    else none

/-- The functions of R177 on FP32: identity, ReLU and square root exactly; the others as the implementation computes
them within the table's errors (`funcBounded`), and as R178 gives at special inputs. -/
def funcEval (code : Nat) (x : Num) : Num :=
  match code with
  | 0 => x
  | 1 => (match x with
    | .nan => .nan
    | .inf n => if n then .zero else .inf false
    | .fin n m e => if n || m = 0 then .zero else .fin n m e)
  | 13 => sqrtF32 x
  | c => match funcSpecial c x with
    | some y => y
    | none => match x with
      | .fin n m e => funcBounded c (BitVec.ofNat 32 (f32Bits x)) n m e
      | .nan => .nan
      | .inf _ => .nan

end Sys2Proof.Machine
end

