-- ==== Sys2Proof/Machine/Issue.lean ====
section
/-! DEFINITION. Issue: the checks of R192 and R629, hazards and stalls of R78-R79 and R195, and what every issue does
(R76-R94, R192-R195, R201-R203). -/
namespace Sys2Proof.Machine

/-- The operation codes of Retriever-route packets aside, what an instruction is issued with: core, stream, its PC,
the word, and the registers its layout names first, second and third. -/
structure Issued where
  c : Nat
  i : Nat
  pc : BitVec 12
  w : Insn
  ra : Word
  rb : Word
  rd : Word

/-- The registers of a layout's operands, read in the cycle of issue (R195): XH, XS for FETCH and STORE; XA, XB, XD for
matrix and vector; XS, XN for SEND; the one source register elsewhere. -/
def operandRegs (w : Insn) (t : Stream) : Word × Word × Word :=
  let f (hi lo : Nat) := t.reg (ifld w hi lo)
  let op := opOf w
  if op ≤ 0x07 then (f 15 12, f 19 16, 0)
  else if op = 0x10 ∨ op = 0x11 then (f 11 8, f 15 12, 0)
  else if op = 0x20 then (f 64 61, f 68 65, f 72 69)
  else if 0x30 ≤ op ∧ op ≤ 0x3E then (f 49 46, f 53 50, f 57 54)
  else if op = 0x40 then (f 26 23, f 31 28, 0)
  else if 0x50 ≤ op ∧ op ≤ 0x55 then (f 24 21, 0, 0)
  else if op = 0x60 then (f 16 13, 0, 0)
  else if op = 0x70 ∨ op = 0x71 then (f 19 16, 0, 0)
  else (0, 0, 0)

/-- KIND of a stage word (R164). -/
def stKind (w : Word) : Nat := bitsOf w 60 4
/-- VSRC of a stage word. -/
def stVsrc (w : Word) : Nat := bitsOf w 58 2
/-- FMT of a stage word. -/
def stFmt (w : Word) : Fmt := Fmt.ofCode (bitsOf w 55 3)
/-- RMODE of a stage word. -/
def stRmode (w : Word) : Nat := bitsOf w 53 2
/-- OVFM of a stage word. -/
def stOvfm (w : Word) : Bool := bitAt w 52
/-- SMODE of a stage word. -/
def stSmode (w : Word) : Nat := bitsOf w 50 2
/-- FUNC of a stage word. -/
def stFunc (w : Word) : Nat := bitsOf w 45 5

/-- The eight stage words of drain configuration `d` (R162). -/
def Core.chain (k : Core) (d : Nat) : List Word := (List.range 8).map (fun j => tabGet 0 k.dc (8 * d + j))

/-- The stages before the first END (R167). -/
def liveStages (l : List Word) : List Word := l.takeWhile (fun w => stKind w ≠ 0)

/-- The chain an MMA word drains through: none with DCEN = 0 (R162). -/
def Core.chainOf (k : Core) (w : Insn) : List Word := if bitAt w 57 then liveStages (k.chain (ifld w 60 58)) else []

/-- Whether a chain transposes (R166). -/
def transposes (l : List Word) : Bool := l.any (fun w => stKind w = 8)
/-- The QUANT stage of a chain. -/
def quantOf (l : List Word) : Option Word := l.find? (fun w => stKind w = 7)
/-- The RESID stage of a chain. -/
def residsOf (l : List Word) : List Word := l.filter (fun w => stKind w = 4)
/-- The output format of a chain: FP32 without QUANT (R167). -/
def outFmt (l : List Word) : Fmt := match quantOf l with | some q => stFmt q | none => .fp32
/-- Output rows of one problem. -/
def outRows (w : Insn) (l : List Word) : Nat := if transposes l then ifld w 19 14 else ifld w 13 8
/-- Elements in an output row. -/
def outCols (w : Insn) (l : List Word) : Nat := if transposes l then ifld w 13 8 else ifld w 19 14
/-- Bytes in an output row. -/
def outRowBytes (w : Insn) (l : List Word) : Nat := packedBytes (outFmt l).width (outCols w l)
/-- RPITCH of a RESID stage in bytes (R165). -/
def residPitch (st : Word) : Nat := 16 * bitsOf st 0 12

/-- The violations of R164-R167 in eight stage words (R211). FMT of a SCALE or BIAS stage without a vector is unused (log entry 36). -/
def stageBad (w : Word) : Bool :=
  let k := stKind w
  let low (n : Nat) : Nat := bitsOf w 0 n
  let fmtUsed := k = 1 || k = 2 || k = 4 || k = 5 || k = 7
  let vec := k = 1 || k = 2
  let rq := k = 5 || k = 7
  decide (8 < k) || bitsOf w 42 3 ≠ 0 ||
  (!vec && stVsrc w ≠ 0) || stVsrc w = 3 ||
  (!fmtUsed && bitsOf w 55 3 ≠ 0) || (vec && stVsrc w = 0 && bitsOf w 55 3 ≠ 0) ||
  (!rq && (stRmode w ≠ 0 || stOvfm w)) || stRmode w = 3 ||
  (k ≠ 7 && stSmode w ≠ 0) || decide (1 < stSmode w) ||
  (k ≠ 3 && stFunc w ≠ 0) || decide (14 < stFunc w) ||
  (vec && stVsrc w = 0 && bitsOf w 32 10 ≠ 0) ||
  (vec && stVsrc w ≠ 0 && (low 21 ≠ 0 || bitsOf w 21 21 % 4 ≠ 0)) ||
  (k = 4 && (bitsOf w 12 30 ≠ 0 || low 12 = 0)) ||
  (k = 6 && (bitsOf w 32 10 ≠ 0 ||
    numLt (decodeNum .bf16 (bitsOf w 16 16)) (decodeNum .bf16 (bitsOf w 0 16)) ||
    (decodeNum .bf16 (bitsOf w 16 16)).isNan || (decodeNum .bf16 (bitsOf w 0 16)).isNan)) ||
  ((k = 0 || k = 3 || k = 5 || k = 7 || k = 8) && low 42 ≠ 0) ||
  (rq && stFmt w == .fp32) || (rq && stOvfm w && !(stFmt w).hasInf) ||
  (k = 7 && stSmode w = 1 && (!(stFmt w).isMx || stOvfm w))

/-- Whether eight stage words break R164-R167 (R211). -/
def chainBad (l : List Word) : Bool :=
  let live := liveStages l
  l.any stageBad ||
  (l.drop live.length).any (fun w => stKind w ≠ 0) ||
  decide (1 < (live.filter (fun w => stKind w = 7)).length) ||
  ((live.dropWhile (fun w => stKind w ≠ 7)).drop 1).any (fun w => stKind w ≠ 8) ||
  (live.dropLast).any (fun w => stKind w = 8)

/-- Whether a SCALE or BIAS stage names a vector that does not begin below the fence (R165). -/
def stagesAbove (fence : Nat) (l : List Word) : Bool :=
  l.any (fun w => (stKind w = 1 || stKind w = 2) && stVsrc w ≠ 0 && decide (fence ≤ bitsOf w 21 21))

/-- The range from the lower to the upper end of pieces, each a base and a length (R153, R213). -/
def spanOf (l : List (Nat × Nat)) (write : Bool) : List SRange :=
  match l.filter (fun x => x.2 ≠ 0) with
  | [] => []
  | x :: t =>
    let lo := t.foldl (fun a y => min a y.1) x.1
    let hi := t.foldl (fun a y => max a (y.1 + y.2)) (x.1 + x.2)
    [{ base := lo, len := hi - lo, write := write }]

/-- Pieces of a strided operand over P problems. -/
def strided (base stride len p : Nat) : List (Nat × Nat) := if len = 0 then [] else [(base, (p - 1) * stride + len)]

/-- The scratchpad ranges an instruction declares (R79, R153, R207, R211, R213, R217). -/
def declaredRanges (k : Core) (x : Issued) : List SRange :=
  let w := x.w
  let f (hi lo : Nat) := ifld w hi lo
  let op := opOf w
  if op = 0x10 ∨ op = 0x11 then
    let rb := 64 * f 43 29
    [{ base := bitsOf x.rb 0 21, len := (f 28 16 - 1) * (64 * bitsOf x.rb 21 15) + rb, write := decide (op = 0x10) }]
  else if op = 0x20 then
    let m := f 13 8
    let n := f 19 14
    let g := f 29 20
    let p := f 42 30
    let a := mmaOperand x.ra
    let b := mmaOperand x.rb
    let d := mmaOperand x.rd
    let afmt := Fmt.ofCode (f 49 47)
    let bfmt := Fmt.ofCode (f 52 50)
    let aScale := if f 54 53 = 1 then m * g else if f 54 53 = 2 then 4 * m else 0
    let bScale := if f 56 55 = 1 then n * g else if f 56 55 = 2 then 4 * n else 0
    let ch := k.chainOf w
    let rows := outRows w ch
    let dScale := match quantOf ch with | some q => if stSmode q = 1 then rows else 0 | none => 0
    spanOf (strided a.base a.stride ((m - 1) * (16 * f 84 73) + packedBytes afmt.width (32 * g)) p ++ strided a.scale a.scaleStride aScale p) false
    ++ spanOf (strided b.base b.stride (packedBytes bfmt.width (32 * g * n)) p ++ strided b.scale b.scaleStride bScale p) false
    ++ spanOf (strided d.base d.stride ((rows - 1) * (16 * f 96 85) + outRowBytes w ch) p
        ++ (residsOf ch).flatMap (fun r => strided d.base d.stride ((rows - 1) * residPitch r + packedBytes (stFmt r).width (outCols w ch)) p)
        ++ strided d.scale d.scaleStride dScale p) true
  else if op = 0x21 then [{ base := f 31 11, len := 64, write := false }]
  else if 0x30 ≤ op ∧ op ≤ 0x3E then
    let l := f 24 8
    let src (r : Word) (kind : Nat) (fm : Fmt) (n : Nat) : List SRange :=
      if kind = 3 then []
      else spanOf ([(vecEaddr r, packedBytes fm.width n)] ++
        (if kind = 1 then [(vecSaddr r, ceilDiv n 32)] else if kind = 2 then [(vecSaddr r, 4)] else [])) false
    let fa := Fmt.ofCode (f 30 28)
    let fb := Fmt.ofCode (f 33 31)
    let fd := Fmt.ofCode (f 27 25)
    let dk := f 59 58
    let two := decide (op ≤ 0x35) || op = 0x38
    let dest : List SRange :=
      if op = 0x38 then spanOf [(vecEaddr x.rd, ceilDiv l 8)] true
      else if op = 0x3C then spanOf [(vecEaddr x.rd, 4)] true
      else spanOf ([(vecEaddr x.rd, packedBytes fd.width l)] ++
        (if dk = 1 then [(vecSaddr x.rd, l / 32)] else if dk = 2 then [(vecSaddr x.rd, 4 * (l / max 1 (f 76 60)))] else [])) true
    (if op = 0x3D then spanOf [(vecEaddr x.ra, packedBytes fa.width (f 76 60))] false
        ++ spanOf [(vecEaddr x.rb, (if bitAt w 77 then 4 else 2) * l)] false
      else src x.ra (f 38 37) fa l)
    ++ (if two then src x.rb (f 40 39) fb l else if op = 0x39 then spanOf [(vecEaddr x.rb, ceilDiv l 8)] false else [])
    ++ dest
  else if op = 0x40 then [{ base := bitsOf x.ra 0 21, len := 256 * f 22 16, write := false }]
  else []

/-- Two scoreboard ranges conflict: a shared 64 B granule and at least one write (R79). -/
def rangeConflict (a b : SRange) : Bool :=
  (a.write || b.write) && decide (a.base / 64 ≤ (b.base + b.len - 1) / 64) && decide (b.base / 64 ≤ (a.base + a.len - 1) / 64)

/-- Ranges held by instructions in flight (R79, R87). -/
def Core.heldRanges (k : Core) : List SRange := k.ops.flatMap (fun o => o.ranges) ++ k.mesh.flatMap (fun o => o.ranges)

/-- Whether windows cover the bytes from `a` to before `e`, one window after another (fuel: the windows). -/
def covered (l : List Window) : Nat → Nat → Nat → Bool
  | 0, a, e => decide (e ≤ a)
  | f + 1, a, e => decide (e ≤ a) || l.any (fun v =>
      decide (v.off4k * 4096 ≤ a) && decide (a < (v.off4k + v.len4k) * 4096) && covered l f ((v.off4k + v.len4k) * 4096) e)

/-- The windows test of R206 and R368 on one byte range of one stack: each byte lies in a window. -/
def inWindow (l : List Window) (a n : Nat) (needWrite : Bool) : Bool :=
  let l := l.filter (fun v => fieldOf v.hbmStacks (stackOf a) 1 == 1 && (!needWrite || v.writable))
  covered l l.length (offsetOf a) (offsetOf a + n)

/-- Checks on values known only at issue, in the order of the fields they come from (R192, R193, R205, R213, R217, R221). -/
def registerChecks (x : Issued) : Option Nat :=
  let w := x.w
  let f (hi lo : Nat) := ifld w hi lo
  let op := opOf w
  if op = 0x10 ∨ op = 0x11 then
    let h := bitsOf x.ra 0 40
    let hp := 64 * bitsOf x.ra 40 24
    let rb := 64 * f 43 29
    let rows := f 28 16
    let s := bitsOf x.rb 0 21
    let sp := 64 * bitsOf x.rb 21 15
    firstFail [(h % 64 ≠ 0 || decide (stackBytes ≤ offsetOf h), 0x30),
      (op = 0x11 && decide (1 < rows) && decide (hp < rb), 0x2A),
      (decide (stackBytes < offsetOf h + (rows - 1) * hp + rb), 0x30),
      (s % 64 ≠ 0, 0x29), (decide (1 < rows) && decide (sp < rb), 0x2A)]
  else if 0x30 ≤ op ∧ op ≤ 0x3E then
    let two := decide (op ≤ 0x35) || op = 0x38
    let chk (r : Word) (kind : Nat) : List (Bool × Nat) :=
      if kind = 3 then [] else [(vecEaddr r % 64 ≠ 0, 0x29), (kind = 2 && vecSaddr r % 4 ≠ 0, 0x29)]
    firstFail (chk x.ra (f 38 37) ++ (if two then chk x.rb (f 40 39) else if op = 0x39 ∨ op = 0x3D then chk x.rb 0 else [])
      ++ chk x.rd (if op = 0x38 ∨ op = 0x3C then 0 else f 59 58))
  else if op = 0x40 then firstFail [(bitsOf x.ra 0 21 % 64 ≠ 0, 0x29), (bitsOf x.ra 21 21 % 64 ≠ 0, 0x29)]
  else if op = 0x50 ∨ op = 0x52 then firstFail [(bitAt w 29 && bitsOf x.ra 0 32 = 0, 0x35)]
  else none

/-- The configuration checks of R629, in ascending code. -/
def configChecks (k : Core) (pr : Program) (x : Issued) : Option Nat :=
  let w := x.w
  let f (hi lo : Nat) := ifld w hi lo
  let op := opOf w
  let kind (n : Nat) := rKind (k.route n)
  match op with
  | 0x10 =>
    let h := bitsOf x.ra 0 40
    let hp := 64 * bitsOf x.ra 40 24
    let rb := 64 * f 43 29
    firstFail [((List.range (f 28 16)).any (fun i => !inWindow pr.windows (h + i * hp) rb false), 0x31)]
  | 0x11 =>
    let h := bitsOf x.ra 0 40
    let hp := 64 * bitsOf x.ra 40 24
    let rb := 64 * f 43 29
    firstFail [((List.range (f 28 16)).any (fun i => !inWindow pr.windows (h + i * hp) rb true), 0x31)]
  | 0x20 =>
    let ch := k.chainOf w
    let cls : AccClass := if pairInt w then .int32 else .fp32
    let dp := 16 * f 96 85
    firstFail [(!bitAt w 45 && decide (tabGet AccClass.fp32 k.accClass (f 44 43) ≠ cls), 0x28),
      (bitAt w 57 && (decide (dp < outRowBytes w ch) ||
        (residsOf ch).any (fun r => decide (dp < packedBytes (stFmt r).width (outCols w ch)))), 0x2A),
      (match quantOf ch with | some q => stSmode q = 1 && outCols w ch ≠ 32 | none => false, 0x2B)]
  | 0x40 =>
    let r := k.route (f 15 8)
    firstFail [(rKind r ≠ 1 && rKind r ≠ 6, 0x32),
      (decide (64 * rWin r < bitsOf x.ra 21 21 + 256 * f 22 16), 0x33)]
  | 0x41 => firstFail [(kind (f 15 8) ≠ 2 && kind (f 15 8) ≠ 3, 0x32)]
  | 0x42 => firstFail [(!bConf (k.bowl (f 13 8)), 0x34)]
  | 0x50 => firstFail [(bitAt w 12 && kind (f 20 13) ≠ 4, 0x32)]
  | 0x52 => firstFail [(bitAt w 12 && kind (f 20 13) ≠ 4, 0x32)]
  | 0x54 => firstFail [(bitAt w 12 && kind (f 20 13) ≠ 5, 0x32)]
  | 0x55 => firstFail [(bitAt w 12 && kind (f 20 13) ≠ 5, 0x32)]
  | _ =>
    if op = 0x70 ∨ op = 0x71 then
      let c := bitsOf x.ra 0 9
      firstFail [(kind (f 15 8) ≠ 6, 0x32),
        (c % 16 ≠ packOf (rCore (k.route (f 15 8))) || decide (c < pr.ctxFirst) || decide (pr.ctxFirst + pr.ctxCount ≤ c), 0x36)]
    else none

/-- The range and fence checks (R94, R192). -/
def rangeChecks (k : Core) (l : List SRange) : Option Nat :=
  firstFail [(l.any (fun r => decide (saveBase < r.base + r.len)), 0x01),
    (l.any (fun r => r.write && decide (r.base < k.fence)), 0x02)]

/-- The reservation key of a stream's claim route (R327). -/
def claimKey (stream route : Nat) : Nat := stream * 256 + route

/-- The state checks of R192, in ascending code. -/
def stateChecks (k : Core) (x : Issued) : Option Nat :=
  let w := x.w
  let f (hi lo : Nat) := ifld w hi lo
  let op := opOf w
  let loc := !bitAt w 12
  let col := k.collar (f 11 8)
  match op with
  | 0x42 => firstFail [(bReader (k.bowl (f 13 8)) ≠ x.i, 0x04)]
  | 0x50 => firstFail [(loc && !col.configured, 0x05), (loc && col.ledgered, 0x0A)]
  | 0x51 => firstFail [(!col.configured, 0x05)]
  | 0x52 => firstFail [(loc && !col.configured, 0x05), (loc && col.ledgered, 0x0A)]
  | 0x53 => firstFail [(!col.configured, 0x05), (col.ledgered, 0x0A)]
  | 0x54 => firstFail [(loc && !col.configured, 0x05), (loc && !col.ledgered, 0x06),
      (!loc && decide (tabGet 0 k.claimRes (claimKey x.i (f 20 13)) ≤ tabGet 0 (k.stream x.i).claimsUsed (f 20 13)), 0x07)]
  | 0x55 => firstFail [(loc && !col.configured, 0x05), (loc && !col.ledgered, 0x06)]
  | 0x60 => firstFail [(bitAt w 8 && !(k.collar (f 12 9)).configured, 0x05)]
  | _ => none

/-- The issue check of R192: the code of the first check that fails. -/
def issueCheck (k : Core) (pr : Program) (x : Issued) : Option Nat :=
  match wordCheck x.w with
  | some e => some e
  | none => match registerChecks x with
    | some e => some e
    | none => match configChecks k pr x with
      | some e => some e
      | none => match rangeChecks k (declaredRanges k x) with
        | some e => some e
        | none => stateChecks k x

/-- The engine an opcode uses, if any (R189). -/
def engineOf (op : Nat) : Option Engine :=
  if op = 0x10 ∨ op = 0x11 then some .fetch
  else if op = 0x20 then some .matrix
  else if op = 0x21 then some .drain
  else if 0x30 ≤ op ∧ op ≤ 0x3E then some .vector
  else none

/-- Whether an instruction goes to the mesh port (R189, R203). -/
def usesMesh (w : Insn) : Bool :=
  let op := opOf w
  (0x40 ≤ op && op ≤ 0x42) || op = 0x70 || op = 0x71 || ((op = 0x50 || op = 0x52 || op = 0x54 || op = 0x55) && bitAt w 12)

/-- Whether a packet is a remote FADD or CLAIM, which completes at its reply (R202, R272). -/
def Pkt.awaitsReply (p : Pkt) : Bool := p.hdr.ptype = 0x05 && (bitsOf (nth 0 p.words 0) 32 3 = 1 || bitsOf (nth 0 p.words 0) 32 3 = 2)

/-- Registers of a core's streams that await the reply of an FADD or CLAIM (R195). -/
def Core.awaited (k : Core) : Nat :=
  (k.streams.map (fun e => (List.range 16).foldl (fun n r => n + bit01 (e.2.pending r)) 0)).sum

/-- Operations the mesh port holds: those whose packet has not entered the router, and the FADDs and CLAIMs whose reply has not come (R202, R203). -/
def Core.meshCount (k : Core) : Nat :=
  (k.mesh.filter (fun o => !o.pkt.awaitsReply)).length + (k.deferred.filter (fun d => d.pkt.isSome)).length + k.awaited

/-- Scoreboard slots in use: engine instructions and SENDs (R78, R203). -/
def Core.slots (k : Core) : Nat := k.ops.length + (k.mesh.filter (fun m => m.src.isSome)).length

/-- Whether the instruction stalls: its engine queue, the scoreboard, a range conflict, the mesh port, or a drain
configuration in use, or a multicast of its stream that waits in the mesh port (R78, R79, R163, R203, R286; log entry 35). -/
def stalls (k : Core) (x : Issued) : Bool :=
  let op := opOf x.w
  let rs := declaredRanges k x
  let dcBusy := (op = 0x21 && k.ops.any (fun o => opOf o.word = 0x20 && bitAt o.word 57 && ifld o.word 60 58 = ifld x.w 10 8)) ||
    (op = 0x20 && bitAt x.w 57 && k.ops.any (fun o => opOf o.word = 0x21 && ifld o.word 10 8 = ifld x.w 60 58))
  (match engineOf op with
    | some e => decide (4 ≤ (k.ops.filter (fun o => o.engine = e)).length) || tabGet false k.engReset (match e with
        | .matrix => 0 | .vector => 1 | .drain => 2 | .fetch => 3) || decide (16 ≤ k.slots)
    | none => (op = 0x40 || op = 0x42) && decide (16 ≤ k.slots)) ||
  rs.any (fun a => k.heldRanges.any (fun b => rangeConflict a b)) ||
  (usesMesh x.w && decide (16 ≤ k.meshCount)) || dcBusy || k.mesh.any (fun o => o.stream = x.i && o.pkt.isSvcMcast && decide (4 ≤ k.mcasts.length))

/-- The registers of a stream an instruction touches that are pending (R195). -/
def touchesPending (w : Insn) (t : Stream) : Bool := ((regsRead w ||| regsWritten w) &&& t.pend.toNat) ≠ 0

/-- What every issue does: the instruction is counted and PC advances by 1, wrapping (R116, R201, R474). -/
def noteIssue (x : Issued) (s : State) : State :=
  let again := ((s.core x.c).stream x.i).retake
  let s := s.modCore x.c (fun k =>
    { k.modStream x.i (fun t => { t with pc := x.pc + 1, retake := false, issued := t.issued + 1 }) with turn := x.i })
  if again then s
  else streamProgress x.c x.i (s.advanceCore x.c 0x04 1)

/-- The word `w` at a stream's PC with its operand registers (R195). -/
def issuedOf (c i : Nat) (k : Core) (w : Insn) : Issued :=
  let t := k.stream i
  let r := operandRegs w t
  { c := c, i := i, pc := t.pc, w := w, ra := r.1, rb := r.2.1, rd := r.2.2 }

/-- Whether the stream's pack lets it issue: not held by a re-placement, not stopped at the seam (R67, R456). -/
def mayIssue (c : Nat) (s : State) : Bool :=
  match s.progOf (packOf c) with
  | some g => !(s.prog g).held && !(s.prog g).seamHalt && !(s.core c).inReset
  | none => false

/-- Whether a stream can issue: it is Ready and nothing stalls the instruction at its PC, or the word there faults (R77, R78, R92, R195). -/
def Core.canIssue (c i : Nat) (k : Core) : Bool :=
  let t := k.stream i
  let x := issuedOf c i k (tabGet 0 k.store t.pc.toNat)
  t.st = .ready && (decide (1 < tabGet 0 k.storeErr t.pc.toNat) || !isOpcode (opOf x.w) || (!touchesPending x.w t && !stalls k x))

/-- Whether no stream that can issue comes before this one in the rotating order, which starts after the stream that issued last (R77). -/
def Core.hasTurn (c i : Nat) (k : Core) : Bool :=
  (List.range ((i + 7 - k.turn) % 8)).all (fun j => !k.canIssue c ((k.turn + 1 + j) % 8))

/-- Issue of the instruction at a stream's PC when its opcode is `op` (R76-R78, R92, R192-R195). A stream that is not
Ready, whose turn it is not, or whose word is another instruction, is left unchanged; a stalled one stays Ready. An undefined opcode and an
uncorrectable store word fault whatever instruction is commanded; a store word with more errors than its code detects
reads as a free value (R73, R246). `run` gives the instruction's own effect, after the
issue has been counted and PC advanced. -/
def issueOp (op c i : Nat) (run : Issued → State → State) (s : State) : State :=
  let k := s.core c
  let t := k.stream i
  if t.st ≠ .ready || !mayIssue c s || !k.hasTurn c i then s
  else
    let err := tabGet 0 k.storeErr t.pc.toNat
    let out := eccOutcome false err s.nonce
    if out = .uncorrectable then streamFault c i 0x09 s
    else
      let open_ := out = .miscorrected || out = .silent
      let w : Insn := if open_ then Config.freeWord s.nonce ++ Config.freeWord (s.nonce + 1) else tabGet 0 k.store t.pc.toNat
      let s := if open_ then { s with nonce := s.nonce + 2 } else s
      let x := issuedOf c i k w
      if !isOpcode (opOf x.w) then streamFault c i 0x20 s
      else if opOf x.w ≠ op then s
      else if touchesPending x.w t || stalls k x then s
      else match issueCheck k (s.coreProg c) x with
        | some code => streamFault c i code s
        | none => run x (noteIssue x s)

/-- A core's next sequence number taken. -/
def Core.takeSeq (k : Core) : Nat × Core := (k.seq, { k with seq := k.seq + 1 })

/-- An engine instruction enters its queue and takes a scoreboard slot with its ranges (R78, R79, R163). -/
def enqueueOp (e : Engine) (x : Issued) (s : State) : State :=
  let k := s.core x.c
  let o : EngOp :=
    { seq := k.seq, engine := e, stream := x.i, pc := x.pc, word := x.w, ra := x.ra, rb := x.rb, rd := x.rd,
      chain := if opOf x.w = 0x20 then k.chainOf x.w else [], ranges := declaredRanges k x,
      step := (s.pack (packOf x.c)).step, computed := 0, drained := 0, issuedReq := 0, doneReq := 0, abandoned := false }
  s.setCore x.c { k with seq := k.seq + 1, ops := k.ops ++ [o] }

/-- An engine instruction completes: its slot and ranges are freed, and what waited for it may take effect (R79, R82, R202). -/
def completeOp (c seq : Nat) (s : State) : State :=
  runDeferred c (s.modCore c (fun k => { k with ops := k.ops.filter (fun o => o.seq ≠ seq) }))

end Sys2Proof.Machine
end

