-- ==== Sys2Proof/Machine/FetchEngine.lean ====
section
/-! DEFINITION. FETCH, STORE and the fetch engine's requests and replies (R204-R207, R376-R387). -/
namespace Sys2Proof.Machine

/-- FETCH enters the fetch engine's queue (R204, R207). -/
def execFetch (core : CoreId) (stream : StreamId) (s : State) : Host.Outcome State Fault Refusal :=
  .next (issueOp 0x10 core.val stream.val (enqueueOp .fetch) s)

/-- STORE enters the fetch engine's queue (R204, R207). -/
def execStore (core : CoreId) (stream : StreamId) (s : State) : Host.Outcome State Fault Refusal :=
  .next (issueOp 0x11 core.val stream.val (enqueueOp .fetch) s)

/-- One row cut at 16 KiB-aligned HBM boundaries: HBM address, scratchpad address, length (R377; fuel: pieces). -/
def rowPieces : Nat → Nat → Nat → Nat → List (Nat × Nat × Nat)
  | 0, _, _, _ => []
  | f + 1, h, sp, n =>
    if n = 0 then []
    else
      let room := 16384 - h % 16384
      let m := min n room
      (h, sp, m) :: rowPieces f (h + m) (sp + m) (n - m)

/-- The requests of a FETCH or STORE in issue order: ascending rows, ascending addresses (R377). -/
def EngOp.requests (o : EngOp) : List (Nat × Nat × Nat) :=
  let rb := 64 * ifld o.word 43 29
  let h := bitsOf o.ra 0 40
  let hp := 64 * bitsOf o.ra 40 24
  let sb := bitsOf o.rb 0 21
  let sp := 64 * bitsOf o.rb 21 15
  (List.range (ifld o.word 28 16)).flatMap (fun i => rowPieces (rb / 16384 + 2) (h + i * hp) (sb + i * sp) rb)

/-- Tuple words of a fetch request (R378). -/
def fetchWords (wr : Bool) (len hbm tgen source tag spad : Nat) : List Word :=
  [BitVec.ofNat 64 (at_ 63 (bit01 wr) + at_ 48 (len / 64) + hbm), BitVec.ofNat 64 (at_ 32 tgen + at_ 30 source + at_ 24 tag + spad)]

/-- A fetch request packet from a core (R266, R378). -/
def fetchPkt (s : State) (c : Nat) (wr : Bool) (len hbm tgen source tag spad : Nat) (data : List Byte) : Pkt :=
  { hdr := { Hdr.zero with
      ptype := 0x09, nw := 2, long := wr, len := if wr then ceilDiv len 256 else 0, dstDev := s.device,
      dstCore := fetchRouter c (stackOf hbm), srcDev := s.device, srcCore := c, epoch := s.epochOf c }
    words := fetchWords wr len hbm tgen source tag spad, payload := fitTo 0 (if wr then 256 * ceilDiv len 256 else 0) data,
    exit := false, origin := 0 }

/-- The lowest free request tag (R376). -/
def Core.freeTag (k : Core) : Option Nat := (List.range 64).find? (fun t => k.reqs.all (fun r => r.tag ≠ t))

/-- FETCH_REQUEST_ISSUE: the next request of the first fetch instruction with requests left leaves with a free tag, when
the router's fetch buffer has room (R376-R378). -/
def execFetchRequestIssue (core : CoreId) (s : State) : Host.Outcome State Fault Refusal :=
  let c := core.val
  let k := s.core c
  match k.ops.find? (fun o => o.engine = .fetch && decide (o.issuedReq < o.requests.length)), k.freeTag with
  | some o, some tag =>
    if tabGet false k.engReset 3 || (k.input .l).fetch.length ≥ 2 then .next s
    else
      let r := nth (0, 0, 0) o.requests o.issuedReq
      let wr := opOf o.word = 0x11
      let gen := tabGet 0 k.tagGen tag
      let send (data : List Byte) (s : State) : State :=
        let s := s.modCore c (fun k => { k with
          ops := k.ops.map (fun q => if q.seq = o.seq then { q with issuedReq := q.issuedReq + 1 } else q)
          reqs := k.reqs ++ [{ tag := tag, gen := gen, op := o.seq, stream := o.stream, pc := o.pc, hbm := r.1, spad := r.2.1, len := r.2.2, store := wr }] })
        let s := if wr then s.bumpCore c 0x81 r.2.2 else s
        enterL c (fetchPkt s c wr r.2.2 r.1 gen.toNat 0 tag r.2.1 data) s
      if wr then
        match readPort c 6 r.2.1 r.2.2 s with
        | (some d, s) => .next (send d s)
        | (none, s) => .next s
      else .next (send [] s)
  | _, _ => .next s

/-- FETCH_REPLY: a reply for the core's fetch engine is discarded for a stale tag generation, written to scratchpad, or
faults the stream that issued the request; a STORE's answer only frees its tag (R202, R375, R379, R387). -/
def execFetchReply (core : CoreId) (s : State) : Host.Outcome State Fault Refusal :=
  let c := core.val
  match lqHead c s with
  | none => .next s
  | some p =>
    let w0 := nth 0 p.words 0
    let w1 := nth 0 p.words 1
    if p.hdr.ptype ≠ 0x0A || bitsOf w1 30 2 ≠ 0 then .next s
    else
      let s := lqPop c s
      let k := s.core c
      let tag := bitsOf w1 24 6
      if bitsOf w1 32 8 ≠ (tabGet 0 k.tagGen tag).toNat then .next (s.bumpCore c 0x82 1)
      else match k.reqs.find? (fun r => r.tag = tag) with
        | none => .next s
        | some r =>
          let status := bitsOf w0 56 8
          let s := s.modCore c (fun k => { k with reqs := k.reqs.filter (fun q => q.tag ≠ tag) })
          if status = 0 then
            if r.store then .next (s.advanceCore c 0x91 1)
            else
              let s := (writePort c 6 r.spad (p.payload.take r.len) s).bumpCore c 0x80 r.len
              let s := s.modCore c (fun k => { k with
                ops := k.ops.map (fun q => if q.seq = r.op then { q with doneReq := q.doneReq + 1 } else q) })
              .next (s.advanceCore c 0x91 1)
          else
            let s := s.modCore c (fun k => { k with ops := k.ops.filter (fun q => q.seq ≠ r.op) })
            if ((k.stream r.stream).st).live then .next (streamFaultAt c r.stream r.pc (if status = 1 then 0xA0 else 0xA1) s)
            else .next s

/-- FETCH_COMPLETE: a FETCH whose bytes are all written, or a STORE whose writes are all accepted, completes (R202). -/
def execFetchComplete (core : CoreId) (s : State) : Host.Outcome State Fault Refusal :=
  let c := core.val
  match (s.core c).ops.find? (fun o => o.engine = .fetch && o.doneReq = o.requests.length) with
  | some o => .next (completeOp c o.seq s)
  | none => .next s

end Sys2Proof.Machine
end

