-- ==== Sys2Proof/Machine/Hbm.lean ====
section
/-! DEFINITION. The HBM stacks: acceptance, service, RFM, recalibration, retraining, and ring-port access (R364-R389). -/
namespace Sys2Proof.Machine

/-- REQUEST_ACCEPT: the controller takes the next waiting request in rotating order; a stack that does not serve answers
with STATUS 2, and a recalibrating one accepts none (R373, R383, R384, R386). -/
def execRequestAccept (stack : StackId) (s : State) : Host.Outcome State Fault Refusal :=
  let st := stack.val
  let k := s.stack st
  if k.state = .recalibrating then .next s
  else match (rotating k.turn).findSome? k.offered with
    | none => .next s
    | some r => .next (takeReq st r s)

/-- Whether two requests share a 64 B line (R373). -/
def shareLine (a b : StackReq) : Bool := a.touches (reqAddr b.pkt) (reqLen b.pkt)

/-- STACK_SERVE: the controller serves the accepted request at place `pick`, unless an earlier accepted one shares a line
with it, and replies (R373, R375, R379, R383, R386). -/
def execStackServe (stack : StackId) (pick : Fin 256) (s : State) : Host.Outcome State Fault Refusal :=
  let st := stack.val
  let k := s.stack st
  match k.accepted[pick.val]? with
  | none => .next s
  | some r =>
    let reply := fetchReplyPkt r.pkt 0 []
    let e := replyEntry st r.source
    if (k.accepted.take pick.val).any (fun q => shareLine q r) || k.state = .recalibrating || !((s.core e.1).input e.2).accepts reply then .next s
    else .next (serveReq st r (s.setStack st { k with accepted := k.accepted.eraseIdx pick.val }))

/-- RFM: a bank whose activation count has reached half of RAAIMT receives an RFM command (R374). -/
def execRfm (stack : StackId) (bank : Fin 2048) (s : State) : Host.Outcome State Fault Refusal :=
  if Config.raaimt ≤ 2 * tabGet 0 (s.stack stack.val).activations bank.val then .next (issueRfm stack.val bank.val s) else .next s

/-- Begin a recalibration of a Serving stack (R384). -/
def startRecal (st : Nat) (s : State) : State :=
  if (s.stack st).state = .serving then s.modStack st (fun k => { k with state := .recalibrating, calSince := s.clock }) else s

/-- STACK_COMMAND 1 (R384). -/
def recalibrate (st : Nat) (s : State) : Nat × State := (stDone, startRecal st s)

/-- RECALIBRATE: STACK_COMMAND 1 (R384). -/
def execRecalibrate (stack : StackId) (s : State) : Host.Outcome State Fault Refusal := .next (s.command (recalibrate stack.val))

/-- Whether two F32 temperatures differ by 10 °C or more (R384). -/
def tempMoved (a b : BitVec 32) : Bool :=
  let d := (subF32 (decodeNum .fp32 a.toNat) (decodeNum .fp32 b.toNat)).abs
  !d.isNan && !numLt d (.fin false 10 0)

/-- TEMP_RECALIBRATION: the stack's temperature report, and a recalibration once it has moved by 10 °C (R384). -/
def execTempRecalibration (stack : StackId) (temp : BitVec 32) (s : State) : Host.Outcome State Fault Refusal :=
  let s := s.modStack stack.val (fun k => { k with temp := temp })
  .next (if tempMoved temp (s.stack stack.val).tempAtCal then startRecal stack.val s else s)

/-- Whether a loaded program has a window in a stack (R385). -/
def State.stackWindowed (s : State) (st : Nat) : Bool :=
  s.progs.any (fun e => e.2.packs ≠ 0 && e.2.windows.any (fun w => fieldOf w.hbmStacks st 1 == 1))

/-- Whether a retrain is refused as busy (R385). -/
def State.retrainBusy (s : State) (st : Nat) : Bool :=
  s.load.state = .checking || s.load.state = .installing || s.stackWindowed st || (st = 0 && s.faults.sniffState = 1)

/-- STACK_COMMAND 2 begins a full retrain of a Serving stack unless it is refused (R385). -/
def retrain (st : Nat) (s : State) : Nat × State :=
  if s.retrainBusy st then (stBusy, s)
  else if (s.stack st).state = .serving then (stDone, s.modStack st (fun k => { k with state := .retraining }))
  else (stDone, s)

/-- RETRAIN: STACK_COMMAND 2 (R385). -/
def execRetrain (stack : StackId) (s : State) : Host.Outcome State Fault Refusal := .next (s.command (retrain stack.val))

/-- A stack becomes Failed: contents lost, fault 0xD9 and alert bit 5 (R386, R469, R472). -/
def failStack (st : Nat) (s : State) : State :=
  let s := s.modStack st (fun k => { k with state := .failed, poison := [] })
  (writeFaultRecord 0xD9 5 0 0 0 { s with hbm := s.hbm.filter (fun e => stackOf e.1 ≠ st) }).alert 5

/-- RETRAIN_DONE: the stack serves again, or has failed (R385, R386). -/
def execRetrainDone (stack : StackId) (ok : Bool) (s : State) : Host.Outcome State Fault Refusal :=
  let st := stack.val
  if (s.stack st).state = .retraining then
    .next (if ok then (s.modStack st (fun k => { k with state := .serving, tempAtCal := k.temp })).bump (0x2000 + st) 0x0B 1 else failStack st s)
  else .next s

end Sys2Proof.Machine
end

