-- ==== Sys2Proof/Machine/Hosts.lean ====
section
/-! DEFINITION. Which physical core holds which logical core (R12, R22, R437), and the muzzle map's counts. -/
namespace Sys2Proof.Machine

/-- Physical core 34·pr + pc at (column, row) (R12). -/
def physAt (pc pr : Nat) : Nat := 34 * pr + pc
/-- The physical columns of a half-row, ascending: 17 positions (R12, R22). -/
def halfCols (east : Bool) : List Nat := (List.range 17).map (fun i => i + (if east then 17 else 0))
/-- A physical core's record. -/
def State.phys (s : State) (n : Nat) : PhysCore := tabGet .reset s.vet.phys n
/-- The state with one physical core changed. -/
def State.modPhys (s : State) (n : Nat) (f : PhysCore → PhysCore) : State :=
  { s with vet := { s.vet with phys := tabMod .reset s.vet.phys n f } }
/-- The unmuzzled physical cores of a half-row, in ascending column (R437). -/
def State.unmuzzled (s : State) (row : Nat) (east : Bool) : List Nat :=
  ((halfCols east).map (fun pc => physAt pc row)).filter (fun n => !(s.phys n).muzzled)
/-- The host of a logical core: the half-row's logical columns in order on its unmuzzled cores in order; none where
the half-row has too few (R22, R437). -/
def State.hostOf (s : State) (c : Nat) : Option Nat :=
  (s.unmuzzled (rowOf c) (decide (16 ≤ colOf c)))[colOf c % 16]?
/-- The logical core a physical core holds; none for a spare or a muzzled core. -/
def State.heldBy (s : State) (n : Nat) : Option Nat :=
  let row := n / 34
  let east := decide (17 ≤ n % 34)
  ((List.range 16).map (fun i => coreAt (i + (if east then 16 else 0)) row)).find? (fun c => s.hostOf c = some n)
/-- The pack a physical core belongs to. -/
def physPack (n : Nat) : Nat := n / 34 / 4 + (if n % 34 < 17 then 0 else 8)
/-- The 68 physical cores of a pack in ascending 34·pr + pc. -/
def packPhys (p : Nat) : List Nat :=
  (List.range 4).flatMap (fun j => (halfCols (decide (8 ≤ p))).map (fun pc => physAt pc (4 * (p % 8) + j)))
/-- Muzzled cores of a half-row. -/
def State.muzzledIn (s : State) (row : Nat) (east : Bool) : Nat := 17 - (s.unmuzzled row east).length

end Sys2Proof.Machine
end

