-- ==== Sys2Proof/Machine/JobTree.lean ====
section
/-! DEFINITION. The torus of a job, its timing tree, and the step gate that combines step-ready posts in it
(R46, R391, R397, R411, R414-R416). -/
namespace Sys2Proof.Machine

/-- Extents of a job along x, y and z (R321, R433). -/
def extentX (ext : Nat) : Nat := fieldOf ext 0 6 + 1
/-- Extent along y. -/
def extentY (ext : Nat) : Nat := fieldOf ext 6 6 + 1
/-- Extent along z. -/
def extentZ (ext : Nat) : Nat := fieldOf ext 12 4 + 1
/-- Coordinates (R270). -/
def devAt (x y z : Nat) : Nat := x + at_ 6 y + at_ 12 z
/-- Whether coordinates lie within an extent (R407). -/
def devIn (ext d : Nat) : Bool :=
  decide (fieldOf d 0 6 < extentX ext) && decide (fieldOf d 6 6 < extentY ext) && decide (fieldOf d 12 4 < extentZ ext)
/-- Devices of a job (R408). -/
def jobSize (ext : Nat) : Nat := extentX ext * extentY ext * extentZ ext
/-- Depth of the timing tree (R411). -/
def treeDepth (ext : Nat) : Nat := extentX ext / 2 + extentY ext / 2 + extentZ ext / 2
/-- The go-distribution bound (R416). -/
def goBound (ext : Nat) : Nat := 32 + 128 * treeDepth ext

/-- The coordinate before `b` on the way from 0 around a ring of `e` (R397, R411). -/
def ringBefore (e b : Nat) : Nat := if 2 * b ≤ e then b - 1 else (b + 1) % e

/-- The timing parent of a device: the device before it on the route from (0, 0, 0); the master's is itself (R411, R433). -/
def parentOf (ext d : Nat) : Nat :=
  let x := fieldOf d 0 6
  let y := fieldOf d 6 6
  let z := fieldOf d 12 4
  if z ≠ 0 then devAt x y (ringBefore (extentZ ext) z)
  else if y ≠ 0 then devAt x (ringBefore (extentY ext) y) z
  else if x ≠ 0 then devAt (ringBefore (extentX ext) x) y z
  else d

/-- The device one hop away in a torus direction (R391). -/
def hopFrom (ext d dir : Nat) : Nat :=
  let x := fieldOf d 0 6
  let y := fieldOf d 6 6
  let z := fieldOf d 12 4
  match dir with
  | 0 => devAt ((x + extentX ext - 1) % extentX ext) y z
  | 1 => devAt x ((y + extentY ext - 1) % extentY ext) z
  | 2 => devAt x y ((z + extentZ ext - 1) % extentZ ext)
  | 3 => devAt ((x + 1) % extentX ext) y z
  | 4 => devAt x ((y + 1) % extentY ext) z
  | _ => devAt x y ((z + 1) % extentZ ext)

/-- Directions an extent uses (R408). -/
def usedDirs (ext : Nat) : List Nat :=
  (if 1 < extentX ext then [0, 3] else []) ++ (if 1 < extentY ext then [1, 4] else []) ++ (if 1 < extentZ ext then [2, 5] else [])

/-- The distinct neighbours of a device (R420). -/
def neighbourDevs (ext d : Nat) : List Nat := (((usedDirs ext).map (hopFrom ext d)).filter (fun n => decide (n ≠ d))).eraseDups

/-- The timing children of a device (R408, R411). -/
def childrenOf (ext d : Nat) : List Nat := (neighbourDevs ext d).filter (fun n => decide (n ≠ 0) && decide (parentOf ext n = d))

/-- Whether this device is its job's timing master (R411). -/
def State.isMaster (s : State) : Bool := s.device = 0

/-- HOWL_STATE (R29, R34): 3 or 4 while the device is in a formed job, and otherwise 1 locked, 2 holdover, 0 not locked since the boot. -/
def State.howlState (s : State) : Nat :=
  if s.job.state = .running || s.job.state = .barked || s.job.state = .selfMuzzled then (if s.isMaster then 4 else 3)
  else if s.power.refLocked then (if s.power.refOk then 1 else 2)
  else 0

/-- Ports of a direction, ascending (R391). -/
def portsOf (dir : Nat) : List Nat := (List.range 3).map (fun i => 3 * dir + i)

/-- The lowest port toward a neighbouring device: of the striping list once it is fixed, else the lowest up port of the
direction (R391, R408, R412). -/
def State.portTo (s : State) (dst : Nat) : Option Nat :=
  match (usedDirs s.job.extent.toNat).filter (fun d => decide (hopFrom s.job.extent.toNat s.device d = dst)) with
  | [] => none
  | ds => ds.findSome? (fun d =>
      (tabGet [] s.job.lists d).head?.or ((portsOf d).find? (fun f => ((s.port f).state = .up || (s.port f).state = .member) && !(s.port f).excluded)))

/-- Queue a control message for a neighbouring device. -/
def sendCtrlTo (dst : Nat) (body : CtrlBody) (s : State) : State :=
  match s.portTo dst with
  | some f => sendCtrl f body s
  | none => s

/-- The next step a pack will launch (R415): the step being replayed, the head descriptor's, or the next to be numbered. -/
def State.nextStepAt (s : State) (p : Nat) : Word :=
  match s.replAt p with
  | some r => r.step
  | none => base
where
  /-- The head descriptor's step, or the next to be numbered. -/
  base : Word := match (s.pack p).queue with
    | d :: _ => d.step
    | [] => (s.pack p).nextStep

/-- Multi-device programs of the formed job on this device that have not been Barked. -/
def State.multiProgs (s : State) : List Nat := (s.jobProgs true).filter (fun g => (s.prog g).multi)

/-- The packs of the device's multi-device programs. -/
def State.multiPacks (s : State) : List Nat := s.multiProgs.flatMap (fun g => s.progPacks g)

/-- The number of the next step this device will launch in the job (R415). -/
def State.jobNextStep (s : State) : Word := s.nextStepAt (s.multiPacks.headD 0)

/-- Whether a step being replayed governs a pack's gate. -/
def State.replaying (s : State) (p : Nat) : Bool :=
  (s.replAt p).isSome

/-- Go time from the beat R of the last step-ready: max(L, R + G), or R + G for a replay (R46, R456). -/
def State.goTime (s : State) (p : Nat) (r : Time) : Time :=
  match s.replAt p with
  | some x => r + BitVec.ofNat 64 (s.prog x.prog).margin
  | none => base
where
  /-- The go time of the head descriptor. -/
  base : Time := match (s.pack p).queue with
    | d :: _ => howlMax d.launch (r + BitVec.ofNat 64 d.margin)
    | [] => r

/-- Pass a go time to packs: each launches when its Howl copy reaches it, at once where it has passed (R46, R47). -/
def setGo (packs : List Nat) (t : Time) (s : State) : State :=
  packs.foldl (fun s p => s.modPack p (fun k => { k with goAt := some t, goLate := !howlGe t s.howl })) s

/-- Send GO to every child and pass it to the device's packs (R414). -/
def deviceGo (step : Word) (t : Time) (s : State) : State :=
  let s := (childrenOf s.job.extent.toNat s.device).foldl (fun s d => sendCtrlTo d (.go step t) s) s
  let s := setGo s.multiPacks t s
  { s with job := { s.job with readys := [], readySent := false } }

/-- Whether all own packs have posted and every child's READY is in (R414). -/
def State.deviceIsReady (s : State) : Bool :=
  !s.multiPacks.isEmpty && s.multiPacks.all (fun p => (s.pack p).posted) &&
  (childrenOf s.job.extent.toNat s.device).all (fun d => tabGet false s.job.readys d)

/-- Combine step-ready at the device: READY to the parent, or GO at the master (R46, R414). -/
def deviceReady (s : State) : State :=
  if !s.deviceIsReady then s
  else if s.isMaster then deviceGo s.jobNextStep (s.goTime (s.multiPacks.headD 0) s.howl) s
  else if s.job.readySent then s
  else
    let s := sendCtrlTo s.job.parent.toNat (.ready s.jobNextStep) s
    { s with job := { s.job with readySent := true } }

/-- A pack's step-ready post enters the tree of its program's job (R46, R414). -/
def postUp (g : Nat) (s : State) : State :=
  let packs := s.progPacks g
  if !packs.all (fun p => (s.pack p).posted) then s
  else if (s.prog g).multi then deviceReady s
  else setGo packs (s.goTime (packs.headD 0) s.howl) s

end Sys2Proof.Machine
end

