-- ==== Sys2Proof/Machine/Launch.lean ====
section
/-! DEFINITION. Launch queues, step launches, overruns, frequency changes, the launch generator and the launch window
(R29-R33, R37, R38, R43-R48, R56, R57, R66, R67, R72, R183, R347, R348, R454, R512). -/
namespace Sys2Proof.Machine

/-- The used cores of a pack (R322). -/
def State.usedCores (s : State) (p : Nat) : List Nat :=
  match s.progOf p with
  | some g => (packCores p).filter (fun c => tabGet false (s.prog g).used c)
  | none => []

/-- A participant has finished its step: every stream of it has executed its STEPDONE, every FETCH and STORE of the step has completed, and
so has every Leash entry of the step at its router (R46, R381). -/
def Core.finished (k : Core) : Bool :=
  k.streams.all (fun e => e.2.st = .parkedLaunch || e.2.st = .uninstalled) && k.ops.all (fun o => o.engine ≠ .fetch) && k.tablesDone

/-- A pack has finished its step. -/
def State.packFinished (s : State) (p : Nat) : Bool := (s.usedCores p).all (fun c => (s.core c).finished)

/-- Whether a pack's program may launch steps: installed or running and not stopped (R43, R248). -/
def State.mayLaunch (s : State) (p : Nat) : Bool :=
  match s.progOf p with
  | some g => ((s.pack p).state = .installed || (s.pack p).state = .running) && !(s.prog g).barked && !s.isStopping p
  | none => false

/-- The gates a core's streams recorded are met: each Collar has reached its threshold, or is saturated (R226). -/
def Core.gatesMet (k : Core) : Bool :=
  k.streams.all (fun e => match e.2.gate with
    | none => true
    | some g => let c := k.collar g.collar; c.ovf || decide (g.threshold.toNat ≤ c.value.toNat))

/-- The frequency step commanded for a pack: the largest of its cap, its throttle step, and 3 while the calibration is lost
(R587, R600). -/
def State.ownStep (s : State) (p : Nat) : Nat :=
  max (max (s.setting (0x1800 + p) 3 0) (s.pack p).throttle) (if s.env.calLost then 3 else 0)

/-- The step a pack changes to at its boundary: a spanning program's packs change together (R66). -/
def State.desiredStep (s : State) (p : Nat) : Nat :=
  match s.progOf p with
  | some g => if (s.prog g).spanning then (s.progPacks g).foldl (fun m q => max m (s.ownStep q)) 0 else s.ownStep p
  | none => s.ownStep p

/-- The packs that change frequency step together with a pack. -/
def State.freqGroup (s : State) (p : Nat) : List Nat :=
  match s.progOf p with
  | some g => if (s.prog g).spanning then s.progPacks g else [p]
  | none => [p]

/-- Beats within which the islands of a pack relock (R37). -/
def relockBeats : Nat := 48

/-- The steps a pack has launched of its program (R44). -/
def State.launches (s : State) (p : Nat) : Nat := if (s.pack p).everLaunched then (s.pack p).step.toNat + 1 else 0

/-- A frequency change awaits the boundary at which a pack stands or to which it runs: some pack that changes with it is to change, and none
of them is past that boundary, having launched a later step or posted step-ready (R37, R66; log entry 76). -/
def State.changePending (s : State) (p : Nat) : Bool :=
  let grp := s.freqGroup p
  grp.any (fun q => (s.pack q).freq ≠ s.desiredStep p) && grp.all (fun q => decide (s.launches q ≤ s.launches p) && !(s.pack q).posted)

/-- A pack is ready to launch: finished, no relock outstanding, and no frequency change awaiting this boundary (R37, R45, R66). -/
def State.packReady (s : State) (p : Nat) : Bool := s.packFinished p && (s.pack p).relockEnd.isNone && !s.changePending p

/-- An ordinary frequency change at a step boundary, once every pack that changes together has finished the same step (R37, R66). -/
def freqBoundary (p : Nat) (s : State) : State :=
  let grp := s.freqGroup p
  let want := s.desiredStep p
  if s.changePending p && grp.all (fun q => s.packFinished q && (s.pack q).relockEnd.isNone && s.launches q = s.launches p) then
    grp.foldl (fun s q => s.modPack q (fun k =>
      if k.freq = want then k else { k with freq := want, relockEnd := some (s.howl + BitVec.ofNat 64 relockBeats) })) s
  else s

/-- A pack without a program changes step at once: no job's boundary delays it (R37). -/
def freqIdle (p : Nat) (s : State) : State :=
  if (s.pack p).prog.isNone && (s.pack p).freq ≠ s.ownStep p then
    s.modPack p (fun k => { k with freq := s.ownStep p, relockEnd := some (s.howl + BitVec.ofNat 64 relockBeats) })
  else s

/-- Whether a pack's next launch is gated: its head descriptor's mode, or a replay (R46, R456). -/
def State.nextGated (s : State) (p : Nat) : Bool :=
  s.replaying p || (match (s.pack p).queue with | d :: _ => d.gated | [] => false)

/-- A pack whose every participant has posted posts step-ready for the device, once no relock is outstanding and no frequency change awaits
this boundary (R37, R46, R66). -/
def packPost (p : Nat) (s : State) : State :=
  match s.progOf p with
  | none => s
  | some g =>
    if (s.pack p).posted || (s.pack p).relockEnd.isSome || s.changePending p || !s.nextGated p || !(s.usedCores p).all (fun c => (s.core c).postedReady) then s
    else postUp g (s.modPack p (fun k => { k with posted := true, readyAt := s.howl }))

/-- Whether a replay lets its program's participants post: its reload has ended (R456). -/
def State.replayOpen (s : State) (p : Nat) : Bool :=
  !s.replaying p || (match s.replAt p with | some r => r.phase = .ready | none => true)

/-- STEP_READY_POST: a participant that has finished its step, and in a gated step has its gates met, posts step-ready; its
pack's last post enters the tree, after a frequency change that awaits the boundary (R37, R46, R226). -/
def execStepReadyPost (core : CoreId) (s : State) : Host.Outcome State Fault Refusal :=
  let c := core.val
  let p := packOf c
  let k := s.core c
  if !s.mayLaunch p || !(s.usedCores p).contains c || !k.finished || ((s.pack p).queue.isEmpty && !s.replaying p)
      || !s.replayOpen p || (s.nextGated p && !s.replaying p && !k.postedReady && !k.gatesMet) then .next s
  else .next (packPost p (freqBoundary p (s.modCore c (fun k => { k with postedReady := true }))))

/-- Count a device event once per step of a program (R56, R57). -/
def countOnce (g bit sub n : Nat) (step : Word) (s : State) : State :=
  let seen := tabGet 0 (s.prog g).counted step.toNat
  if fieldOf seen bit 1 = 1 then s
  else (s.modProg g (fun x => { x with counted := tabSet 0 x.counted step.toNat (seen + at_ bit 1) })).bump 0x5010 sub n

/-- Counters of a launch (R56, R57): overrun beats, stale, or gate-delayed. A timed launch that is neither an overrun nor stale launches at L
(R45), so no later launch of it is counted. -/
def countLaunch (g p : Nat) (d : Descriptor) (s : State) : State :=
  let k := s.pack p
  let late := howlDiff s.howl d.launch
  if k.overran then countOnce g 3 4 (if 0 < late then late.toNat else 0) d.step s
  else if k.headLate || k.goLate then countOnce g 2 6 1 d.step s
  else if d.gated && decide (0 < late) then countOnce g 1 5 1 d.step s
  else s

/-- The launch snapshot of a core (R454). -/
def takeSnapshot (c : Nat) (s : State) : State :=
  let k := s.core c
  let x : Snapshot :=
    { streams := k.streams, collars := k.collars.filter (fun e => !e.2.ledgered), bowls := k.bowls, dc := k.dc, checked := k.checked }
  { s with vet := { s.vet with snaps := tabSet .none s.vet.snaps c x } }

/-- A stream parked on launch becomes Ready for the step (R88). -/
def Stream.launch (t : Stream) : Stream :=
  if t.st = .parkedLaunch then { t with st := .ready, gate := Option.none, claimsUsed := [], woken := false } else t

/-- An output starts its table for a step launched at `a`: the program's table from its first entry (R278, R283). -/
def Output.relaunch (o : Output) (first drained : Bool) (a : Time) : Output :=
  if o.table.idle then (if first && drained then o.toShadow a else o)
  else { o with running := true, head := 0, period := 0, launchAt := a, headSince := a, slipped := false }

/-- One core at a launch: its streams wake and its outputs start; `first` is the pack's first launch of its program (R45, R46, R278, R283,
R293). -/
def launchCore (first : Bool) (c : Nat) (s : State) : State :=
  let s := takeSnapshot c s
  s.modCore c (fun k =>
    let drained := k.routerEmpty
    let k : Core := { k with streams := k.streams.map (fun e => (e.1, e.2.launch)), routeSent := [], postedReady := false }
    k.mapOutputs (fun o => o.relaunch first drained s.howl))

/-- The effective checking level of a pack (R183). -/
def State.checkLevelOf (s : State) (g : Nat) : Nat := max (s.prog g).checkLevel (s.setting 0x3000 1 1)

/-- Every configured Bowl of a program opens at its first launch (R298). -/
def openBowls (g : Nat) (s : State) : State :=
  ((s.progPacks g).flatMap s.usedCores).foldl (fun s c => s.modCore c (fun k =>
    { k with bowls := k.bowls.map (fun e => (e.1, { e.2 with isOpen := bConf e.2 })) })) s

/-- A pack enters a step: PACK_STATE 2, and LOAD_STATE 3 becomes 0 at the program's first launch (R248, R283, R328). -/
def enterStep (g p : Nat) (step : Word) (gated : Bool) (s : State) : State :=
  let first := !(s.pack p).everLaunched
  let s := if (s.prog g).launched then s else openBowls g s
  let s := (s.usedCores p).foldl (fun s c => launchCore first c s) s
  let lvl := s.checkLevelOf g
  let s := s.modPack p (fun k => { k with
    state := .running, step := step, inStep := true, everLaunched := true, launchAt := s.howl, posted := false, goAt := none,
    overran := false, headLate := false, goLate := false, stepGated := gated, level := lvl, lastProg := s.clock, watchFrom := s.clock })
  let s := s.modProg g (fun x => { x with launched := true })
  if s.load.state = .installed && s.load.prog = g then { s with load := { s.load with state := .idle } } else s

/-- A descriptor is taken and its step launches at the pack now (R43-R48, R56, R57). -/
def launchPack (g p : Nat) (d : Descriptor) (s : State) : State :=
  let s := countLaunch g p d s
  enterStep g p d.step d.gated (s.modPack p (fun k => { k with queue := k.queue.drop 1 }))

/-- TIMED_LAUNCH: a timed step launches once its launch time has come and the pack is ready; a frequency change that awaits the boundary
comes first (R37, R45, R48). -/
def execTimedLaunch (pack : PackId) (s : State) : Host.Outcome State Fault Refusal :=
  let p := pack.val
  match (s.pack p).queue, s.progOf p with
  | d :: _, some g =>
    if d.gated || !s.mayLaunch p || s.replaying p then .next s
    else if s.packReady p && howlGe s.howl d.launch then .next (launchPack g p d s)
    else .next (freqBoundary p s)
  | _, _ => .next s

/-- The replayed step launches again; the last pack ends the re-placement (R456, R465). -/
def launchReplay (g p : Nat) (r : Replace) (s : State) : State :=
  let s := enterStep g p r.step true s
  if (s.progPacks g).all (fun q => (s.pack q).goAt.isNone) then
    let beats := (howlDiff s.howl r.failAt).toNat
    let s := s.restartWatch (s.progPacks g)
    ({ s with vet := { s.vet with repl := s.vet.repl.filter (fun x => x.prog ≠ g) } }.bump 0x501B 4 1).setSetting 0x501B 5 (beats % 2 ^ 32)
  else s

/-- GATED_LAUNCH: the go time has been reached, or has passed (R46-R48). -/
def execGatedLaunch (pack : PackId) (s : State) : Host.Outcome State Fault Refusal :=
  let p := pack.val
  match (s.pack p).goAt, s.progOf p with
  | some t, some g =>
    if !s.mayLaunch p || !howlGe s.howl t || (s.pack p).relockEnd.isSome then .next s
    else match s.replOf g, (s.pack p).queue with
      | some r, _ => .next (launchReplay g p r s)
      | none, d :: _ => .next (launchPack g p d s)
      | none, [] => .next s
  | _, _ => .next s

/-- The head's launch time has come at a pack that is not ready: an overrun, counted once a launch (R37, R56). A stale head whose pack then
relocks is one as well (log entry 77). -/
def noteOverrun (p : Nat) (s : State) : State :=
  match (s.pack p).queue, s.progOf p with
  | d :: _, some g =>
    if !s.mayLaunch p || !howlGe s.howl d.launch || s.packReady p || (s.pack p).overran then s
    else countOnce g 0 3 1 d.step ((s.bump (0x1800 + p) 0x10 1).modPack p (fun k => { k with overran := true }))
  | _, _ => s

/-- OVERRUN (R56; log entry 77). -/
def execOverrun (pack : PackId) (s : State) : Host.Outcome State Fault Refusal := .next (noteOverrun pack.val s)

/-- RELOCK_DONE: the islands of a pack have relocked; a gated step's post may now leave (R37). -/
def execRelockDone (pack : PackId) (s : State) : Host.Outcome State Fault Refusal :=
  let p := pack.val
  match (s.pack p).relockEnd with
  | none => .next s
  | some _ => .next (packPost p (s.modPack p (fun k => { k with relockEnd := none, readyAt := s.howl })))

/-- A seam-rate fault of a running spanning program whose packs have come to differ in step (R67). -/
def seamRateFault (g : Nat) (s : State) : State :=
  let packs := s.progPacks g
  let a := packs.headD 0
  match packs.find? (fun q => (s.pack q).freq ≠ (s.pack a).freq) with
  | none => s
  | some b =>
    let s := s.modProg g (fun x => { x with seamHalt := true })
    let s := packs.foldl (fun s p => stopPack p s) s
    let s := s.bump 0x5010 7 1
    reportFault 0xD2 [a, b] 0 0 s

/-- Running spanning programs in ascending slot. -/
def State.spanningRunning (s : State) : List Nat :=
  (List.range 16).filter (fun g => (s.prog g).packs ≠ 0 && (s.prog g).spanning && !(s.prog g).barked
    && (s.progPacks g).any (fun p => (s.pack p).state = .running))

/-- The step an emergency clock-down sets (R38). -/
def emergencyStep : Nat := 15

/-- A core leaves its slice and is restored, from the save area where its pack has a program (R436, R445). -/
def restoreSlice (p c : Nat) (s : State) : State :=
  let s := s.modCore c (fun k => { k with vetting := false })
  if (s.progOf p).isSome then (readWords c 9 saveBase (spadBytes - saveBase) s).1.st else s

/-- A pack's slice in progress is abandoned: the core is restored, nothing is recorded, and the slice waits for the unit's next
turn (R443, R465). -/
def abandonSlice (p : Nat) (s : State) : State :=
  let v := tabGet VetPack.reset s.vet.packs p
  match v.active with
  | none => s
  | some a =>
    let s := { s with vet := { s.vet with packs := tabSet .reset s.vet.packs p { v with active := none } } }
    let s := (match (if a.unit < 68 then s.heldBy (nth 0 (packPhys p) a.unit) else none) with
      | some c => restoreSlice p c s
      | none => s)
    s.bump (0x1800 + p) 0x44 1

/-- An emergency clock-down of packs: counted, its alert set, slices there abandoned, and seam-rate faults follow (R38, R67, R443,
R588). -/
def clockDown (packs : List Nat) (s : State) : State :=
  let s := (s.bump 0x501F 2 1).alert 12
  let s := { s with env := { s.env with
    clockdown := packs.foldl (fun m p => if fieldOf m p 1 = 1 then m else m + 2 ^ p) s.env.clockdown
    clearSince := packs.foldl (fun t p => tabSet 0 t p s.clock) s.env.clearSince } }
  let s := packs.foldl (fun s p => abandonSlice p s) s
  let s := packs.foldl (fun s p => s.modPack p (fun k => { k with freq := emergencyStep, throttle := emergencyStep, relockEnd := none })) s
  let s := packs.foldl (fun s p => packPost p s) s
  s.spanningRunning.foldl (fun s g => seamRateFault g s) s

/-- What the end of a beat adds by itself, before the Howl counts on: the beats of each slip and of each Bowl's hold, overruns, and the
frequency changes whose boundary has come (R37, R54, R56, R306). -/
def launchBeat (s : State) : State :=
  let slips := (s.cores.map (fun e => (Dir.all.filter (fun d => (e.2.output d).slipped)).length)).sum
  let s := s.bump 0x5010 2 slips
  let s := ((s.cores.map (fun e => e.1)).filter (fun c => bowlHoldNow c s)).foldl (fun s c => s.bumpCore c 0x76 1) s
  (List.range 16).foldl (fun s p => freqBoundary p (noteOverrun p s)) s

/-- EMERGENCY_CLOCKDOWN of a pack or half (R38, R67). -/
def execEmergencyClockdown (target : ClockTarget) (s : State) : Host.Outcome State Fault Refusal :=
  .next (if s.power.booted then clockDown target.packs s else s)

/-- CYCLE_STRETCH: one core cycle stretched, counted in STRETCHED_CYCLES (R72). -/
def execCycleStretch (core : CoreId) (s : State) : Host.Outcome State Fault Refusal := .next (s.bumpCore core.val 2 1)

/-- Append a descriptor with the pack's next number; a launch time already passed at a ready head is a stale launch
(R43, R44, R48). -/
def appendDescriptor (p : Nat) (launch : Time) (gated : Bool) (margin : Nat) (s : State) : State :=
  let k := s.pack p
  let late := k.queue.isEmpty && s.packReady p && !howlGe launch s.howl
  s.setPack p { k with
    queue := k.queue ++ [{ step := k.nextStep, launch := launch, gated := gated, margin := margin }]
    nextStep := k.nextStep + 1
    headLate := if k.queue.isEmpty then late else k.headLate }

/-- The packs a 16-bit register names. -/
def LaunchGen.packList (g : LaunchGen) : List Nat := packsIn g.packs.toNat

/-- The loaded program that holds every named pack, if there is one (R348). -/
def State.oneProgram (s : State) (packs : List Nat) : Option Nat :=
  match packs with
  | [] => none
  | p :: _ => match s.progOf p with
    | none => none
    | some g => if packs.all (fun q => s.progOf q = some g && ((s.pack q).state = .installed || (s.pack q).state = .running)) then some g else none

/-- LAUNCH_CONTROL 1 (R32, R348): status and state. -/
def genStart (s : State) : Nat × State :=
  if s.gen.running then (stBusy, s)
  else if s.gen.period = 0 || s.gen.packs = 0 then (stState, s)
  else if (s.oneProgram s.gen.packList).isNone then (stBusy, s)
  else if howlTooFar s.gen.first s.howl then (stRange, s)
  else (stDone, { s with gen := { s.gen with running := true, hostFed := false, k := 0 } })

/-- GENERATOR_START (R348). -/
def execGeneratorStart (s : State) : Host.Outcome State Fault Refusal := .next (s.command genStart)

/-- LAUNCH_CONTROL 2 (R348). -/
def genStop (s : State) : Nat × State := (stDone, { s with gen := { s.gen with running := false, hostFed := false } })

/-- GENERATOR_STOP: queued descriptors still launch (R348). -/
def execGeneratorStop (s : State) : Host.Outcome State Fault Refusal := .next (s.command genStop)

/-- LAUNCH_CONTROL 3 (R347, R512). -/
def genHostFed (s : State) : Nat × State := (stDone, { s with gen := { s.gen with running := false, hostFed := true } })

/-- HOST_FED (R347). -/
def execHostFed (s : State) : Host.Outcome State Fault Refusal := .next (s.command genHostFed)

/-- GENERATOR_DESCRIPTOR: the next descriptor for every fed pack, once some fed queue has fallen below 8 and none is full
(R348). -/
def execGeneratorDescriptor (s : State) : Host.Outcome State Fault Refusal :=
  let packs := s.gen.packList
  match s.oneProgram packs with
  | none => .next s
  | some g =>
    if !s.gen.running || !packs.any (fun p => (s.pack p).queue.length < 8) || packs.any (fun p => 64 ≤ (s.pack p).queue.length) then .next s
    else
      let l := s.gen.first + BitVec.ofNat 64 (s.gen.k * s.gen.period.toNat)
      let n := (s.pack (packs.headD 0)).nextStep
      let s := packs.foldl (fun s p => appendDescriptor p l s.gen.gated (s.prog g).margin s) s
      .next { s with gen := { s.gen with k := s.gen.k + 1, nextStep := n + 1 } }

/-- Whether a function serves a pack's launch window, doorbells, sends and NACK log (R498). -/
def State.serves (s : State) (fn p : Nat) : Bool := if s.host.vfEnable then fn = p + 1 else fn = 0

/-- Whether a memory request of the host to a function's BARs is refused before anything else: the function is in D3hot,
or IDE_REQUIRED is set and the request came outside an IDE stream (R501, R517). -/
def State.barRefused (s : State) (fn : Nat) (ide : Bool) : Bool :=
  (s.fn fn).d3hot || (s.setting 0x0A10 1 0 = 1 && !ide)

/-- Whether BAR0 is served: at rest, in Idle, Run and Safe, and from step 4 of a start-up (R605, R609). -/
def State.barServed (s : State) : Bool := s.power.booted && (s.power.starting.isNone || decide (4 ≤ s.power.step))

/-- A posted write to BAR0: nothing answers before BAR0 is served; a refused one is discarded and counted (R501, R517). -/
def barWrite (fn : Nat) (ide : Bool) (f : State → State) (s : State) : State :=
  if !s.barServed then s
  else if s.barRefused fn ide then s.bump 0x501D 1 1
  else f s

/-- A launch-window write discarded (R512). -/
def lwDrop (p : Nat) (s : State) : State :=
  { s with host := { s.host with lwDrops := tabMod 0 s.host.lwDrops p (· + 1) } }.bump 0x501D 5 1

/-- LW_TIME_WRITE through a function to a pack's window, of `bytes` bytes; `gated` is LW_MODE as the window holds it
after the write of LW_MODE that came before, if there was one (R32, R498, R501, R512). -/
def execLwTimeWrite (fn : Fin 17) (pack : PackId) (mode : Option Byte) (time : Time) (bytes : Fin 64) (ide : Bool) (s : State) :
    Host.Outcome State Fault Refusal :=
  let p := pack.val
  .next (barWrite fn.val ide (fun s =>
  if !s.serves fn.val p then s
  else
    let s := match mode with
      | some m => if m.toNat ≤ 1 then { s with host := { s.host with lwGated := tabSet false s.host.lwGated p (m = 1) } } else s
      | none => s
    match s.progOf p with
    | none => lwDrop p s
    | some g =>
      if !s.gen.hostFed || !((s.pack p).state = .installed || (s.pack p).state = .running) || 64 ≤ (s.pack p).queue.length
          || bytes.val ≠ 8 || howlTooFar time s.howl then lwDrop p s
      else appendDescriptor p time (tabGet false s.host.lwGated p) (s.prog g).margin s) s)

/-- HOWL_REF_LOCK: the generator locks; only the rate slews (R29, R31, R34). -/
def execHowlRefLock (s : State) : Host.Outcome State Fault Refusal :=
  .next { s with power := { s.power with
    refOk := true
    refLocked := s.power.refLocked || s.power.rails } }

/-- HOLDOVER: HOWL_REF stops or leaves its range; after a lock the generator holds over and the Howl counts on (R29, R34). -/
def execHoldover (s : State) : Host.Outcome State Fault Refusal := .next { s with power := { s.power with refOk := false } }

/-- HOWL_BROADCAST: at a multiple of 2^12 beats every disagreeing copy is overwritten and counted (R30). -/
def execHowlBroadcast (s : State) : Host.Outcome State Fault Refusal :=
  if s.howl.toNat % 4096 ≠ 0 || !s.power.rails then .next s
  else
    let bad := (s.cores.filter (fun e => e.2.howlSkew ≠ 0)).map (fun e => e.1)
    .next ((bad.foldl (fun s c => s.modCore c (fun k => { k with howlSkew := 0 })) s).bump 0x5010 8 bad.length)

/-- HOWL_PPS_CAPTURE: the management controller captures its Howl copy; an edge within 100 µs of the last one accepted is ignored (R33,
R621). -/
def execHowlPpsCapture (s : State) : Host.Outcome State Fault Refusal :=
  if !s.power.booted || (s.power.ppsAt ≠ 0 && decide (s.clock + 1 ≤ s.power.ppsAt + 82500)) then .next s
  else .next { s with power := { s.power with ppsCapture := s.howl, ppsAt := s.clock + 1, ppsCount := s.power.ppsCount + 1 } }

end Sys2Proof.Machine
end

