-- ==== Sys2Proof/Machine/Rings.lean ====
section
/-! DEFINITION. Context doorbells, the ring controller and MSI-X messages (R338-R346, R498, R501, R506, R513-R517). -/
namespace Sys2Proof.Machine

/-- The function and vector of a context (R498, R516). -/
def State.ctxVector (s : State) (n : Nat) : Nat × Nat :=
  if s.host.vfEnable then (n % 16 + 1, 1 + (s.ctx n).msix) else (0, 16 + 32 * (n % 16) + (s.ctx n).msix)

/-- Raise a context's MSI-X vector (R358). -/
def raiseCtx (n : Nat) (s : State) : State := raiseMsix (s.ctxVector n).1 (s.ctxVector n).2 s

/-- IN_READ of a context's state block (R339). -/
def State.inRead (s : State) (n : Nat) : BitVec 32 := BitVec.ofNat 32 (s.hbmNum ((s.ctx n).stateAddr + 12) 4)

/-- A doorbell write not accepted (R514). -/
def doorbellError (n bit : Nat) (s : State) : State :=
  (s.modCtx n (fun k => { k with ringErr := k.ringErr ||| BitVec.ofNat 32 (2 ^ bit) })).bump 0x501D 2 1

/-- A doorbell write of a function to a context (R498, R514): ignored where the function does not serve it, an error
where no loaded image owns it. -/
def doorbell (fn n : Nat) (f : State → State) (s : State) : State :=
  if !s.serves fn (n % 16) then s
  else match (s.ctx n).owner with
    | none => doorbellError n 2 s
    | some _ => f s

/-- IN_TAIL_WRITE (R514). -/
def execInTailWrite (fn : Fin 17) (ctx : CtxId) (value : BitVec 32) (ide : Bool) (s : State) : Host.Outcome State Fault Refusal :=
  let n := ctx.val
  .next (barWrite fn.val ide (doorbell fn.val n (fun s =>
    let k := s.ctx n
    if (value - s.inRead n).toNat ≤ 2 ^ k.inLog2 && (value - k.inTail).toNat ≤ 2 ^ k.inLog2 then s.setCtx n { k with inTail := value }
    else doorbellError n 0 s)) s)

/-- CPL_HEAD as the Retriever's free test uses it in a beat: a write is used from the next beat, and `headAt` is the beat after the last
write (R514). -/
def Ctx.headIn (k : Ctx) (now : Nat) : BitVec 32 := if k.headAt = now + 1 then k.headOld else k.cplHead

/-- CPL_HEAD written in a beat (R514). -/
def Ctx.setHead (k : Ctx) (value : BitVec 32) (now : Nat) : Ctx := { k with cplHead := value, headOld := k.headIn now, headAt := now + 1 }

/-- CPL_HEAD_WRITE (R514). -/
def execCplHeadWrite (fn : Fin 17) (ctx : CtxId) (value : BitVec 32) (ide : Bool) (s : State) : Host.Outcome State Fault Refusal :=
  let n := ctx.val
  .next (barWrite fn.val ide (doorbell fn.val n (fun s =>
    let k := s.ctx n
    if (k.cplTail - value).toNat ≤ 2 ^ k.cplLog2 && (value - k.cplHead).toNat ≤ 2 ^ k.cplLog2 then s.setCtx n (k.setHead value s.clock)
    else doorbellError n 1 s)) s)

/-- RING_ERR_CLEAR: writing 1 clears a bit (R506). -/
def execRingErrClear (fn : Fin 17) (ctx : CtxId) (bits : Byte) (ide : Bool) (s : State) : Host.Outcome State Fault Refusal :=
  let n := ctx.val
  .next (barWrite fn.val ide (fun s =>
    if s.serves fn.val (n % 16) then s.modCtx n (fun k => { k with ringErr := k.ringErr &&& ~~~(bits.setWidth 32) }) else s) s)

/-- Whether the host's published consumer index leaves a free completion entry (R346, R514). -/
def State.cplFree (s : State) (n : Nat) : Bool := decide ((s.cplNext n - (s.ctx n).headIn s.clock).toNat < 2 ^ (s.ctx n).cplLog2)

/-- Address of input entry count `i` (R513). -/
def Ctx.inAddr (k : Ctx) (i : BitVec 32) : Nat := k.inBase + 64 * (i.toNat % 2 ^ k.inLog2)

/-- The code of a NaN LOGPROB (R120, R345). -/
def nanLog : BitVec 32 := 0x7FC00000

/-- The 32 B of a completion entry (R345, R513). -/
def cplEntry (k : Ctx) (n : Nat) (i : BitVec 32) (token : Nat) (logprob : BitVec 32) (position seqno : Nat) (step : Word)
    (flags status : Nat) (howl : Time) : List Byte :=
  leBytes 4 token ++ leBytes 4 logprob.toNat ++ leBytes 4 position ++ leBytes 4 seqno ++ leBytes 4 step.toNat
  ++ leBytes 1 flags ++ leBytes 1 status ++ leBytes 2 n ++ leBytes 4 howl.toNat ++ leBytes 4 (at_ 31 (k.phase i))

/-- The ring controller consumes the current entry: IN_READ and SEQNO_DONE (R344). -/
def consumeEntry (n : Nat) (s : State) : State :=
  let k := s.ctx n
  let seqno := leValue ((k.pendEntry.drop 4).take 4)
  let i := k.inSeen + 1
  let s := portWrite (k.stateAddr + 8) (leBytes 4 seqno ++ leBytes 4 i.toNat) s
  s.setCtx n { k with inSeen := i, stage := .idle, pendEntry := [] }

/-- Whether IRQ_MODE raises a vector for an abnormal status (R344). -/
def Ctx.raisesAbnormal (k : Ctx) : Bool := k.params.irqMode = 1 || k.params.irqMode = 2

/-- The ring controller's STATUS 9 completion for the current entry, once a completion entry is free and none is in flight;
on acceptance the entry is consumed (R344, R346). The POSITION of an entry without a token is a free value (log entry 3). -/
def ringRefuse (n : Nat) (s : State) : State :=
  let k := s.ctx n
  if !s.cplFree n || s.cplOutstanding n ≠ 0 then s.setCtx n { k with stage := .refuse }
  else
    let f := s.fresh
    let step := (s.pack (n % 16)).step
    let seqno := leValue ((k.pendEntry.drop 4).take 4)
    let e := cplEntry k n k.cplTail 0xFFFFFFFF nanLog (f.1.toNat % 2 ^ 32) seqno step 0 9 s.howl
    match ringWrite (k.cplAddr k.cplTail) e f.2 with
    | (.done _, s) =>
      let s := consumeEntry n (cplAccepted portWrite n step s)
      if k.raisesAbnormal then raiseCtx n s else s
    | (.poisoned, s) => retrieverFault 0x94 (n % 16) n s
    | (.notServing, s) => retrieverFault 0x94 (n % 16) n s
    | (.held, _) => s.setCtx n { k with stage := .refuse }

/-- The step program has consumed a posted entry: the ring controller moves to the next (R344). -/
def ringSettle (n : Nat) (s : State) : State :=
  let k := s.ctx n
  if k.stage = .posted && s.inRead n = k.inSeen + 1 then s.setCtx n { k with inSeen := k.inSeen + 1, stage := .idle, pendEntry := [] } else s

/-- KIND of an input entry (R342). -/
def entKind (l : List Byte) : Nat := leValue (l.take 1)
/-- FLAGS of an input entry. -/
def entFlags (l : List Byte) : Nat := leValue ((l.drop 1).take 1)
/-- COUNT of an input entry. -/
def entCount (l : List Byte) : Nat := leValue ((l.drop 2).take 2)
/-- DATA_ADDR of an input entry. -/
def entAddr (l : List Byte) : Nat := leValue ((l.drop 8).take 8)
/-- Whether every byte of a range of the entry is 0. -/
def entZero (l : List Byte) (a n : Nat) : Bool := ((l.drop a).take n).all (fun b => b = 0)

/-- The malformed cases of R344. -/
def entMalformed (l : List Byte) (ws : List Window) : Bool :=
  let kind := entKind l
  let ref := bitAt (BitVec.ofNat 8 (entFlags l)) 1
  !(decide (1 ≤ kind) && decide (kind ≤ 4)) || decide (4 ≤ entFlags l)
  || (kind = 1 && (entCount l = 0 || (decide (12 < entCount l) && !ref)))
  || (kind ≠ 1 && entCount l ≠ 0)
  || (kind = 2 && !(entZero l 27 5 && entZero l 40 24))
  || ((kind = 3 || kind = 4) && !entZero l 16 48)
  || (kind = 1 && ref && !inWindow ws (entAddr l) (4 * entCount l) false)

/-- The parameters of a PARAMS entry (R343). -/
def entParams (l : List Byte) : SampParams :=
  let u (a n : Nat) := leValue ((l.drop a).take n)
  { temp := BitVec.ofNat 32 (u 16 4), topK := u 20 2, topP := u 22 2, seed := BitVec.ofNat 64 (u 32 8), maskId := u 24 1,
    irqMode := u 25 1, flagMask := u 26 1 }

/-- The ranges of R338 on sampling parameters. -/
def SampParams.ok (x : SampParams) : Bool :=
  let t := decodeNum .fp32 x.temp.toNat
  (match t with | .fin n m _ => !n || m = 0 | .inf _ => false | .nan => false)
  && decide (x.topK ≤ 1024) && decide (x.maskId ≤ 15) && decide (x.irqMode ≤ 2)

/-- The ring controller posts a context's INPUT_COLLAR by 1 (R97, R100, R344). -/
def postInput (n : Nat) (s : State) : State :=
  let v := (s.ctx n).inputCollar
  let c := fieldOf v 0 10
  let j := fieldOf v 10 4
  let col := (s.core c).collar j
  if col.configured && !col.ledgered then collarAdd c j 1 s else staleCollarOp c s

/-- The ring controller handles the context's next entry when its KIND is of the class named (R344). A read answered with
STATUS 1 or 2 is fault 0x94; a recalibrating stack holds the read. -/
def inputEntry (n : Nat) (kinds : Nat → Bool) (s : State) : State :=
  let s := ringSettle n s
  let k := s.ctx n
  match k.owner with
  | none => s
  | some g =>
    if k.stage ≠ .idle || k.inSeen = k.inTail || !s.power.rails || (s.pack (n % 16)).retr.stopped then s
    else match ringRead (k.inAddr k.inSeen) 64 s with
      | (.poisoned, s) => retrieverFault 0x94 (n % 16) n s
      | (.notServing, s) => retrieverFault 0x94 (n % 16) n s
      | (.held, _) => s
      | (.done l, s') =>
        if !kinds (entKind l) then s
        else
          let s := s'.setCtx n { k with pendEntry := l }
          if entMalformed l (s.prog g).windows then ringRefuse n s
          else if entKind l = 2 then s.modCtx n (fun k => { k with stage := .params (entParams l).ok })
          else postInput n (s.modCtx n (fun k => { k with stage := .posted }))

/-- INPUT_TOKENS: a TOKENS entry, or one whose KIND is none of the four (R344). -/
def execInputTokens (ctx : CtxId) (s : State) : Host.Outcome State Fault Refusal :=
  .next (inputEntry ctx.val (fun k => k = 1 || k = 0 || decide (4 < k)) s)
/-- INPUT_PARAMS (R344). -/
def execInputParams (ctx : CtxId) (s : State) : Host.Outcome State Fault Refusal := .next (inputEntry ctx.val (fun k => k = 2) s)
/-- INPUT_HANDOFF: the step program consumes it (R341, R344). -/
def execInputHandoff (ctx : CtxId) (s : State) : Host.Outcome State Fault Refusal := .next (inputEntry ctx.val (fun k => k = 3) s)
/-- INPUT_CLOSE (R344). -/
def execInputClose (ctx : CtxId) (s : State) : Host.Outcome State Fault Refusal := .next (inputEntry ctx.val (fun k => k = 4) s)

/-- PARAMS_ANSWER: the Retriever answers; the entry is consumed, or refused with STATUS 9 (R344). -/
def execParamsAnswer (ctx : CtxId) (s : State) : Host.Outcome State Fault Refusal :=
  let n := ctx.val
  let k := s.ctx n
  match k.stage with
  | .params true => .next (consumeEntry n (s.setCtx n { k with params := entParams k.pendEntry }))
  | .params false => .next (ringRefuse n s)
  | .idle => .next s
  | .refuse => .next s
  | .posted => .next s

end Sys2Proof.Machine
end

