-- ==== Sys2Proof/Machine/Matrix.lean ====
section
/-! DEFINITION. MMA, DCFG, the matrix problems, the checksum lane and the drain (R128-R134, R150-R187, R208-R211). -/
namespace Sys2Proof.Machine

/-- Read several ranges through a port in order; nothing if any word is uncorrectable. -/
def readMany (c port : Nat) (l : List (Nat × Nat)) (s : State) : Option (List (List Byte)) × State :=
  l.foldl (fun a r =>
    let x := readPort c port r.1 r.2 a.2
    match a.1, x.1 with
    | some ls, some b => (some (ls ++ [b]), x.2)
    | _, _ => (none, x.2)) (some [], s)

/-- The elements of a packed array as exact values (R123). -/
def unpackNums (f : Fmt) (l : List Byte) (n : Nat) : List Num :=
  let v := leValue l
  (List.range n).map (fun i => decodeNum f (packedElem f.width v i))

/-- What an MMA word and its registers say of one problem (R150-R152, R208, R209). -/
structure Mma where
  m : Nat
  n : Nat
  g : Nat
  probs : Nat
  acc : Nat
  zero : Bool
  force : Bool
  afmt : Fmt
  bfmt : Fmt
  amode : Nat
  bmode : Nat
  apitch : Nat
  dpitch : Nat
  a : MmaOperand
  b : MmaOperand
  d : MmaOperand

/-- The fields of an MMA in flight. -/
def EngOp.mma (o : EngOp) : Mma :=
  let f (hi lo : Nat) := ifld o.word hi lo
  { m := f 13 8, n := f 19 14, g := f 29 20, probs := f 42 30, acc := f 44 43, zero := bitAt o.word 45, force := bitAt o.word 46,
    afmt := Fmt.ofCode (f 49 47), bfmt := Fmt.ofCode (f 52 50), amode := f 54 53, bmode := f 56 55, apitch := 16 * f 84 73,
    dpitch := 16 * f 96 85, a := mmaOperand o.ra, b := mmaOperand o.rb, d := mmaOperand o.rd }

/-- The accumulator of problem `p` (R158). -/
def Mma.accOf (x : Mma) (p : Nat) : Nat := if x.probs = 1 then x.acc else x.acc + p % 2

/-- The key of an accumulator entry (R154). -/
def accKey (a i j : Nat) : Nat := 1024 * a + 32 * i + j

/-- The operands of one problem: rows of A, columns of B, and MX scale bytes of row and group, and of column and group. -/
structure Operands where
  rows : List (List Num)
  cols : List (List Num)
  ascale : List (List Nat)
  bscale : List (List Nat)
  special : Bool

/-- The operands of problem `p`, read through ports 0 and 1 (R152, R237). -/
def readOperands (c : Nat) (x : Mma) (p : Nat) (s : State) : Option Operands × State :=
  let k := 32 * x.g
  let ab := x.a.base + p * x.a.stride
  let asc := x.a.scale + p * x.a.scaleStride
  let bb := x.b.base + p * x.b.stride
  let bsc := x.b.scale + p * x.b.scaleStride
  let ra := readMany c 0 ((List.range x.m).map (fun i => (ab + i * x.apitch, packedBytes x.afmt.width k))
    ++ (if x.amode = 1 then (List.range x.m).map (fun i => (asc + i * x.g, x.g)) else [])) s
  let rb := readMany c 1 ([(bb, packedBytes x.bfmt.width (k * x.n))] ++ (if x.bmode = 1 then [(bsc, x.g * x.n)] else [])) ra.2
  match ra.1, rb.1 with
  | some la, some lb =>
    let rows := (la.take x.m).map (fun l => unpackNums x.afmt l k)
    let bv := leValue (nth [] lb 0)
    let col (j : Nat) : List Num := (List.range k).map (fun r => decodeNum x.bfmt (packedElem x.bfmt.width bv (r * x.n + j)))
    let cols := (List.range x.n).map col
    let ascale := (la.drop x.m).map (fun l => l.map BitVec.toNat)
    let bs := nth [] lb 1
    let bscale := if x.bmode = 1 then
        (List.range x.n).map (fun j => (List.range x.g).map (fun q => (nth (0 : Byte) bs (q * x.n + j)).toNat))
      else []
    let special := rows.any (fun l => l.any Num.special) || cols.any (fun l => l.any Num.special) ||
      ascale.any (fun l => l.contains 0xFF) || bscale.any (fun l => l.contains 0xFF)
    (some { rows := rows, cols := cols, ascale := ascale, bscale := bscale, special := special }, rb.2)
  | _, _ => (none, rb.2)

/-- The exact sum of products of two lists of values. -/
def dotExact (a b : List Num) : Num :=
  match List.zipWith mulExact a b with
  | [] => .zero
  | x :: t => t.foldl addExact x

/-- The integer an INT8 value holds. -/
def intOf (x : Num) : Int :=
  match x with
  | .fin n m _ => if n then -(m : Int) else (m : Int)
  | .nan => 0
  | .inf _ => 0

/-- One group of products added to a floating-point accumulator entry (R133). -/
def addGroup (narrow : Bool) (a b : List Num) (sa sb : Nat) (acc : Num) : Num :=
  let g := dotExact a b
  if narrow then toF32 (addExact acc (applyMx sa (applyMx sb g))) else addF32 acc (toF32 g)

/-- An instruction's products added to an integer accumulator entry, and 1 if the sum saturated (R134). -/
def addSumInt (a b : List Num) (old : Int) : Int × Nat :=
  let v := (List.zipWith (fun x y => intOf x * intOf y) a b).foldl (· + ·) old
  if v < -(2 ^ 31) then (-(2 ^ 31), 1) else if (2 : Int) ^ 31 ≤ v then (2 ^ 31 - 1, 1) else (v, 0)

/-- The new contents of one accumulator entry and its saturations (R133, R134). -/
def entryResult (x : Mma) (ops : Operands) (old : BitVec 32) (i j : Nat) : BitVec 32 × Nat :=
  let ar := chunks 32 (nth [] ops.rows i)
  let bc := chunks 32 (nth [] ops.cols j)
  if x.afmt == .int8 then
    let r := addSumInt (nth [] ops.rows i) (nth [] ops.cols j) old.toInt
    (BitVec.ofInt 32 r.1, r.2)
  else
    let narrow := decide (x.afmt.width ≤ 8)
    let sc (l : List (List Nat)) (r q : Nat) : Nat := if l.isEmpty then 127 else nth 127 (nth [] l r) q
    let v := (List.range x.g).foldl (fun a q =>
      addGroup narrow (nth [] ar q) (nth [] bc q) (sc ops.ascale i q) (sc ops.bscale j q) a) (decodeNum .fp32 old.toNat)
    (BitVec.ofNat 32 (f32Bits v), 0)

/-- An accumulator after problem `p`, and how many INT8 sums saturated (R150, R154). -/
def accumulate (x : Mma) (ops : Operands) (a : Nat) (t : Tab (BitVec 32)) : Tab (BitVec 32) × Nat :=
  let t := if x.zero then tabDrop t (1024 * a) 1024 else t
  (List.range x.m).foldl (fun r i => (List.range x.n).foldl (fun r j =>
    let e := entryResult x ops (tabGet 0 t (accKey a i j)) i j
    (tabSet 0 r.1 (accKey a i j) e.1, r.2 + e.2)) r) (t, 0)

/-- Whether an entry of the problem's block is NaN or infinite (R180). -/
def accSpecial (x : Mma) (a : Nat) (t : Tab (BitVec 32)) : Bool :=
  (List.range x.m).any (fun i => (List.range x.n).any (fun j => (decodeNum .fp32 (tabGet 0 t (accKey a i j)).toNat).special))

/-- The interval D of a checking level; 0 checks nothing (R181, R182). -/
def checkInterval (level : Nat) : Nat := match level with | 0 => 0 | 1 => 64 | 2 => 16 | 3 => 4 | _ => 1

/-- Whether problem `t` of core `c` is selected at a level (R182). -/
def checkSelected (level t c : Nat) (force : Bool) : Bool :=
  force || (checkInterval level ≠ 0 && (t + c) % checkInterval level = 0)

/-- LAST_MISMATCH_PLACE (R186). -/
def mismatchPlace (pc : BitVec 12) (stream c : Nat) (axis : Bool) (line : Nat) : BitVec 32 :=
  BitVec.ofNat 32 (at_ 20 pc.toNat + at_ 17 (stream % 8) + at_ 16 (bit01 axis) + at_ 11 (line % 32) + c % 1024)

/-- Change one operation in flight. -/
def Core.modOp (k : Core) (seq : Nat) (f : EngOp → EngOp) : Core :=
  { k with ops := k.ops.map (fun o => if o.seq = seq then f o else o) }

/-- Whether the pack's record of a mismatch is one of this same time, by a core with a higher number (R185; log entry 73). -/
def State.outranked (s : State) (c : Nat) : Bool :=
  let k := s.lastMismatchPlace.toNat % 1024
  s.lastMismatchTime == s.howl && packOf k = packOf c && decide (c < k)

/-- A checksum mismatch (R184, R185). -/
def checkMismatch (c : Nat) (o : EngOp) (axis : Bool) (line : Nat) (s : State) : State :=
  let s := s.modCore c (fun k => k.modOp o.seq (fun o => { o with abandoned := true }))
  let p := packOf c
  if s.isStopping p then
    let s := if s.outranked c then { s with lastMismatchPlace := mismatchPlace o.pc o.stream c axis line } else s
    s.bumpCore c 0x41 1
  else
    let s := { s with lastMismatchTime := s.howl, lastMismatchPlace := mismatchPlace o.pc o.stream c axis line }
    let s := s.bumpCore c 0x41 1
    reportFault 0xD0 [p] c o.stream (stopPack p s)

/-- Values of a stage's vector or immediate: one per column, one per row, or one (R165). -/
def stageVector (c : Nat) (x : Mma) (st : Word) (s : State) : Option (List Num) × State :=
  if stKind st ≠ 1 ∧ stKind st ≠ 2 then (some [], s)
  else if stVsrc st = 0 then (some [decodeNum .fp32 (bitsOf st 0 32)], s)
  else
    let n := if stVsrc st = 1 then x.n else x.m
    match readPort c 2 (bitsOf st 21 21) (packedBytes (stFmt st).width n) s with
    | (some l, s) => (some (unpackNums (stFmt st) l n), s)
    | (none, s) => (none, s)

/-- The vectors of every stage of a chain, read before the rows are drained. -/
def stageVectors (c : Nat) (x : Mma) (ch : List Word) (s : State) : Option (List (List Num)) × State :=
  ch.foldl (fun a st =>
    let r := stageVector c x st a.2
    match a.1, r.1 with
    | some l, some v => (some (l ++ [v]), r.2)
    | _, _ => (none, r.2)) (some [], s)

/-- Counts of conversions: NaN written, saturated, squashed (R140-R142). -/
structure CvtCount where
  nan : Nat
  sat : Nat
  squash : Nat

/-- Count one conversion event. -/
def CvtCount.add (k : CvtCount) (e : CvtEvent) : CvtCount :=
  match e with
  | .none => k
  | .nanOut => { k with nan := k.nan + 1 }
  | .saturated => { k with sat := k.sat + 1 }
  | .squashed => { k with squash := k.squash + 1 }

/-- Add the counts to a core's counters (R149). -/
def CvtCount.apply (k : CvtCount) (c : Nat) (s : State) : State :=
  ((s.bumpCore c 0x30 k.nan).bumpCore c 0x31 k.sat).bumpCore c 0x32 k.squash

/-- The random value of an element of an instruction (R138). -/
def srOf (s : State) (c : Nat) (o : EngOp) (elem : Nat) : Nat :=
  Config.srValue (s.coreProg c).seed o.step c o.stream o.pc.toNat elem % 65536

/-- One stage other than QUANT and TRANSPOSE on one value (R166). `vec` is the stage's values, `res` the residual element,
`r` the random value. A ROUND counts its saturation or squashed NaN; the NaN it may pass on is counted when written. -/
def stageApply (st : Word) (vec : List Num) (res : Num) (i j r : Nat) (v : Num × CvtCount) : Num × CvtCount :=
  let x := v.1
  let arg := nth Num.zero vec (if stVsrc st = 0 then 0 else if stVsrc st = 1 then j else i)
  match stKind st with
  | 1 => (mulF32 x arg, v.2)
  | 2 => (addF32 x arg, v.2)
  | 3 => (funcEval (stFunc st) x, v.2)
  | 4 => (addF32 x res, v.2)
  | 5 =>
    let q := convertNum (stFmt st) (RMode.ofCode (stRmode st)) (stOvfm st) r x
    (decodeNum (stFmt st) q.1, match q.2 with | .nanOut => v.2 | e => v.2.add e)
  | 6 => (if x.isNan then x else minNum (maxNum x (decodeNum .bf16 (bitsOf st 0 16))) (decodeNum .bf16 (bitsOf st 16 16)), v.2)
  | _ => v

/-- The fold of a chain's stages over one value; residuals are given per stage in order (R166, R167). -/
def chainApply (ch : List Word) (vecs : List (List Num)) (resids : List Num) (i j r : Nat) (x : Num) : Num × CvtCount :=
  let z : CvtCount := { nan := 0, sat := 0, squash := 0 }
  let step (a : (Num × CvtCount) × List (List Num) × List Num) (st : Word) :=
    let res := a.2.2.headD Num.zero
    (stageApply st (a.2.1.headD []) res i j r a.1, a.2.1.drop 1, if stKind st = 4 then a.2.2.drop 1 else a.2.2)
  (ch.foldl step ((x, z), vecs, resids)).1

/-- The FP32 value slot 0 of a chain receives from an accumulator entry (R162, R168). -/
def slotZero (x : Mma) (ascales bscales : List Num) (v : BitVec 32) (i j : Nat) : Num :=
  if x.afmt == .int8 then
    let y := toF32 (numOfInt v.toInt)
    let y := if x.amode = 2 then mulF32 y (nth Num.zero ascales i) else y
    if x.bmode = 2 then mulF32 y (nth Num.zero bscales j) else y
  else decodeNum .fp32 v.toNat

/-- The residual row of each RESID stage for an output row, read before the row is written (R166, R169). -/
def readResids (c : Nat) (x : Mma) (ch : List Word) (ncols p row : Nat) (s : State) : Option (List (List Num)) × State :=
  (residsOf ch).foldl (fun a st =>
    let n := packedBytes (stFmt st).width ncols
    let r := readPort c 2 (x.d.base + p * x.d.stride + row * residPitch st) n a.2
    match a.1, r.1 with
    | some l, some b => (some (l ++ [unpackNums (stFmt st) b ncols]), r.2)
    | _, _ => (none, r.2)) (some [], s)

/-- One output row: its bytes, its MX scale byte if any, and what its conversions count (R130, R166, R167). -/
def outRow (q : Option Word) (vals : List Num) (rs : List Nat) (cnt : CvtCount) : List Byte × Option Byte × CvtCount :=
  match q with
  | none =>
    let e := vals.map (fun v => encodeNum .fp32 .rne true 0 v)
    (e.flatMap (fun x => leBytes 4 x.1), none, e.foldl (fun k x => k.add x.2) cnt)
  | some st =>
    let f := stFmt st
    let mode := RMode.ofCode (stRmode st)
    if stSmode st = 1 then
      let b := mxQuantise f mode (fun i => nth 0 rs i) vals
      (leBytes (packedBytes f.width vals.length) (packElems f.width b.elems), some (BitVec.ofNat 8 b.scale), { cnt with nan := cnt.nan + b.nans })
    else
      let e := vals.mapIdx (fun i v => convertNum f mode (stOvfm st) (nth 0 rs i) v)
      (leBytes (packedBytes f.width vals.length) (packElems f.width (e.map Prod.fst)), none, e.foldl (fun k x => k.add x.2) cnt)

/-- What is read once for the drain of a problem. -/
structure DrainInputs where
  ascales : List Num
  bscales : List Num
  vecs : List (List Num)

/-- Scales of an INT8 pair, read on the A and B sides, and the vectors of the chain (R134, R152, R165, R237). -/
def drainInputs (c : Nat) (x : Mma) (ch : List Word) (p : Nat) (s : State) : Option DrainInputs × State :=
  let ra := readPort c 0 (x.a.scale + p * x.a.scaleStride) (if x.amode = 2 then 4 * x.m else 0) s
  let rb := readPort c 1 (x.b.scale + p * x.b.scaleStride) (if x.bmode = 2 then 4 * x.n else 0) ra.2
  let v := stageVectors c x ch rb.2
  match ra.1, rb.1, v.1 with
  | some la, some lb, some vs => (some { ascales := unpackNums .fp32 la x.m, bscales := unpackNums .fp32 lb x.n, vecs := vs }, v.2)
  | _, _, _ => (none, v.2)

/-- Values, bytes and counts of output row `row`, from the accumulator and the row's residuals. -/
def drainRow (s : State) (c : Nat) (o : EngOp) (x : Mma) (d : DrainInputs) (resids : List (List Num)) (p row : Nat) :
    List Byte × Option Byte × CvtCount :=
  let tr := transposes o.chain
  let ncols := if tr then x.m else x.n
  let cells := (List.range ncols).map (fun col => if tr then (col, row) else (row, col))
  let acc := (s.core c).acc
  let rs := cells.map (fun ij => srOf s c o (p * 1024 + 32 * ij.1 + ij.2))
  let vals := cells.mapIdx (fun n ij =>
    chainApply o.chain d.vecs (resids.map (fun l => nth Num.zero l n)) ij.1 ij.2 (nth 0 rs n)
      (slotZero x d.ascales d.bscales (tabGet 0 acc (accKey (x.accOf p) ij.1 ij.2)) ij.1 ij.2))
  let cnt := vals.foldl (fun (a : CvtCount) v => { nan := a.nan + v.2.nan, sat := a.sat + v.2.sat, squash := a.squash + v.2.squash })
    { nan := 0, sat := 0, squash := 0 }
  outRow (quantOf o.chain) (vals.map Prod.fst) rs cnt

/-- Write one output row and its scale byte; the row's last byte holds `tail` bits of it, or all 8 (R123, R169, R209). -/
def writeRow (c : Nat) (x : Mma) (tail p row : Nat) (r : List Byte × Option Byte × CvtCount) (s : State) : State :=
  let s := writeArray c 2 (x.d.base + p * x.d.stride + row * x.dpitch) tail r.1 s
  let s := match r.2.1 with
    | some b => writePort c 2 (x.d.scale + p * x.d.scaleStride + row) [b] s
    | none => s
  r.2.2.apply c s

/-- Drain one problem's accumulator to scratchpad (R161-R170). False if a word could not be read. -/
def drainProblem (c : Nat) (o : EngOp) (p : Nat) (s : State) : Bool × State :=
  let x := o.mma
  let ch := o.chain
  let rows := if transposes ch then x.n else x.m
  let ncols := if transposes ch then x.m else x.n
  let tail := ncols * (outFmt ch).width % 8
  match drainInputs c x ch p s with
  | (none, s) => (false, s)
  | (some d, s) =>
    if transposes ch then
      let r := (List.range rows).foldl (fun (a : Option (List (List (List Num))) × State) row =>
        let y := readResids c x ch ncols p row a.2
        match a.1, y.1 with
        | some l, some v => (some (l ++ [v]), y.2)
        | _, _ => (none, y.2)) (some [], s)
      match r.1 with
      | none => (false, r.2)
      | some all => (true, (List.range rows).foldl (fun s row => writeRow c x tail p row (drainRow s c o x d (nth [] all row) p row) s) r.2)
    else
      (List.range rows).foldl (fun (a : Bool × State) row =>
        if !a.1 then a
        else match readResids c x ch ncols p row a.2 with
          | (none, s) => (false, s)
          | (some v, s) => (true, writeRow c x tail p row (drainRow s c o x d v p row) s)) (true, s)

/-- Drain the next problem of an operation and note it; an unreadable word abandons the operation (R113, R248). -/
def drainNext (c : Nat) (o : EngOp) (s : State) : State :=
  let r := drainProblem c o o.drained s
  let s := if r.1 then r.2.advanceCore c 0x91 (outRows o.word o.chain) else r.2
  s.modCore c (fun k => k.modOp o.seq (fun q => if r.1 then { q with drained := q.drained + 1 } else { q with abandoned := true }))

/-- A matrix operation in flight by its sequence number. -/
def Core.opBySeq (k : Core) (seq : Nat) : Option EngOp := k.ops.find? (fun o => o.seq = seq)

/-- Drain every computed problem of an operation that stands before problem `upto` (fuel: problems). -/
def drainUpTo (c seq upto : Nat) : Nat → State → State
  | 0, s => s
  | f + 1, s =>
    match (s.core c).opBySeq seq with
    | some o => if !o.abandoned && decide (o.drained < o.computed) && decide (o.drained < upto) then drainUpTo c seq upto f (drainNext c o s) else s
    | none => s

/-- The drains that must read accumulator `a` before another result is written to it (R157, R158). -/
def drainBefore (c a : Nat) (s : State) : State :=
  (s.core c).ops.foldl (fun s o =>
    if o.engine = .matrix && !o.abandoned then
      -- the last computed, undrained problem of this operation that holds the accumulator
      let held := (List.range (o.computed - o.drained)).filter (fun i => o.mma.accOf (o.drained + i) = a)
      match held.getLast? with
      | some i => drainUpTo c o.seq (o.drained + i + 1) (i + 1) s
      | none => s
    else s) s

/-- MMA enters the matrix engine's queue; with ZERO its accumulators take the class of its pair (R150, R154, R158, R208). -/
def execMma (core : CoreId) (stream : StreamId) (s : State) : Host.Outcome State Fault Refusal :=
  .next (issueOp 0x20 core.val stream.val (fun x s =>
    let s := enqueueOp .matrix x s
    if bitAt x.w 45 then
      let cls : AccClass := if pairInt x.w then .int32 else .fp32
      let a := ifld x.w 44 43
      s.modCore x.c (fun k =>
        let t := tabSet .fp32 k.accClass a cls
        { k with accClass := if ifld x.w 42 30 = 1 then t else tabSet .fp32 t (a + 1) cls })
    else s) s)

/-- DCFG enters the drain's queue (R162, R163, R211). -/
def execDcfg (core : CoreId) (stream : StreamId) (s : State) : Host.Outcome State Fault Refusal :=
  .next (issueOp 0x21 core.val stream.val (enqueueOp .drain) s)

/-- Load drain configuration `d` (R162). -/
def Core.setChain (k : Core) (d : Nat) (l : List Word) : Core :=
  { k with dc := (l.mapIdx (fun i w => (i, w))).foldl (fun t e => tabSet 0 t (8 * d + e.1) e.2) k.dc }

/-- DCFG_COMPLETE: the 64 B are loaded and checked; a violation is fault 0x2B and keeps the configuration (R163, R211, R248). -/
def execDcfgComplete (core : CoreId) (s : State) : Host.Outcome State Fault Refusal :=
  let c := core.val
  match (s.core c).ops.find? (fun o => o.engine = .drain) with
  | none => .next s
  | some o =>
    if tabGet false (s.core c).engReset 2 then .next s
    else match readPort c 2 (ifld o.word 31 11) 64 s with
    | (none, s) => .next (completeOp c o.seq s)
    | (some l, s) =>
      let ws := bytesWords l
      if chainBad ws || stagesAbove (s.core c).fence ws then
        let s := if (((s.core c).stream o.stream).st).live then streamFaultAt c o.stream o.pc 0x2B s else s
        .next (completeOp c o.seq s)
      else .next (completeOp c o.seq (s.modCore c (fun k => k.setChain (ifld o.word 10 8) ws)))

/-- An FP32 sum of the checksum lane, rounded at every addition; the order of its terms is open (R179; log entry 73). -/
def laneSum (ts : List Num) : Num :=
  let o := Config.laneOrder ts.length
  (if o.isPerm (List.range ts.length) then o else List.range ts.length).foldl (fun a i => addF32 a (nth Num.zero ts i)) Num.zero

/-- The lane's reference sum and sum of magnitudes of every line: of its entries of Z, and of its operand values times the sums of the other
operand's, or the sums of their magnitudes (R179; log entry 73). -/
def laneLines (own other z : List (List Num)) : List (Num × Num) :=
  let n := (own.headD []).length
  let sums := (List.range n).map (fun k => laneSum (other.map (fun l => nth Num.zero l k)))
  let mags := (List.range n).map (fun k => laneSum (other.map (fun l => (nth Num.zero l k).abs)))
  own.mapIdx (fun i l =>
    let zs := nth [] z i
    (laneSum (zs ++ List.zipWith mulF32 l sums), laneSum (zs.map Num.abs ++ List.zipWith mulF32 (l.map Num.abs) mags)))

/-- Whether a floating-point line of sum `v` mismatches its reference (R179). -/
def lineBad (h : Nat) (v : Num) (r : Num × Num) : Bool :=
  numLt (addExact (mulExact (.fin false (h + 8) (-23)) r.2) (.fin false 1 (-120))) (addExact v r.1.negate).abs

/-- An operand's values with their scales, one list per line (R125, R133, R179). -/
def scaledLines (vals : List (List Num)) (scales : List (List Nat)) : List (List Num) :=
  if scales.isEmpty then vals
  else vals.mapIdx (fun i l => l.mapIdx (fun k v => toF32 (applyMx (nth 127 (nth [] scales i) (k / 32)) v)))

/-- Whether the lines of one axis mismatch, in order: `own` and `other` hold the operands' values, `z` the accumulator before the problem (0s
with ZERO) and `v` the accumulator after it (R179). -/
def lanesBad (x : Mma) (own other : List (List Num)) (z v : List (List (BitVec 32))) : List Bool :=
  if x.afmt == .int8 then
    let n := (own.headD []).length
    let sums := (List.range n).map (fun k => (other.map (fun l => intOf (nth Num.zero l k))).sum)
    own.mapIdx (fun i l =>
      let ref := ((nth [] z i).map BitVec.toInt).sum + (List.zipWith (fun a b => intOf a * b) l sums).sum
      decide ((((nth [] v i).map BitVec.toInt).sum - ref) % 2 ^ 64 ≠ 0))
  else
    let num (b : BitVec 32) : Num := decodeNum .fp32 b.toNat
    let h := if x.afmt.width ≤ 8 then x.g else 2 * x.g
    (laneLines own other (z.map (fun l => l.map num))).mapIdx (fun i r =>
      lineBad h (((nth [] v i).map num).foldl addExact Num.zero) r)

/-- What the checksum lane finds of a problem whose accumulator held `before` and holds `after`: the first line that mismatches, rows before
columns; the axis is true for a column (R179, R186). -/
def laneFinding (x : Mma) (ops : Operands) (a : Nat) (before after : Tab (BitVec 32)) : Option (Bool × Nat) :=
  let rows := scaledLines ops.rows ops.ascale
  let cols := scaledLines ops.cols ops.bscale
  let z (i j : Nat) : BitVec 32 := if x.zero then 0 else tabGet 0 before (accKey a i j)
  let v (i j : Nat) : BitVec 32 := tabGet 0 after (accKey a i j)
  let byRow (f : Nat → Nat → BitVec 32) := (List.range x.m).map (fun i => (List.range x.n).map (fun j => f i j))
  let byCol (f : Nat → Nat → BitVec 32) := (List.range x.n).map (fun j => (List.range x.m).map (fun i => f i j))
  let r := lanesBad x rows cols (byRow z) (byRow v)
  if r.any id then some (false, r.findIdx id)
  else
    let q := lanesBad x cols rows (byCol z) (byCol v)
    if q.any id then some (true, q.findIdx id) else none

/-- Accumulator `a` after faults of the array invert bits of its entries: a physical outcome. -/
def upsetAcc (a : Nat) (upsets : List Upset) (t : Tab (BitVec 32)) : Tab (BitVec 32) :=
  upsets.foldl (fun t u => let k := accKey a u.row.val u.col.val; tabSet 0 t k (tabGet 0 t k ^^^ u.flip)) t

/-- The problem just computed is counted, and checked if selected (R179-R184). -/
def afterCompute (c : Nat) (o : EngOp) (skip : Bool) (finding : Option (Bool × Nat)) (s : State) : State :=
  let t := (s.core c).checked
  let s := s.modCore c (fun k => { k with checked := k.checked + 1 })
  if !checkSelected (s.pack (packOf c)).level t c o.mma.force then s
  else if skip then s.bumpCore c 0x42 1
  else
    let s := s.bumpCore c 0x40 1
    match finding with
    | none => s
    | some (axis, line) => checkMismatch c o axis line s

/-- Cycles phase 0 adds to the A reads of a problem: in stream mode each group reads the 32 elements of every row at once; scale words
add none (R159, R238-R240; log entry 73). -/
def aConflicts (x : Mma) (p : Nat) : Nat :=
  if 4 < x.m then 0
  else ((List.range x.g).map (fun q => conflictCycles ((List.range x.m).flatMap (fun i =>
    wordsOfRange (x.a.base + p * x.a.stride + i * x.apitch + 4 * x.afmt.width * q) (4 * x.afmt.width))))).sum

/-- MATRIX_PROBLEM_READY: the next problem of the matrix engine's queue is computed into its accumulator, after any
drain that must read the accumulator first, and the lane checks it if selected (R133, R134, R157-R160, R179-R184). `upsets` are the bits that
faults of the array invert: none in a sound core. A NaN in an accumulator counts when it is written out (log entry 36). -/
def execMatrixProblemReady (core : CoreId) (upsets : List Upset) (s : State) : Host.Outcome State Fault Refusal :=
  let c := core.val
  match (s.core c).ops.find? (fun o => o.engine = .matrix && !o.abandoned && decide (o.computed < o.mma.probs)) with
  | none => .next s
  | some o =>
    if tabGet false (s.core c).engReset 0 then .next s
    else
      let x := o.mma
      let a := x.accOf o.computed
      match readOperands c x o.computed (drainBefore c a s) with
      | (none, s) => .next (s.modCore c (fun k => k.modOp o.seq (fun q => { q with abandoned := true })))
      | (some ops, s) =>
        let before := (s.core c).acc
        let r := accumulate x ops a before
        let acc := upsetAcc a upsets r.1
        let s := s.modCore c (fun k => { k.modOp o.seq (fun q => { q with computed := q.computed + 1 }) with acc := acc })
        let s := (s.bumpCore c 0x33 r.2).bumpCore c 0x55 (aConflicts x o.computed)
        let s := s.advanceCore c 0x91 x.g
        let skip := ops.special || decide (0 < r.2) || (x.afmt ≠ .int8 && accSpecial x a acc)
        .next (afterCompute c o skip (laneFinding x ops a before acc) s)

/-- DRAIN_COMPLETE: the drain of the first fully computed matrix instruction writes its last row and the instruction
completes (R161, R202). -/
def execDrainComplete (core : CoreId) (s : State) : Host.Outcome State Fault Refusal :=
  let c := core.val
  match (s.core c).ops.find? (fun o => o.engine = .matrix && !o.abandoned && o.computed = o.mma.probs) with
  | none => .next s
  | some o =>
    if tabGet false (s.core c).engReset 2 then .next s
    else
      let s := drainUpTo c o.seq o.mma.probs (o.mma.probs - o.drained) s
      match (s.core c).opBySeq o.seq with
      | some q => .next (if q.abandoned then s else completeOp c o.seq s)
      | none => .next s

end Sys2Proof.Machine
end

