-- ==== Sys2Proof/Machine/Vector.lean ====
section
/-! DEFINITION. The vector instructions and what the vector unit does with them (R171-R178, R212-R215). -/
namespace Sys2Proof.Machine

/-- The elements of a source of kind `kind` read through a vector port, as FP32 values (R139, R171, R213). -/
def readSource (c port : Nat) (reg : Word) (kind : Nat) (f : Fmt) (n : Nat) (s : State) : Option (List Num) × State :=
  if kind = 3 then (some (List.replicate n (decodeNum .fp32 (bitsOf reg 0 32))), s)
  else
    let r := readPort c port (vecEaddr reg) (packedBytes f.width n) s
    let q := if kind = 1 then readPort c port (vecSaddr reg) (ceilDiv n 32) r.2
      else if kind = 2 then readPort c port (vecSaddr reg) 4 r.2 else (some [], r.2)
    match r.1, q.1 with
    | some l, some sc =>
      let xs := unpackNums f l n
      let xs := if kind = 1 then xs.mapIdx (fun i x => toF32 (applyMx (nth (0 : Byte) sc (i / 32)).toNat x))
        else if kind = 2 then xs.map (fun x => mulF32 x (decodeNum .fp32 (leValue sc))) else xs
      (some xs, q.2)
    | _, _ => (none, q.2)

/-- Bits read from a mask laid out with element width 1 (R172). -/
def readMask (c port : Nat) (reg : Word) (n : Nat) (s : State) : Option (List Bool) × State :=
  match readPort c port (vecEaddr reg) (ceilDiv n 8) s with
  | (some l, s) => (some ((List.range n).map (fun i => bitAt (nth (0 : Byte) l (i / 8)) (i % 8))), s)
  | (none, s) => (none, s)

/-- The bytes, scale bytes and counts of a destination vector (R130, R131, R139, R175). -/
def encodeDest (f : Fmt) (mode : RMode) (ieee : Bool) (kind rowLen : Nat) (rs : Nat → Nat) (xs : List Num) :
    List Byte × List Byte × CvtCount :=
  let z : CvtCount := { nan := 0, sat := 0, squash := 0 }
  if kind = 1 then
    let bs := (chunks 32 xs).mapIdx (fun b l => mxQuantise f mode (fun i => rs (32 * b + i)) l)
    (leBytes (packedBytes f.width xs.length) (packElems f.width (bs.flatMap (fun b => b.elems))), bs.map (fun b => BitVec.ofNat 8 b.scale),
      { z with nan := (bs.map (fun b => b.nans)).sum })
  else if kind = 2 then
    let bs := (chunks rowLen xs).mapIdx (fun b l => rowQuantise mode (fun i => rs (rowLen * b + i)) l)
    (bs.flatMap (fun b => b.elems.map (BitVec.ofNat 8)), bs.flatMap (fun b => leBytes 4 b.scale),
      { z with nan := (bs.map (fun b => b.nans)).sum, sat := (bs.map (fun b => b.sats)).sum })
  else
    let e := xs.mapIdx (fun i v => convertNum f mode ieee (rs i) v)
    (leBytes (packedBytes f.width xs.length) (packElems f.width (e.map Prod.fst)), [], e.foldl (fun k x => k.add x.2) z)

/-- REDUCE SUM in its fixed order: 64 lane sums, then a binary tree in which an empty side passes the other up (R174). -/
def reduceTree : Nat → List (Option Num) → List (Option Num)
  | 0, l => l
  | f + 1, l => reduceTree f ((chunks 2 l).map (fun p =>
      match p with
      | [some a, some b] => some (addF32 a b)
      | [some a, none] => some a
      | [none, some b] => some b
      | [some a] => some a
      | _ => none))

/-- REDUCE SUM (R174). -/
def reduceVecSum (xs : List Num) : Num :=
  let lane (l : Nat) : Option Num :=
    match ((xs.mapIdx (fun i x => (i, x))).filter (fun e => e.1 % 64 = l)).map Prod.snd with
    | [] => none
    | x :: t => some (t.foldl addF32 x)
  match reduceTree 6 ((List.range 64).map lane) with
  | some x :: _ => x
  | _ => .zero

/-- Index of the first element that satisfies a test, 0 if none. -/
def firstIdx {α : Type} (p : α → Bool) (l : List α) : Nat := if l.any p then l.findIdx p else 0

/-- ARGMAX (`max` true) and ARGMIN: the first NaN, or the first element equal to the extreme with its sign (R174). -/
def argExtreme (max : Bool) (xs : List Num) : Nat :=
  if xs.any Num.isNan then firstIdx Num.isNan xs
  else match xs with
    | [] => 0
    | x :: t =>
      let m := t.foldl (fun a y => if max then maxNum a y else minNum a y) x
      firstIdx (fun y => numEq y m && (y.neg? == m.neg?)) xs

/-- The four bytes REDUCE writes, and what they count (R174). -/
def reduceResult (sub : Nat) (xs : List Num) : List Byte × CvtCount :=
  let z : CvtCount := { nan := 0, sat := 0, squash := 0 }
  let fp (x : Num) : List Byte × CvtCount := let e := encodeNum .fp32 .rne true 0 x; (leBytes 4 e.1, z.add e.2)
  match sub with
  | 0 => fp (reduceVecSum xs)
  | 1 => fp (match xs with | [] => .zero | x :: t => t.foldl maxNum x)
  | 2 => fp (match xs with | [] => .zero | x :: t => t.foldl minNum x)
  | 3 => (leBytes 4 (argExtreme true xs), z)
  | _ => (leBytes 4 (argExtreme false xs), z)

/-- The elementwise result of opcodes 0x30-0x3B and 0x3E from a, b and the old destination element (R172, R215). -/
def vecElem (op sub : Nat) (a b d : Num) (m : Bool) : Num :=
  match op with
  | 0x30 => addF32 a b
  | 0x31 => subF32 a b
  | 0x32 => mulF32 a b
  | 0x33 => fmaF32 a b d
  | 0x34 => minNum a b
  | 0x35 => maxNum a b
  | 0x36 => a.abs
  | 0x37 => a.negate
  | 0x39 => if m then a else d
  | 0x3B => funcEval sub a
  | _ => a

/-- Cycles phase 3 adds to serve the chunks of 64 elements of one or two vector sources; scale words add none (R238-R240; log entry 73). -/
def vecConflicts (srcs : List (Nat × Nat)) (l : Nat) : Nat :=
  ((List.range (ceilDiv l 64)).map (fun i =>
    let n := min 64 (l - 64 * i)
    conflictCycles (srcs.flatMap (fun b => wordsOfRange (b.1 + 8 * b.2 * i) (ceilDiv (n * b.2) 8))))).sum

/-- One write of a vector instruction: its address, the array's bits in its last byte (0: all 8), and its bytes. -/
structure VecWrite where
  addr : Nat
  tail : Nat
  bytes : List Byte

/-- What a vector instruction produces: writes in order, counts, out-of-range indices and conflict cycles. -/
structure VecResult where
  writes : List VecWrite
  cnt : CvtCount
  oob : Nat
  conflicts : Nat

/-- The vector fields of a word. -/
def vecLen (w : Insn) : Nat := ifld w 24 8

/-- The bytes of a mask (R172). -/
def maskBytes (bits : List Bool) : List Byte := leBytes (ceilDiv bits.length 8) (packElems 1 (bits.map bit01))

/-- CMP (R172, R173). -/
def runCmp (c : Nat) (o : EngOp) (s : State) : Option VecResult × State :=
  let f (hi lo : Nat) := ifld o.word hi lo
  let l := vecLen o.word
  let fa := Fmt.ofCode (f 30 28)
  let fb := Fmt.ofCode (f 33 31)
  let ra := readSource c 3 o.ra (f 38 37) fa l s
  let rb := readSource c 3 o.rb (f 40 39) fb l ra.2
  match ra.1, rb.1 with
  | some a, some b =>
    (some { writes := [⟨vecEaddr o.rd, l % 8, maskBytes (List.zipWith (cmpHolds (f 45 41)) a b)⟩], cnt := { nan := 0, sat := 0, squash := 0 }, oob := 0,
            conflicts := vecConflicts ((if f 38 37 = 3 then [] else [(vecEaddr o.ra, fa.width)]) ++ (if f 40 39 = 3 then [] else [(vecEaddr o.rb, fb.width)])) l },
     rb.2)
  | _, _ => (none, rb.2)

/-- REDUCE (R172, R174). -/
def runReduce (c : Nat) (o : EngOp) (s : State) : Option VecResult × State :=
  let f (hi lo : Nat) := ifld o.word hi lo
  match readSource c 3 o.ra (f 38 37) (Fmt.ofCode (f 30 28)) (vecLen o.word) s with
  | (some a, s) =>
    let r := reduceResult (f 45 41) a
    (some { writes := [⟨vecEaddr o.rd, 0, r.1⟩], cnt := r.2, oob := 0, conflicts := 0 }, s)
  | (none, s) => (none, s)

/-- The destination writes of a vector of results. -/
def destWrites (s : State) (c : Nat) (o : EngOp) (xs : List Num) : List VecWrite × CvtCount :=
  let f (hi lo : Nat) := ifld o.word hi lo
  let r := encodeDest (Fmt.ofCode (f 27 25)) (RMode.ofCode (f 35 34)) (bitAt o.word 36) (f 59 58) (f 76 60) (srOf s c o) xs
  ([⟨vecEaddr o.rd, xs.length * (Fmt.ofCode (f 27 25)).width % 8, r.1⟩]
    ++ (if r.2.1.isEmpty then [] else [⟨vecSaddr o.rd, 0, r.2.1⟩]), r.2.2)

/-- GATHER (R172, R176): each 64 elements take max(4, k) cycles, k the table words in the fullest bank (R240). -/
def runGather (c : Nat) (o : EngOp) (s : State) : Option VecResult × State :=
  let f (hi lo : Nat) := ifld o.word hi lo
  let l := vecLen o.word
  let fa := Fmt.ofCode (f 30 28)
  let lt := f 76 60
  let wi := if bitAt o.word 77 then 4 else 2
  let ri := readPort c 3 (vecEaddr o.rb) (wi * l) s
  let rt := readPort c 3 (vecEaddr o.ra) (packedBytes fa.width lt) ri.2
  match ri.1, rt.1 with
  | some li, some lta =>
    let idx := (chunks wi li).map leValue
    let t := leValue lta
    let xs := idx.map (fun i => if i < lt then decodeNum fa (packedElem fa.width t i) else Num.zero)
    let w := destWrites rt.2 c o xs
    let conf := ((chunks 64 idx).map (fun g =>
      bankLoad ((g.filter (fun i => decide (i < lt))).flatMap (fun i =>
        wordsOfRange (vecEaddr o.ra + fa.width * i / 8) (ceilDiv (fa.width * i % 8 + fa.width) 8))) - 4)).sum
    (some { writes := w.1, cnt := w.2, oob := (idx.filter (fun i => decide (lt ≤ i))).length, conflicts := conf }, rt.2)
  | _, _ => (none, rt.2)

/-- Every other vector opcode (R172, R175, R215). -/
def runElementwise (c : Nat) (o : EngOp) (s : State) : Option VecResult × State :=
  let f (hi lo : Nat) := ifld o.word hi lo
  let op := opOf o.word
  let l := vecLen o.word
  let fa := Fmt.ofCode (f 30 28)
  let fb := Fmt.ofCode (f 33 31)
  let two := decide (op ≤ 0x35)
  let inPlace := op = 0x33 || op = 0x39
  let ra := readSource c 3 o.ra (f 38 37) fa l s
  let rb := if two then readSource c 3 o.rb (f 40 39) fb l ra.2 else (some [], ra.2)
  let rm := if op = 0x39 then readMask c 3 o.rb l rb.2 else (some [], rb.2)
  let rd := if inPlace then readSource c 4 o.rd (f 59 58) (Fmt.ofCode (f 27 25)) l rm.2 else (some [], rm.2)
  match ra.1, rb.1, rm.1, rd.1 with
  | some a, some b, some m, some d =>
    let xs := a.mapIdx (fun i x => vecElem op (f 45 41) x (nth Num.zero b i) (nth Num.zero d i) (nth false m i))
    let w := destWrites rd.2 c o xs
    let srcs := (if f 38 37 = 3 then [] else [(vecEaddr o.ra, fa.width)]) ++ (if two && f 40 39 ≠ 3 then [(vecEaddr o.rb, fb.width)] else [])
      ++ (if op = 0x39 then [(vecEaddr o.rb, 1)] else [])
    (some { writes := w.1, cnt := w.2, oob := 0, conflicts := vecConflicts srcs l }, rd.2)
  | _, _, _, _ => (none, rd.2)

/-- A vector instruction's whole work (R171-R178). -/
def runVector (c : Nat) (o : EngOp) (s : State) : Option VecResult × State :=
  match opOf o.word with
  | 0x38 => runCmp c o s
  | 0x3C => runReduce c o s
  | 0x3D => runGather c o s
  | _ => runElementwise c o s

/-- VECTOR_COMPLETE: the first instruction of the vector unit's queue reads its sources, writes its result and completes
(R171-R178, R202). One whose sources cannot be read writes nothing and stays (R248). -/
def execVectorComplete (core : CoreId) (s : State) : Host.Outcome State Fault Refusal :=
  let c := core.val
  match (s.core c).ops.find? (fun o => o.engine = .vector && !o.abandoned) with
  | none => .next s
  | some o =>
    if tabGet false (s.core c).engReset 1 then .next s
    else match runVector c o s with
      | (none, s) => .next (s.modCore c (fun k => k.modOp o.seq (fun q => { q with abandoned := true })))
      | (some r, s) =>
        let s := r.writes.foldl (fun s w => writeArray c 3 w.addr w.tail w.bytes s) s
        let s := ((r.cnt.apply c s).bumpCore c 0x43 r.oob).bumpCore c 0x55 r.conflicts
        .next (completeOp c o.seq (s.advanceCore c 0x91 (ceilDiv (vecLen o.word) 64)))

/-- ADD enters the vector unit's queue (R215). -/
def execAdd (core : CoreId) (stream : StreamId) (s : State) : Host.Outcome State Fault Refusal :=
  .next (issueOp 0x30 core.val stream.val (enqueueOp .vector) s)

/-- SUB enters the vector unit's queue (R215). -/
def execSub (core : CoreId) (stream : StreamId) (s : State) : Host.Outcome State Fault Refusal :=
  .next (issueOp 0x31 core.val stream.val (enqueueOp .vector) s)

/-- MUL enters the vector unit's queue (R215). -/
def execMul (core : CoreId) (stream : StreamId) (s : State) : Host.Outcome State Fault Refusal :=
  .next (issueOp 0x32 core.val stream.val (enqueueOp .vector) s)

/-- FMA enters the vector unit's queue (R215). -/
def execFma (core : CoreId) (stream : StreamId) (s : State) : Host.Outcome State Fault Refusal :=
  .next (issueOp 0x33 core.val stream.val (enqueueOp .vector) s)

/-- MIN enters the vector unit's queue (R215). -/
def execMin (core : CoreId) (stream : StreamId) (s : State) : Host.Outcome State Fault Refusal :=
  .next (issueOp 0x34 core.val stream.val (enqueueOp .vector) s)

/-- MAX enters the vector unit's queue (R215). -/
def execMax (core : CoreId) (stream : StreamId) (s : State) : Host.Outcome State Fault Refusal :=
  .next (issueOp 0x35 core.val stream.val (enqueueOp .vector) s)

/-- ABS enters the vector unit's queue (R215). -/
def execAbs (core : CoreId) (stream : StreamId) (s : State) : Host.Outcome State Fault Refusal :=
  .next (issueOp 0x36 core.val stream.val (enqueueOp .vector) s)

/-- NEG enters the vector unit's queue (R215). -/
def execNeg (core : CoreId) (stream : StreamId) (s : State) : Host.Outcome State Fault Refusal :=
  .next (issueOp 0x37 core.val stream.val (enqueueOp .vector) s)

/-- CMP enters the vector unit's queue (R215). -/
def execCmp (core : CoreId) (stream : StreamId) (s : State) : Host.Outcome State Fault Refusal :=
  .next (issueOp 0x38 core.val stream.val (enqueueOp .vector) s)

/-- SEL enters the vector unit's queue (R215). -/
def execSel (core : CoreId) (stream : StreamId) (s : State) : Host.Outcome State Fault Refusal :=
  .next (issueOp 0x39 core.val stream.val (enqueueOp .vector) s)

/-- CVT enters the vector unit's queue (R215). -/
def execCvt (core : CoreId) (stream : StreamId) (s : State) : Host.Outcome State Fault Refusal :=
  .next (issueOp 0x3A core.val stream.val (enqueueOp .vector) s)

/-- FUNC enters the vector unit's queue (R215). -/
def execFunc (core : CoreId) (stream : StreamId) (s : State) : Host.Outcome State Fault Refusal :=
  .next (issueOp 0x3B core.val stream.val (enqueueOp .vector) s)

/-- REDUCE enters the vector unit's queue (R215). -/
def execReduce (core : CoreId) (stream : StreamId) (s : State) : Host.Outcome State Fault Refusal :=
  .next (issueOp 0x3C core.val stream.val (enqueueOp .vector) s)

/-- GATHER enters the vector unit's queue (R215). -/
def execGather (core : CoreId) (stream : StreamId) (s : State) : Host.Outcome State Fault Refusal :=
  .next (issueOp 0x3D core.val stream.val (enqueueOp .vector) s)

/-- FILL enters the vector unit's queue (R215). -/
def execFill (core : CoreId) (stream : StreamId) (s : State) : Host.Outcome State Fault Refusal :=
  .next (issueOp 0x3E core.val stream.val (enqueueOp .vector) s)

end Sys2Proof.Machine
end

