-- ==== Sys2Proof/Machine/Retriever.lean ====
section
/-! DEFINITION. The Retriever: pairing of logits and commands, the sampling pipeline, tables, completion writes and feedback
(R345, R346, R351-R363, R458, R515). -/
namespace Sys2Proof.Machine

/-- Change a pack's Retriever. -/
def State.modRetr (s : State) (p : Nat) (f : Retriever → Retriever) : State := s.modPack p (fun k => { k with retr := f k.retr })

/-- The step a SEQ names: the step of the pack with those low bits, at or before the step in progress (R351). -/
def State.stepOfSeq (s : State) (p seq : Nat) : Word :=
  let st := (s.pack p).step
  st - ((BitVec.ofNat 16 (bitsOf st 0 16) - BitVec.ofNat 16 seq).setWidth 64)

/-- The feedback packet of a sample (R358), on the channel the context's record names. -/
def feedbackPkt (s : State) (p : Nat) (x : Sample) : Pkt :=
  let k := s.ctx x.ctx
  let c := retrRouter p
  { hdr := { Hdr.zero with
      ptype := 0x02, nw := 2, dstDev := k.fbDev, dstCore := k.fbCore, dstBowl := k.fbBowl, gen := k.fbGen, period := k.fbPeriod,
      tag := k.fbTag, srcDev := s.device, srcCore := c, epoch := s.epochOf c }
    words := [BitVec.ofNat 64 (at_ 40 (x.flags % 256) + at_ 32 (x.status % 256) + x.token % 2 ^ 32),
              BitVec.ofNat 64 (at_ 48 (x.ctx % 512) + at_ 32 (x.seq % 65536) + x.position % 2 ^ 32)]
    payload := [], exit := decide (16 ≤ colOf c), origin := 3 }

/-- Send the feedback of a sample in its scheduled entry (R358). -/
def sendFeedback (p : Nat) (x : Sample) (s : State) : State := sendFromL (retrRouter p) (feedbackPkt s p x) s

/-- A pair leaves the store: its slot is free, and its SEQ takes no further logits (R352, R353). -/
def Retriever.finish (r : Retriever) (n seq : Nat) : Retriever :=
  { r with
    pairs := r.pairs.filter (fun y => !(y.ctx = n && y.seq = seq))
    finished := tabSet [] r.finished n (addSeq seq (tabGet [] r.finished n)) }

/-- A pair matched with RCANCEL frees its slot and answers STATUS 5 with no completion; it takes 1 beat (R353, R359). -/
def finishCancel (p n seq : Nat) (s : State) : State :=
  let x : Sample :=
    { ctx := n, seq := seq, status := 5, token := 0xFFFFFFFF, logprob := nanLog, flags := 0,
      position := s.hbmNum ((s.ctx n).stateAddr + 4) 4, irq := false, kept := false, startedAt := s.howl, beats := 1, readyAt := s.howl, seqno := 0 }
  let s := s.modRetr p (fun r => r.finish n seq)
  sendFeedback p x (s.bump (0x1800 + p) 0x36 1)

/-- Finish a context's pair when it is complete and cancelled. -/
def cancelIfWhole (p n seq : Nat) (s : State) : State :=
  match (s.pack p).retr.pairs.find? (fun x => x.ctx = n && x.seq = seq) with
  | some x => if x.whole (s.ctx n).vocab && (match x.cmd with | some c => c.cancel | none => false) then finishCancel p n seq s else s
  | none => s

/-- Element numbers and values of a logits packet below V: BF16 is widened exactly (R351, R353). -/
def logitElems (bf16 : Bool) (v start : Nat) (payload : List Byte) : List (Nat × BitVec 32) :=
  let w := if bf16 then 2 else 4
  ((chunks w payload).mapIdx (fun i b => (start + i, BitVec.ofNat 32 (if bf16 then leValue b * 65536 else leValue b)))).filter
    (fun e => decide (e.1 < v))

/-- A logits packet's elements put into a pair, which then holds a slot (R351, R352). -/
def RetrPair.take (x : RetrPair) (es : List (Nat × BitVec 32)) : RetrPair :=
  es.foldl (fun x e => { x with logits := tabSet 0 x.logits e.1 e.2, seen := tabSet false x.seen e.1 true, count := x.count + 1 }) { x with slot := true }

/-- RETRIEVER_LOGITS: a logits packet takes or fills its context's slot, or is a fault (R351-R353, R361); the L output holds one for which there is
no slot. -/
def execRetrieverLogits (pack : PackId) (s : State) : Host.Outcome State Fault Refusal :=
  let p := pack.val
  let c := retrRouter p
  match lqHead c s with
  | none => .next s
  | some q =>
    if q.hdr.ptype ≠ 0x07 || (s.pack p).retr.stopped then .next s
    else
      let w := nth 0 q.words 0
      let n := retrCtx w
      let seq := retrSeq w
      if !s.retrServes p n then .next (retrieverFault 0x91 p n (lqPop c s))
      else
        let k := s.ctx n
        let r := (s.pack p).retr
        let es := if k.logitBf16 then 2 else 4
        let start := 64 * q.hdr.doff / es
        let lastFlit := start + (q.hdr.len - 1) * (256 / es)
        let pair := (r.pairs.find? (fun x => x.ctx = n && x.seq = seq)).getD (RetrPair.fresh n seq)
        let es := logitElems k.logitBf16 k.vocab start q.payload
        if halfFaults r.pairs n seq k.vocab (fun x => x.take es) || k.vocab ≤ lastFlit || es.any (fun e => tabGet false pair.seen e.1)
            || (tabGet [] r.finished n).contains seq then
          .next (retrieverFault 0x90 p n (lqPop c s))
        else if logitsHeld c q s then .next s
        else .next (cancelIfWhole p n seq ((lqPop c s).modRetr p (fun r => { r with pairs := setPair n seq (fun x => x.take es) r.pairs })))

/-- A command packet of the kind named reaches the Retriever; only the first for a context and SEQ acts (R228, R353, R361). -/
def retrCommand (p : Nat) (cancel : Bool) (s : State) : State :=
  let c := retrRouter p
  match lqHead c s with
  | none => s
  | some q =>
    let w := nth 0 q.words 0
    if q.hdr.ptype ≠ 0x08 || bitAt w 33 ≠ cancel || (s.pack p).retr.stopped then s
    else
      let n := retrCtx w
      let seq := retrSeq w
      let s := lqPop c s
      if !s.retrServes p n then retrieverFault 0x91 p n s
      else
        let r := (s.pack p).retr
        let put (x : RetrPair) : RetrPair := { x with cmd := some { cancel := cancel, irq := bitAt w 32 } }
        if (tabGet [] r.acted n).contains seq then s
        else if halfFaults r.pairs n seq (s.ctx n).vocab put then retrieverFault 0x90 p n s
        else
          let s := s.modRetr p (fun r => { r with
            pairs := setPair n seq put r.pairs, acted := tabSet [] r.acted n (addSeq seq (tabGet [] r.acted n)) })
          cancelIfWhole p n seq s

/-- RETRIEVER_SAMPLE_CMD (R353). -/
def execRetrieverSampleCmd (pack : PackId) (s : State) : Host.Outcome State Fault Refusal := .next (retrCommand pack.val false s)
/-- RETRIEVER_CANCEL_CMD (R353). -/
def execRetrieverCancelCmd (pack : PackId) (s : State) : Host.Outcome State Fault Refusal := .next (retrCommand pack.val true s)

/-- The Retriever tables image a pack holds, empty for none (R360, R578). -/
def State.retrBody (s : State) (p : Nat) : List Byte :=
  let comp := tabGet FwComp.reset s.upd.comps 5
  match tabGet 0 comp.packSlot p with
  | 0 => []
  | n + 1 => (tabGet FwSlot.empty comp.slots n).body

/-- A table set: its vocabulary, masks 1-15 and flag map (R360, R574). -/
structure TableSet where
  vocab : Nat
  masks : List (List Byte)
  flags : List Byte

/-- Bytes a part takes, padded to a multiple of 64. -/
def padded (n : Nat) : Nat := alignUp n 64

/-- Bytes of a table set of a vocabulary: the 8 B head, 15 masks and the flag map, each padded (log entry 24). -/
def setBytes (v : Nat) : Nat := padded 8 + 15 * padded (ceilDiv v 8) + padded v

/-- The table set that starts a body. -/
def tableSetOf (b : List Byte) : TableSet :=
  let v := leValue (b.take 4)
  let m := padded (ceilDiv v 8)
  { vocab := v
    masks := (List.range 15).map (fun i => (b.drop (padded 8 + i * m)).take (ceilDiv v 8))
    flags := (b.drop (padded 8 + 15 * m)).take v }

/-- Table set `i` of a body (fuel: the sets before it). -/
def tableSetAt : Nat → List Byte → TableSet
  | 0, b => tableSetOf b
  | i + 1, b => tableSetAt i (b.drop (setBytes (leValue (b.take 4))))

/-- Whether a mask allows a token: mask 0 and a set without tables allow all (R360). -/
def TableSet.allows (t : TableSet) (mask token : Nat) : Bool :=
  mask = 0 || t.vocab = 0 || bitAt (nth 0 (nth [] t.masks (mask - 1)) (token / 8)) (token % 8)

/-- The verdict flags of a token (R358, R360). -/
def TableSet.flagsOf (t : TableSet) (token : Nat) : Nat := (nth 0 t.flags token).toNat

/-- One round of Philox-4x32 on counter words and key (R356). -/
def philoxRound (c : Nat × Nat × Nat × Nat) (k : Nat × Nat) : Nat × Nat × Nat × Nat :=
  let p0 := 0xD2511F53 * c.1
  let p1 := 0xCD9E8D57 * c.2.2.1
  ((p1 / 2 ^ 32) ^^^ c.2.1 ^^^ k.1, p1 % 2 ^ 32, (p0 / 2 ^ 32) ^^^ c.2.2.2 ^^^ k.2, p0 % 2 ^ 32)

/-- Rounds of Philox with the key raised after each (fuel: rounds). -/
def philoxRounds : Nat → Nat × Nat × Nat × Nat → Nat × Nat → Nat × Nat × Nat × Nat
  | 0, c, _ => c
  | r + 1, c, k => philoxRounds r (philoxRound c k) ((k.1 + 0x9E3779B9) % 2 ^ 32, (k.2 + 0xBB67AE85) % 2 ^ 32)

/-- Output word 0 of Philox-4x32-10 with key SEED and counter ctx, POSITION, 0, 0 (R356; its constants, log entry 25). -/
def philoxWord (seed : Word) (ctx position : Nat) : Nat :=
  (philoxRounds 10 (ctx, position % 2 ^ 32, 0, 0) (bitsOf seed 0 32, bitsOf seed 32 32)).1

/-- The draw u = (w + 0.5) × 2^-32, rounded once (R356). -/
def drawOf (w : Nat) : Num := toF32 (.fin false (2 * w + 1) (-33))

/-- What a sample computes: status, token, LOGPROB and K' (R354, R359). -/
structure Drawn where
  status : Nat
  token : Nat
  logprob : BitVec 32
  k : Nat

/-- Descending by value, equal values by ascending token (R354). -/
def beforeTok (a b : Nat × Num) : Bool := numLt b.2 a.2 || (!numLt a.2 b.2 && decide (a.1 ≤ b.1))

/-- Running sums of a list in its order (R354). -/
def runningSums : Num → List Num → List Num
  | _, [] => []
  | a, x :: t => let c := addF32 a x; c :: runningSums c t

/-- Index of the first element that meets a test, up to a last index; the last index if none does (R355). -/
def firstHit (p : Num → Bool) (l : List Num) (last : Nat) : Nat :=
  let h := (l.take (last + 1)).findIdx p
  if h ≤ last then h else last

/-- The sampling pipeline of R354 on logits in token order. -/
def sampleOf (x : SampParams) (n position : Nat) (allow : Nat → Bool) (logits : List Num) : Drawn :=
  let live := (logits.mapIdx (fun i v => (i, v))).filter (fun e => allow e.1 && e.2 ≠ .inf true)
  let v := logits.length
  if live.any (fun e => e.2.isNan) then { status := 2, token := 0xFFFFFFFF, logprob := nanLog, k := 0 }
  else match live with
    | [] => { status := 3, token := 0xFFFFFFFF, logprob := nanLog, k := 0 }
    | _ :: _ =>
      let t := decodeNum .fp32 x.temp.toNat
      let greedy := numEq t .zero
      let tt : Num := if greedy then .fin false 1 0 else t
      let y := live.map (fun e => (e.1, divNum e.2 tt))
      let m := (y.drop 1).foldl (fun a e => maxNum a e.2) (nth (0, Num.zero) y 0).2
      let top := m = .inf false
      let y := if top then (y.filter (fun e => e.2 = .inf false)).map (fun e => (e.1, Num.zero)) else y
      let m := if top then .zero else m
      let ex (e : Nat × Num) : Num := funcEval 7 (subF32 e.2 m)
      let z := reduceVecSum (y.map ex)
      let logp (e : Nat × Num) : BitVec 32 := BitVec.ofNat 32 (f32Bits (subF32 (subF32 e.2 m) (funcEval 9 z)))
      let sorted := y.mergeSort beforeTok
      if greedy then
        let e := nth (0, Num.zero) sorted 0
        { status := 1, token := e.1, logprob := logp e, k := 0 }
      else
        let kk := if x.topK ≠ 0 then x.topK else if x.topP ≠ 0 then 1024 else 0
        let cand := if kk ≠ 0 then sorted.take kk else y
        let c := match cand.map ex with | [] => [] | a :: l => a :: runningSums a l
        let last := cand.length - 1
        let jEnd := if x.topP ≠ 0 then
            (let bound := mulF32 (.fin false x.topP (-16)) (nth .zero c last); firstHit (fun a => !numLt a bound && !a.isNan) c last)
          else last
        let bound := mulF32 (drawOf (philoxWord x.seed n position)) (nth .zero c jEnd)
        let e := nth (0, Num.zero) cand (firstHit (fun a => numLt bound a) c jEnd)
        { status := 0, token := e.1, logprob := logp e, k := if x.topK ≠ 0 || x.topP ≠ 0 then cand.length else 8 * ceilDiv v 64 }

/-- Beats of a sample (R359). -/
def sampleBeats (v k : Nat) : Nat := 24 + 2 * ceilDiv v 64 + ceilDiv k 8

/-- Whether a completion raises the context's vector (R358). -/
def raisesIrq (x : SampParams) (flags status : Nat) (irq : Bool) : Bool :=
  irq || x.irqMode = 1 || (x.irqMode = 2 && ((flags &&& x.flagMask) ≠ 0 || status = 2 || status = 3 || status = 4))

/-- The context whose pair is complete and not cancelled, of the lowest local index, with its pair (R354). -/
def State.readyPair (s : State) (p : Nat) : Option RetrPair :=
  (s.retrCtxs p).findSome? (fun n => (s.pack p).retr.pairs.find? (fun x => x.ctx = n && x.whole (s.ctx n).vocab))

/-- The completion a replayed context wrote for its step the first time (R458). -/
def State.keptFor (s : State) (n : Nat) (step : Word) : Option Kept :=
  match tabGet none s.vet.kept n with | some x => if x.step = step then some x else none | none => none

/-- The sample a ready pair starts: a replayed context's kept answer, STATUS 4 at the position limit, or the pipeline
(R354, R356, R358, R359, R458). -/
def startSample (p : Nat) (x : RetrPair) (s : State) : Sample :=
  let n := x.ctx
  let k := s.ctx n
  let pos := s.hbmNum (k.stateAddr + 4) 4
  let irq := match x.cmd with | some c => c.irq | none => false
  let base : Sample :=
    { ctx := n, seq := x.seq, status := 4, token := 0xFFFFFFFF, logprob := nanLog, flags := 0, position := pos,
      irq := raisesIrq k.params 0 4 irq, kept := false, startedAt := s.howl, beats := 1, readyAt := s.howl, seqno := 0 }
  match s.keptFor n (s.stepOfSeq p x.seq) with
  | some y => { base with status := y.status, token := y.token, flags := y.flags, position := y.position, kept := true }
  | none =>
    if k.maxPos ≤ pos then base
    else
      let t := tableSetAt k.tableSet (s.retrBody p)
      let d := sampleOf k.params n pos (t.allows k.params.maskId)
        ((List.range k.vocab).map (fun i => decodeNum .fp32 (tabGet 0 x.logits i).toNat))
      let fl := if d.token = 0xFFFFFFFF then 0 else t.flagsOf d.token
      { base with status := d.status, token := d.token, logprob := d.logprob, flags := fl,
                  irq := raisesIrq k.params fl d.status irq, beats := sampleBeats k.vocab d.k }

/-- Whether the pipeline reads a word with an uncorrectable error of the logit store or of the context's table set; a kept answer and STATUS 4
read neither (R361). -/
def State.storeBad (s : State) (p : Nat) (x : RetrPair) : Bool :=
  let k := s.ctx x.ctx
  (s.keptFor x.ctx (s.stepOfSeq p x.seq)).isNone && decide (s.hbmNum (k.stateAddr + 4) 4 < k.maxPos)
  && (x.bad || tabGet false (s.pack p).retr.tableErr k.tableSet)

/-- SAMPLE_START: the lowest ready context starts; the pipeline has read its logits and the slot is free, or meets an uncorrectable error
(R352, R354, R361). -/
def execSampleStart (pack : PackId) (s : State) : Host.Outcome State Fault Refusal :=
  let p := pack.val
  let r := (s.pack p).retr
  if r.stopped || r.sampling.isSome then .next s
  else match s.readyPair p with
    | none => .next s
    | some x =>
      let y := startSample p x s
      .next (if s.storeBad p x then retrieverFault 0x92 p x.ctx s
        else (s.modRetr p (fun r => { r.finish x.ctx x.seq with sampling := some y })).bump (0x1800 + p) 0x36 y.beats)

/-- The lowest free completion tag of a Retriever (R376). -/
def Retriever.freeTag (r : Retriever) : Option Nat := (List.range 8).find? (fun t => r.reqs.all (fun q => q.tag ≠ t))

/-- A completion write as a fetch request of the Retriever's router: LEN64 is 1 and H the entry's line, of which its 32 B are stored; `origin`
4 tells the upper half (R358, R376, R378; log entry 41). -/
def cplPkt (s : State) (p addr tag gen : Nat) (data : List Byte) : Pkt :=
  let c := retrRouter p
  { hdr := { Hdr.zero with
      ptype := 0x09, nw := 2, long := true, len := 1, dstDev := s.device, dstCore := fetchRouter c (stackOf addr), srcDev := s.device,
      srcCore := c, epoch := s.epochOf c }
    words := fetchWords true 64 (addr / 64 * 64) gen 1 tag 0, payload := fitTo 0 256 data, exit := false
    origin := if addr % 64 = 32 then 4 else 0 }

/-- Issue the completion write and then the feedback of a sample; none when no completion entry, tag or room in the router
is free (R346, R358, R458). -/
def issueCpl (p : Nat) (x : Sample) (s : State) : Option State :=
  let n := x.ctx
  let k := s.ctx n
  let r := (s.pack p).retr
  let c := retrRouter p
  match r.freeTag with
  | none => none
  | some tag =>
    if !s.cplFree n || k.stage = .refuse || 2 ≤ ((s.core c).input .l).fetch.length then none
    else
      let i := s.cplNext n
      let step := s.stepOfSeq p x.seq
      let gen := tabGet 0 r.tagGen tag
      let e := cplEntry k n i x.token x.logprob x.position x.seqno step x.flags x.status x.readyAt
      let s := enterL c (cplPkt s p (k.cplAddr i) tag gen.toNat e) s
      let s := s.modRetr p (fun r => { r with
        reqs := r.reqs ++ [{ tag := tag, gen := gen, ctx := n, status := x.status, irq := x.irq, step := step }] })
      let kept : Kept := { step := step, token := x.token, status := x.status, flags := x.flags, position := x.position }
      some (sendFeedback p x { s with vet := { s.vet with kept := tabSet none s.vet.kept n (some kept) } })

/-- SAMPLE_READY: the sample's beats have passed; its completion is issued, or held for a free entry with its feedback
withheld; a kept one sends its feedback alone (R346, R358, R359, R458). -/
def execSampleReady (pack : PackId) (s : State) : Host.Outcome State Fault Refusal :=
  let p := pack.val
  match (s.pack p).retr.sampling with
  | none => .next s
  | some x =>
    if !howlGe s.howl (x.startedAt + BitVec.ofNat 64 x.beats) then .next s
    else
      let x := { x with readyAt := s.howl, seqno := s.hbmNum ((s.ctx x.ctx).stateAddr + 8) 4 }
      let s := (s.modRetr p (fun r => { r with sampling := none })).advancePack p
      if x.kept then .next ((sendFeedback p x s).bump 0x501B 6 1)
      else if (s.pack p).retr.ready.any (fun y => y.ctx = x.ctx) then .next (s.modRetr p (fun r => { r with ready := r.ready ++ [x] }))
      else match issueCpl p x s with
        | some s => .next s
        | none => .next (s.modRetr p (fun r => { r with ready := r.ready ++ [x] }))

/-- COMPLETION_WRITE: a completion held for the context is written once an entry is free: the Retriever's, or the ring
controller's STATUS 9 (R344, R346). -/
def execCompletionWrite (ctx : CtxId) (s : State) : Host.Outcome State Fault Refusal :=
  let n := ctx.val
  let p := n % 16
  if (s.ctx n).owner.isNone || (s.pack p).retr.stopped then .next s
  else if (s.ctx n).stage = .refuse then .next (ringRefuse n s)
  else match (s.pack p).retr.ready.find? (fun x => x.ctx = n) with
    | none => .next s
    | some x => match issueCpl p x (s.modRetr p (fun r => { r with ready := r.ready.erase x })) with
      | none => .next s
      | some s => .next s

/-- COMPLETION_ACCEPTED: the stack's reply to a completion write: CPL_TAIL advances and MSI-X follows, or fault 0x94; a stale
tag generation is discarded (R358, R361, R363, R379, R515). -/
def execCompletionAccepted (pack : PackId) (s : State) : Host.Outcome State Fault Refusal :=
  let p := pack.val
  let c := retrRouter p
  match lqHead c s with
  | none => .next s
  | some q =>
    let w0 := nth 0 q.words 0
    let w1 := nth 0 q.words 1
    if q.hdr.ptype ≠ 0x0A || bitsOf w1 30 2 ≠ 1 then .next s
    else
      let s := lqPop c s
      let r := (s.pack p).retr
      let tag := bitsOf w1 24 6
      if bitsOf w1 32 8 ≠ (tabGet 0 r.tagGen tag).toNat then .next (s.bumpCore c 0x82 1)
      else match r.reqs.find? (fun x => x.tag = tag) with
        | none => .next s
        | some x =>
          let s := s.modRetr p (fun r => { r with reqs := r.reqs.filter (fun y => y.tag ≠ tag) })
          if bitsOf w0 56 8 ≠ 0 then .next (if r.stopped then s else retrieverFault 0x94 p x.ctx s)
          else
            let s := (cplAccepted portWrite x.ctx x.step s).bump (0x1800 + p) (if x.status ≤ 1 then 0x30 else 0x31) 1
            .next (if x.irq then raiseCtx x.ctx s else s)

end Sys2Proof.Machine
end

