-- ==== Sys2Proof/Machine/Beat.lean ====
section
/-! DEFINITION. What the end of a beat brings about without a command (R37, R54, R56, R306, R346, R352, R363). -/
namespace Sys2Proof.Machine

/-- A beat in which a pack's Retriever held logits for want of a slot, or a completion for a full ring, is counted (R346, R352, R363; log entry
41). -/
def retrBeat (s : State) (p : Nat) : State :=
  let c := retrRouter p
  let r := (s.pack p).retr
  let full := r.ready.any (fun x => !s.cplFree x.ctx)
  if r.stopped then s
  else (s.bump (0x1800 + p) 0x34 (bit01 (heldAtL (fun q => logitsHeld c q s) c s))).bump (0x1800 + p) 0x35 (bit01 full)

/-- What the end of a beat brings about by itself (log entry 1). -/
def beatEnds (s : State) : State := (List.range 16).foldl retrBeat (launchBeat s)

end Sys2Proof.Machine
end

