-- ==== Sys2Proof/Machine/MeshInstr.lean ====
section
/-! DEFINITION. SEND, SENDT, TAKE, RSAMPLE and RCANCEL (R85-R87, R216-R219, R227, R228, R269-R275, R292, R293, R308, R630). -/
namespace Sys2Proof.Machine

/-- The header every packet of a route carries before its place in the schedule is known (R270, R274). -/
def routeHdr (s : State) (c stream ptype : Nat) (r : BitVec 256) : Hdr :=
  { Hdr.zero with
    ptype := ptype, mcast := rMcast r, reduce := rReduce r, rfmt := rRfmt r, rid := if rReduce r then rRid r else 0,
    dstDev := rDev r, dstCore := rCore r, dstBowl := rBowl r, gen := rGen r, colMask := if rMcast r then rCols r else 0,
    rowMask := if rMcast r then rRows r else 0, srcDev := s.device, srcCore := c, srcStream := stream, epoch := s.epochOf c }

/-- The first output of a packet's path at its sending router (R293). -/
def firstOut (s : State) (c : Nat) (p : Pkt) : Dir := (outDirs s.device c .l p).headD .l

/-- The period a send falls into: that of the head entry of the first output on its path (log entry 15). -/
def sendPeriod (s : State) (c : Nat) (p : Pkt) : Nat :=
  let o := (s.core c).output (firstOut s c p)
  if o.table.idle then 0 else o.period

/-- A packet given its TAG in a period, with whether it exceeds the route's USES; the use is counted (R275). -/
def scheduleIn (per c route : Nat) (p : Pkt) (s : State) : Pkt × Bool × State :=
  let r := (s.core c).route route
  let key := route * 4096 + per
  let i := tabGet 0 (s.core c).routeSent key
  let p := { p with hdr := { p.hdr with tag := (rTag r + i) % 4096, period := per % 16 } }
  (p, decide (rUses r ≤ i), s.modCore c (fun k => { k with routeSent := tabSet 0 k.routeSent key (i + 1) }))

/-- A packet given its TAG and PERIOD, with whether it exceeds the route's USES; the use is counted (R275). -/
def schedulePkt (c route : Nat) (p : Pkt) (s : State) : Pkt × Bool × State := scheduleIn (sendPeriod s c p) c route p s

/-- The place of an instruction and its packet in the mesh port (R203). -/
def meshOp (x : Issued) (seq : Nat) (p : Pkt) (src : Option (Nat × Nat)) (ranges : List SRange) (now : Time) (held : Bool) : MeshOp :=
  { seq := seq, stream := x.i, pc := x.pc, pkt := p, src := src, ranges := ranges, at_ := now, held := held }

/-- Put a packet of a scheduled route into the mesh port; an overuse is mesh fault 0x82 and stays there (R275, R292, R293). -/
def sendScheduled (x : Issued) (route : Nat) (p : Pkt) (src : Option (Nat × Nat)) (s : State) : State :=
  let ranges := declaredRanges (s.core x.c) x
  let r := schedulePkt x.c route p s
  let s := r.2.2
  let k := s.core x.c
  let d := firstOut s x.c r.1
  let word (code : Nat) := meshFaultWord code r.1.hdr.period r.1.hdr.tag d.code (k.output d).head x.c
  let put (held : Bool) (s : State) : State :=
    s.setCore x.c { k with seq := k.seq + 1, mesh := k.mesh ++ [meshOp x k.seq r.1 src ranges s.howl held] }
  if r.2.1 then meshFault 0x82 [packOf x.c] x.c (word 0x82) (put true s)
  else if src.isSome then
    match (outDirs s.device x.c .l r.1).find? (fun q => !hasMatch (k.output q) .l r.1.hdr) with
    | none => put false s
    | some q => meshFault 0x80 [packOf x.c] x.c (meshFaultWord 0x80 r.1.hdr.period r.1.hdr.tag q.code (k.output q).head x.c) (put true s)
  else promote x.c (put false s)

/-- The Retriever word: CTX in [8:0] and SEQ in [31:16] (R351). -/
def retrieverWord (ctx : Nat) (step : Word) : Nat := ctx % 512 + at_ 16 (bitsOf step 0 16)

/-- SEND: the packet and its source range wait in the mesh port for the route's Leash entry (R87, R202, R217). On a Retriever
route the note is the Retriever word (R351; without NOTE it names context 0 and the step, log entry 16). -/
def execSend (core : CoreId) (stream : StreamId) (s : State) : Host.Outcome State Fault Refusal :=
  .next (issueOp 0x40 core.val stream.val (fun x s =>
    let route := ifld x.w 15 8
    let r := (s.core x.c).route route
    let len := ifld x.w 22 16
    let note := bitAt x.w 27
    let retr := rKind r = 6
    let h := routeHdr s x.c x.i (if retr then 0x07 else 0x01) r
    let words := if note then [x.rb] else if retr then [BitVec.ofNat 64 (retrieverWord 0 (s.pack (packOf x.c)).step)] else []
    let h := { h with long := true, len := len, note := note, nw := bit01 note, doff := bitsOf x.ra 21 21 / 64,
                      reduce := h.reduce || retr, rid := if retr then rRid r else h.rid }
    sendScheduled x route { hdr := h, words := words, payload := [], exit := rExit r, origin := 0 }
      (some (bitsOf x.ra 0 21, 256 * len)) s) s)

/-- The words X[XS] … X[XS + NW - 1] (R218). -/
def tupleWords (t : Stream) (xs nw : Nat) : List Word := (List.range nw).map (fun i => t.reg (xs + i))

/-- SENDT: one tuple on a data-tuple route, or in open slots on a service-tuple route (R218, R271, R286). -/
def execSendt (core : CoreId) (stream : StreamId) (s : State) : Host.Outcome State Fault Refusal :=
  .next (issueOp 0x41 core.val stream.val (fun x s =>
    let route := ifld x.w 15 8
    let r := (s.core x.c).route route
    let nw := ifld x.w 24 20
    let svc := rKind r = 3
    let h := routeHdr s x.c x.i (if svc then 0x03 else 0x02) r
    let long := decide (4 < nw)
    let h := { h with service := svc, nw := nw, long := long, len := bit01 long }
    let p : Pkt := { hdr := h, words := tupleWords ((s.core x.c).stream x.i) (ifld x.w 19 16) nw, payload := [], exit := rExit r, origin := 0 }
    if svc then promote x.c (s.modCore x.c (fun k => { k with seq := k.seq + 1, mesh := k.mesh ++ [meshOp x k.seq p none [] s.howl false] }))
    else sendScheduled x route p none s) s)

/-- KIND of an entry tag: 0 head, 1 continuation, 2 pad (R300). -/
def tagKind (t : Nat) : Nat := fieldOf t 62 2
/-- COUNT of an entry tag: words of a tuple, or entries of a pad (R300). -/
def tagCount (t : Nat) : Nat := fieldOf t 57 5

/-- What a TAKE finds: the pointer after pads with the head's word count, an empty Bowl, or an unreadable word. -/
inductive TakeFind where
  | head (p : BitVec 15) (count : Nat)
  | empty
  | bad

/-- Skip pads from the read pointer to the head tuple (R308; fuel: entries). -/
def takeFind (c : Nat) (b : Bowl) : Nat → BitVec 15 → State → TakeFind × State
  | 0, _, s => (.empty, s)
  | f + 1, p, s =>
    if p = b.wp then (.empty, s)
    else match readPort c 5 (tagAddr b (p.toNat % bDepth b)) 8 s with
      | (none, s) => (.bad, s)
      | (some l, s) =>
        let t := leValue l
        if tagKind t = 2 then takeFind c b f (p + BitVec.ofNat 15 (tagCount t)) s else (.head p (tagCount t), s)

/-- Park a stream on a Bowl with its PC at the TAKE, which runs again when it wakes (R88, R308). -/
def parkOnBowl (x : Issued) (bowl : Nat) (s : State) : State :=
  s.modCore x.c (fun k => k.modStream x.i (fun t =>
    { t with st := .parkedBowl, waitBowl := bowl, pc := x.pc, retake := true, woken := false, lastIssue := s.clock }))

/-- A Bowl after a TAKE in beat `now`: RP moved, which the router uses from the next beat (R303). -/
def Bowl.takeTo (b : Bowl) (p : BitVec 15) (now : Nat) : Bowl :=
  { b with rp := p, rpOld := if b.rpAt = now + 1 then b.rpOld else b.rp, rpAt := now + 1 }

/-- TAKE: the head tuple's words go to consecutive registers and RP passes pads and tuple; an empty Bowl parks the
stream; too long a tuple is fault 0x03; an unreadable word abandons it (R86, R219, R308, R630). -/
def execTake (core : CoreId) (stream : StreamId) (s : State) : Host.Outcome State Fault Refusal :=
  .next (issueOp 0x42 core.val stream.val (fun x s =>
    let bi := ifld x.w 13 8
    let xd := ifld x.w 17 14
    let b := (s.core x.c).bowl bi
    match takeFind x.c b (bDepth b + 1) b.rp s with
    | (.empty, s) => parkOnBowl x bi s
    | (.bad, s) => s.modCore x.c (fun k => k.modStream x.i (fun t => { t with pc := x.pc }))
    | (.head p n, s) =>
      if 16 < xd + n then streamFaultAt x.c x.i x.pc 0x03 s
      else match readPort x.c 5 (entryAddr b (p.toNat % bDepth b)) (8 * n) s with
        | (none, s) => s.modCore x.c (fun k => k.modStream x.i (fun t => { t with pc := x.pc }))
        | (some l, s) =>
          s.modCore x.c (fun k =>
            let t := ((bytesWords l).mapIdx (fun i w => (i, w))).foldl (fun (t : Stream) e => t.setReg (xd + e.1) e.2) (k.stream x.i)
            (k.setStream x.i t).setBowl bi (b.takeTo (p + BitVec.ofNat 15 ((n + 3) / 4)) s.clock))) s)

/-- The command packet of RSAMPLE or RCANCEL (R227, R351). -/
def retrieverCmd (x : Issued) (cancel : Bool) (s : State) : State :=
  let route := ifld x.w 15 8
  let r := (s.core x.c).route route
  let w := retrieverWord (bitsOf x.ra 0 9) (s.pack (packOf x.c)).step + at_ 32 (bit01 (!cancel && bitAt x.w 20)) + at_ 33 (bit01 cancel)
  let h := { routeHdr s x.c x.i 0x08 r with nw := 1, reduce := false, rid := 0 }
  sendScheduled x route { hdr := h, words := [BitVec.ofNat 64 w], payload := [], exit := rExit r, origin := 0 } none s

/-- RSAMPLE (R227, R228, R351). -/
def execRsample (core : CoreId) (stream : StreamId) (s : State) : Host.Outcome State Fault Refusal :=
  .next (issueOp 0x70 core.val stream.val (fun x s => retrieverCmd x false s) s)

/-- RCANCEL (R227, R228, R351). -/
def execRcancel (core : CoreId) (stream : StreamId) (s : State) : Host.Outcome State Fault Refusal :=
  .next (issueOp 0x71 core.val stream.val (fun x s => retrieverCmd x true s) s)

end Sys2Proof.Machine
end

