-- ==== Sys2Proof/Machine/CollarInstr.lean ====
section
/-! DEFINITION. The Collar instructions and STEPDONE (R82, R88, R97-R111, R220-R226). -/
namespace Sys2Proof.Machine

/-- n or t of a Collar instruction: IMM32 or XR[31:0] (R220). -/
def collarN (x : Issued) : BitVec 32 := if bitAt x.w 29 then BitVec.ofNat 32 (bitsOf x.ra 0 32) else BitVec.ofNat 32 (ifld x.w 95 64)

/-- The packet of a remote Collar operation on a route (R270, R272, R275). -/
def collarPkt (s : State) (x : Issued) (op : Nat) (n : Nat) (word1 : Nat) : Pkt :=
  let r := (s.core x.c).route (ifld x.w 20 13)
  let h := { routeHdr s x.c x.i 0x05 r with dstBowl := rBowl r % 16, nw := 2, reduce := false, rid := 0 }
  { hdr := h, words := [BitVec.ofNat 64 (n + at_ 32 op), BitVec.ofNat 64 word1], payload := [], exit := rExit r, origin := 0 }

/-- A POST or COMPLETE waits until the stream's earlier work is done (R82). -/
def deferOp (x : Issued) (isLocal : Bool) (collar : Nat) (op : CollarOp) (p : Option Pkt) (s : State) : State :=
  runDeferred x.c (s.modCore x.c (fun k => { k with
    seq := k.seq + 1
    deferred := k.deferred ++ [{ seq := k.seq, stream := x.i, isLocal := isLocal, collar := collar, op := op, pkt := p }] }))

/-- A remote operation that R82 defers: it takes its place in the schedule at issue. -/
def deferRemote (x : Issued) (op : CollarOp) (p : Pkt) (s : State) : State :=
  let route := ifld x.w 20 13
  let r := schedulePkt x.c route p s
  if r.2.1 then sendScheduled x route p none s
  else deferOp x false 0 op (some r.1) r.2.2

/-- POST (R97, R221). -/
def execPost (core : CoreId) (stream : StreamId) (s : State) : Host.Outcome State Fault Refusal :=
  .next (issueOp 0x50 core.val stream.val (fun x s =>
    let n := collarN x
    if bitAt x.w 12 then deferRemote x (.post n) (collarPkt s x 0 n.toNat 0) s
    else deferOp x true (ifld x.w 11 8) (.post n) none s) s)

/-- WAIT: a satisfied WAIT goes on; otherwise the stream parks on the Collar, with PC past the WAIT (R88, R89, R97). -/
def execWait (core : CoreId) (stream : StreamId) (s : State) : Host.Outcome State Fault Refusal :=
  .next (issueOp 0x51 core.val stream.val (fun x s =>
    let k := ifld x.w 11 8
    let col := (s.core x.c).collar k
    if (collarN x).toNat ≤ col.value.toNat || col.ovf then s
    else s.modCore x.c (fun y => y.modStream x.i (fun t => { t with st := .parkedCollar, waitCollar := k, waitT := collarN x, woken := false }))) s)

/-- Mark a register of the issuing stream pending (R195). -/
def setPending (x : Issued) (r : Nat) (s : State) : State :=
  s.modCore x.c (fun k => k.modStream x.i (fun t => { t with pend := t.pend ||| BitVec.ofNat 16 (2 ^ (r % 16)) }))

/-- Word 1 of an FADD or CLAIM: destination register and stream (R272). -/
def replyTo (x : Issued) : Nat := ifld x.w 28 25 + at_ 4 (x.i % 8)

/-- FADD: locally XD takes the old value; remotely it is pending until the reply (R97, R222). -/
def execFadd (core : CoreId) (stream : StreamId) (s : State) : Host.Outcome State Fault Refusal :=
  .next (issueOp 0x52 core.val stream.val (fun x s =>
    let n := collarN x
    let xd := ifld x.w 28 25
    if bitAt x.w 12 then
      let s := setPending x xd s
      sendScheduled x (ifld x.w 20 13) (collarPkt s x 1 n.toNat (replyTo x)) none s
    else
      let k := ifld x.w 11 8
      let old := ((s.core x.c).collar k).value
      writeReg x.c x.i xd (old.setWidth 64) (collarAdd x.c k n s)) s)

/-- RESET of a local Collar (R97). -/
def execReset (core : CoreId) (stream : StreamId) (s : State) : Host.Outcome State Fault Refusal :=
  .next (issueOp 0x53 core.val stream.val (fun x s =>
    s.modCore x.c (fun k => k.setCollar (ifld x.w 11 8) (k.collar (ifld x.w 11 8)).clear)) s)

/-- Park a stream on the reply to a CLAIM into `r` (R88, R222). -/
def parkOnClaim (x : Issued) (r : Nat) (s : State) : State :=
  s.modCore x.c (fun k => k.modStream x.i (fun t => { t with st := .parkedClaim, waitReg := r % 16, woken := false }))

/-- CLAIM: parks until its reply is written; a local one is answered by the own Shepherd (R107, R109, R222, R327). -/
def execClaim (core : CoreId) (stream : StreamId) (s : State) : Host.Outcome State Fault Refusal :=
  .next (issueOp 0x54 core.val stream.val (fun x s =>
    let xd := ifld x.w 28 25
    let s := parkOnClaim x xd (setPending x xd s)
    if bitAt x.w 12 then
      let route := ifld x.w 20 13
      let s := s.modCore x.c (fun k => k.modStream x.i (fun t => { t with claimsUsed := tabSet 0 t.claimsUsed route (tabGet 0 t.claimsUsed route + 1) }))
      sendScheduled x route (collarPkt s x 2 0 (replyTo x)) none s
    else
      let r := onClaim x.c (ifld x.w 11 8) x.c x.i s
      claimAnswered x.c x.i xd r.1 r.2) s)

/-- COMPLETE of the index and CLAIM_GEN in XR; the generation sent is that of R100: the route's, or the local Collar's (R100, R109, R221, R223). -/
def execComplete (core : CoreId) (stream : StreamId) (s : State) : Host.Outcome State Fault Refusal :=
  .next (issueOp 0x55 core.val stream.val (fun x s =>
    let index : BitVec 32 := BitVec.ofNat 32 (bitsOf x.ra 0 32)
    let cg : BitVec 8 := BitVec.ofNat 8 (bitsOf x.ra 32 8)
    if bitAt x.w 12 then
      deferRemote x (.complete index cg (BitVec.ofNat 8 (rGen ((s.core x.c).route (ifld x.w 20 13)))))
        (collarPkt s x 3 0 (index.toNat + at_ 32 cg.toNat)) s
    else
      let k := ifld x.w 11 8
      deferOp x true k (.complete index cg ((s.core x.c).collar k).gen) none s) s)

/-- A null claim of a claim route (R108, R272). -/
def nullClaimPkt (x : Issued) (route : Nat) (s : State) : Pkt :=
  let r := (s.core x.c).route route
  let h := { routeHdr s x.c x.i 0x05 r with dstBowl := rBowl r % 16, nw := 2, reduce := false, rid := 0 }
  { hdr := h, words := [BitVec.ofNat 64 (at_ 32 4), 0], payload := [], exit := rExit r, origin := 0 }

/-- One null claim in a period of a route: it waits in the mesh port until its entry is near (R108, R281; log entry 72). -/
def nullClaim (x : Issued) (route per : Nat) (s : State) : State :=
  let r := scheduleIn per x.c route (nullClaimPkt x route s) s
  r.2.2.modCore x.c (fun k => { k with seq := k.seq + 1, mesh := k.mesh ++ [meshOp x k.seq r.1 none [] s.howl false] })

/-- Null claims in every unused claim entry of a stream's step, period by period (R108, R225, R325, R327). -/
def nullClaims (x : Issued) (s : State) : State :=
  let s := (List.range 256).foldl (fun s route =>
    if tabGet 0 (s.core x.c).claimRes (claimKey x.i route) = 0 then s
    else
      let k := s.core x.c
      let o := k.output (firstOut s x.c (nullClaimPkt x route s))
      (List.range o.table.periods).foldl (fun s per =>
        foldN (rUses (k.route route) - tabGet 0 k.routeSent (route * 4096 + per)) (fun s _ => nullClaim x route per s) s) s) s
  promote x.c s

/-- The gate a STEPDONE names (R224-R226). -/
def gateOf (x : Issued) : Option Gate :=
  if bitAt x.w 8 then
    some { collar := ifld x.w 12 9, threshold := if bitAt x.w 17 then BitVec.ofNat 32 (bitsOf x.ra 0 32) else BitVec.ofNat 32 (ifld x.w 95 64) }
  else none

/-- STEPDONE: null claims, the gate, then parking on launch with PC past it (R225). -/
def execStepdone (core : CoreId) (stream : StreamId) (s : State) : Host.Outcome State Fault Refusal :=
  .next (issueOp 0x60 core.val stream.val (fun x s =>
    let s := nullClaims x s
    s.modCore x.c (fun k => k.modStream x.i (fun t => { t with gate := gateOf x, st := .parkedLaunch, woken := false, claimsUsed := [] }))) s)

end Sys2Proof.Machine
end

