-- ==== Sys2Proof/Machine/Jobs.lean ====
section
/-! DEFINITION. Jobs across devices: forming, the Howl exchange, gates, liveness, Barks (R40-R42, R403-R429, R470). -/
namespace Sys2Proof.Machine

/-- A little-endian field of a message. -/
def msgField (l : List Byte) (off n : Nat) : Nat := leValue ((l.drop off).take n)

/-- The common header of a control message (R417). -/
def decodeHead (l : List Byte) : CtrlHead :=
  { dir := msgField l 1 1, src := msgField l 2 2, epoch := BitVec.ofNat 32 (msgField l 4 4), tTx := BitVec.ofNat 64 (msgField l 8 8) }

/-- The body of a control message (R418, R459); none for an MTYPE that is not listed. -/
def decodeBody (l : List Byte) : Option CtrlBody :=
  let w32 (off : Nat) : BitVec 32 := BitVec.ofNat 32 (msgField l off 4)
  let w64 (off : Nat) : Word := BitVec.ofNat 64 (msgField l off 8)
  match msgField l 0 1 with
  | 1 => some (.hello { part := w32 16, stepping := BitVec.ofNat 8 (msgField l 20 1), port := msgField l 21 1, expect := msgField l 22 2, rxEcho := w64 24, txEcho := w64 32 })
  | 2 => some (.beacon { rxEcho := w64 16, txEcho := w64 24, masterOffset := w32 32, heard := BitVec.ofNat 8 (msgField l 36 1), muzzled := msgField l 37 1 ≠ 0 })
  | 3 => some (.bark (msgField l 16 2) (msgField l 18 2) (w64 24))
  | 4 => some (.suspect (msgField l 16 2) (msgField l 18 2) (msgField l 20 1))
  | 5 => some (.ready (w64 16))
  | 6 => some (.go (w64 16) (w64 24))
  | 7 => some (.join (w32 16) (msgField l 20 4))
  | 8 => some (.start (w32 16) (w64 24))
  | 9 => some (.rewind (msgField l 16 2) (w64 24))
  | _ => none

/-- MTYPE of a control message. -/
def ctrlType (l : List Byte) : Nat := msgField l 0 1

/-- The first control message of a type waiting at a port, its arrival time in 1/256 beat, and the state with it consumed and
its credit owed (R395, R417). -/
def takeCtrl (f mtype : Nat) (s : State) : Option (CtrlHead × CtrlBody × Word × State) :=
  let p := s.port f
  match p.ctrl.find? (fun e => ctrlType e.flit = mtype) with
  | none => none
  | some e => match decodeBody e.flit with
    | none => none
    | some b => some (decodeHead e.flit, b, e.arrival, s.setPort f { p with ctrl := p.ctrl.erase e, owed := tabMod 0 p.owed e.vc (· + 1) })

/-- Whether the device is in a formed job: running, Barked or self-muzzled (R419-R424). -/
def State.inJob (s : State) : Bool := s.job.state = .running || s.job.state = .barked || s.job.state = .selfMuzzled

/-- A fault of the formed job: its record, and the Bark, which gives BARKED where it is the first (R428, R468-R471). `via` is
VIA of LAST_BARK. -/
def jobFault (code via : Nat) (s : State) : State :=
  let n := s.faults.seq.toNat
  let first := !s.job.barkActed
  let s := jobBark s.job.coord.toNat via code s.howl (writeFaultRecord code 4 0 0 0 s)
  if first then setBarked n s else s

/-- The later of two epochs in serial-number comparison (R404). -/
def epochMax (a b : BitVec 32) : BitVec 32 := if (b - a).toInt < 0 then a else b

/-- The epoch after the latest reported one, skipping 0 (R404). -/
def nextEpoch (e : BitVec 32) : BitVec 32 := if e + 1 = 0 then 1 else e + 1

/-- PART and STEPPING of this module (R1, R418). -/
def partCode : BitVec 32 := 0x1088
/-- STEPPING. -/
def steppingCode : BitVec 8 := 0xB1

/-- Send HELLO on a port with the echo of the last one heard there (R408, R412, R418). -/
def sendHello (f : Nat) (s : State) : State :=
  let p := s.port f
  let m : HelloMsg :=
    { part := partCode, stepping := steppingCode, port := f, expect := hopFrom s.job.extent.toNat s.device (portDir f)
      rxEcho := p.rxEcho, txEcho := p.txEcho }
  sendCtrl f (.hello m) (s.setPort f { p with helloSent := p.helloSent + 1 })

/-- Ports of the directions the extent uses. -/
def State.jobPorts (s : State) : List Nat := (usedDirs s.job.extent.toNat).flatMap portsOf

/-- Ports of a direction that remain for its striping list (R391, R408). -/
def State.listOf (s : State) (d : Nat) : List Nat := (portsOf d).filter (fun f => (s.port f).state = .up && !(s.port f).excluded)

/-- Send a message to each timing child (R408, R414). -/
def sendChildren (body : CtrlBody) (s : State) : State :=
  (childrenOf s.job.extent.toNat s.device).foldl (fun s d => sendCtrlTo d body s) s

/-- The device starts in the job with an epoch: launch queues empty, ports of the striping lists are members, the Howl
follows or leads, START goes to the children (R40, R404, R408). -/
def enterJob (epoch : BitVec 32) (s : State) : State :=
  let members := (usedDirs s.job.extent.toNat).flatMap (fun d => tabGet [] s.job.lists d)
  let s := (List.range 16).foldl (fun s p => if (s.pack p).queue.isEmpty then s else s.modPack p (fun k => { k with queue := [] })) s
  let s := members.foldl (fun s f => s.modPort f (fun p =>
    if p.state = .up then { p with state := .member, rxEcho := 0, txEcho := 0, lastTx := 0, heardThis := false } else p)) s
  let s := { s with
    job := { s.job with
      state := .running, epoch := epoch, startResult := 0, barkActed := false, neighbours := [], reports := [], flooded := [],
      dead := [], deadCount := 0, poorPeriods := 0, lastPeriod := 0, offset := 0, offsetPeak := 0, slew := 0, readys := [],
      readySent := false, purgeFrom := none } }
  sendChildren (.start epoch (howl256 s)) s

/-- The striping lists are fixed; a direction left without a port gives JOB_START_RESULT 1, unless an exclusion gave 2 or 3 (R408, R409). -/
def fixLists (s : State) : State :=
  let dirs := usedDirs s.job.extent.toNat
  let lists := dirs.map (fun d => (d, s.listOf d))
  let lacks := lists.any (fun e => e.2.isEmpty)
  { s with job := { s.job with
      lists := lists.filter (fun e => !e.2.isEmpty)
      listsFixed := !lacks
      startResult := if lacks && s.job.startResult = 0 then 1 else s.job.startResult } }

/-- Forming goes on as far as it can: lists once every port up has exchanged HELLO twice, then JOIN to the parent or, at the
master, START when the count is whole (R408). -/
def jobAdvance (s : State) : State :=
  if s.job.state ≠ .forming then s
  else
    let ready := s.jobPorts.all (fun f => (s.port f).state ≠ .up || (s.port f).excluded || 2 ≤ (s.port f).helloCount)
    let s := if !s.job.listsFixed && ready then fixLists s else s
    if !s.job.listsFixed || s.job.joinSent || !(childrenOf s.job.extent.toNat s.device).all (fun d => tabGet false s.job.joins d) then s
    else if s.isMaster then
      (if s.job.joinCount = jobSize s.job.extent.toNat then enterJob (nextEpoch s.job.joinLatest) s else s)
    else
      let s := sendCtrlTo s.job.parent.toNat (.join s.job.joinLatest s.job.joinCount) s
      { s with job := { s.job with joinSent := true } }

/-- A port as a job start takes it: down ports retrain, others are up and heard from again (R394, R408, R422). -/
def Port.forJob (p : Port) : Port :=
  match p.state with
  | .down => { Port.reset with state := .training }
  | .member => { p with state := .up, helloCount := 0, helloSent := 0, excluded := false, rxEcho := 0, txEcho := 0 }
  | .muzzled => { p with state := .up, helloCount := 0, helloSent := 0, excluded := false, rxEcho := 0, txEcho := 0 }
  | .up => { p with helloCount := 0, helloSent := 0, excluded := false, rxEcho := 0, txEcho := 0 }
  | .disabled => p
  | .training => p

/-- Every packet of the channels and every control message received other than HELLO, JOIN and START is dropped, and the credits of what was
received are returned (R395, R408). -/
def Port.dropCtrl (p : Port) : Port :=
  let keep (e : CtrlIn) : Bool := ctrlType e.flit = 1 || ctrlType e.flit = 7 || ctrlType e.flit = 8
  let part (e : Nat × List (List Byte)) : Nat := if (Pkt.ofFlits false e.2).outsize then 0 else e.2.length
  let owed := (p.ctrl.filter (fun e => !keep e)).foldl (fun t e => tabMod 0 t e.vc (· + 1)) p.owed
  { p with
    ctrl := p.ctrl.filter keep
    vcs := p.vcs.filter (fun v => v.1 < 2)
    rx := []
    owed := p.rx.foldl (fun t e => tabMod 0 t e.1 (· + part e)) owed }

/-- JOB_COMMAND 1 (R404, R406-R408, R609): status and state. -/
def jobStart (s : State) : Nat × State :=
  if !(s.power.dev = .idle || s.power.dev = .run) then (stState, s)
  else if s.job.state = .forming || (List.range 16).any (fun p => (s.pack p).prog.isSome || (s.pack p).teardown.isSome) then (stBusy, s)
  else if !devIn s.job.extent.toNat s.job.coord.toNat then (stRange, s)
  else
    let ext := s.job.extent.toNat
    let s := s.ring.arrivals.foldl (fun s r => owePkt r s) s
    let s := { s with
      job := { s.job with
        state := .forming, startResult := 0, parent := BitVec.ofNat 16 (parentOf ext s.device), startedAt := s.howl, lists := [],
        listsFixed := false, joins := [], joinLatest := s.job.epoch, joinCount := 1, joinSent := false }
      ring := { s.ring with arrivals := [], requests := [], replies := [], collectives := [], closed := [], deliver := [] } }
    let s := (List.range 18).foldl (fun s f => s.modPort f (fun p => p.forJob.dropCtrl)) s
    let s := s.jobPorts.foldl (fun s f => if (s.port f).state = .up then sendHello f s else s) s
    (stDone, jobAdvance s)

/-- JOB_START (R407, R408). -/
def execJobStart (s : State) : Host.Outcome State Fault Refusal := .next (s.command jobStart)

/-- JOB_COMMAND 2: JOB_STATE 0, JOB_EPOCH kept (R422). -/
def jobLeave (s : State) : Nat × State :=
  let s := (List.range 18).foldl (fun s f => s.modPort f (fun p =>
    if p.state = .member || p.state = .muzzled then { p with state := .up } else p)) s
  (stDone, { s with job := { s.job with state := .none, slew := 0 } })

/-- JOB_LEAVE (R422). -/
def execJobLeave (s : State) : Host.Outcome State Fault Refusal := .next (s.command jobLeave)

/-- JOB_START_TIMEOUT: START has not come 2^26 beats after the command (R408, R409). -/
def execJobStartTimeout (s : State) : Host.Outcome State Fault Refusal :=
  if s.job.state = .forming && howlGe s.howl (s.job.startedAt + BitVec.ofNat 64 (2 ^ 26)) then
    .next { s with job := { s.job with state := .startFailed, startResult := if s.job.startResult = 0 then 4 else s.job.startResult } }
  else .next s

/-- A signed 64-bit word. -/
def sw (w : Word) : Int := w.toInt

/-- The one-way delay and the offset of the exchange t1, t2, t3, t4, in 1/256 beat (R412). -/
def delayOf (t1 t2 t3 t4 : Word) : Int := (sw (t2 - t1) + sw (t4 - t3)) / 2
/-- The offset of the exchange (R412). -/
def offsetFrom (t1 t2 t3 t4 : Word) : Int := (sw (t2 - t1) - sw (t4 - t3)) / 2

/-- Record an exclusion's code, the first one standing (R408, R409). -/
def excludePort (f code : Nat) (s : State) : State :=
  let s := s.modPort f (fun p => { p with excluded := true })
  { s with job := { s.job with startResult := if s.job.startResult = 0 then code else s.job.startResult } }

/-- HELLO on a port: the far end is recorded and, while forming, checked and the delay measured (R405, R408, R409, R412). -/
def execHello (port : PortId) (s : State) : Host.Outcome State Fault Refusal :=
  let f := port.val
  match takeCtrl f 1 s with
  | some (h, .hello m, t2, s) =>
    let p := { s.port f with neighbour := h.src, rxEcho := t2, txEcho := h.tTx }
    let echoed := m.txEcho ≠ 0
    let p := if echoed then { p with delay := delayOf h.tTx t2 m.txEcho m.rxEcho, helloCount := p.helloCount + 1 } else p
    let s := s.setPort f p
    if s.job.state ≠ .forming || !s.jobPorts.contains f then .next s
    else
      let want := hopFrom s.job.extent.toNat s.device (portDir f)
      if m.part ≠ partCode || m.stepping ≠ steppingCode then .next (jobAdvance (excludePort f 3 s))
      else if h.src ≠ want || m.expect ≠ s.device then .next (jobAdvance (excludePort f 2 s))
      else .next (jobAdvance (if p.helloSent < 3 then sendHello f s else s))
  | _ => .next s

/-- JOIN from a child (R408). -/
def execJoin (port : PortId) (s : State) : Host.Outcome State Fault Refusal :=
  match takeCtrl port.val 7 s with
  | some (h, .join latest count, _, s) =>
    if s.job.state ≠ .forming || !(childrenOf s.job.extent.toNat s.device).contains h.src || tabGet false s.job.joins h.src then .next s
    else .next (jobAdvance { s with job := { s.job with
      joins := tabSet false s.job.joins h.src true
      joinLatest := epochMax s.job.joinLatest latest
      joinCount := s.job.joinCount + count } })
  | _ => .next s

/-- START from the parent: the Howl is loaded with START's value plus the measured delay and the time since its arrival (R40, R408).
START carries 56 bits of the Howl; bits 63:56 become 0 (log entry 64). -/
def execStart (port : PortId) (s : State) : Host.Outcome State Fault Refusal :=
  let f := port.val
  match takeCtrl f 8 s with
  | some (h, .start epoch t, t2, s) =>
    if s.job.state ≠ .forming || h.src ≠ s.job.parent.toNat || s.isMaster then .next s
    else
      let now := t + BitVec.ofInt 64 (s.port f).delay + (howl256 s - t2)
      .next (enterJob epoch { s with howl := BitVec.ofNat 64 (now.toNat / 256) })
  | _ => .next s

/-- Directions heard in the period, as HEARD shows them (R418). -/
def State.heardDirs (s : State) : BitVec 8 :=
  BitVec.ofNat 8 (((List.range 6).filter (fun d => (portsOf d).any (fun f => (s.port f).heardThis))).map (fun d => 2 ^ d)).sum

/-- Send a BEACON on a port (R418, R419). -/
def sendBeacon (heard : BitVec 8) (f : Nat) (s : State) : State :=
  let p := s.port f
  let muz := s.job.state = .selfMuzzled
  let s := sendCtrl f (.beacon { rxEcho := p.rxEcho, txEcho := p.txEcho, masterOffset := s.job.offset, heard := heard, muzzled := muz }) s
  s.modPort f (fun p => { p with lastTx := howl256 s })

/-- Ports that beacon: members, and the muzzled ports of a self-muzzled device (R419, R422). -/
def State.beaconPorts (s : State) : List Nat := (List.range 18).filter (fun f => (s.port f).state = .member || (s.port f).state = .muzzled)

/-- A neighbour's record. -/
def State.nb (s : State) (d : Nat) : Neighbour := tabGet .fresh s.job.neighbours d
/-- The state with one neighbour changed. -/
def State.modNb (s : State) (d : Nat) (f : Neighbour → Neighbour) : State :=
  { s with job := { s.job with neighbours := tabMod .fresh s.job.neighbours d f } }

/-- A period ends: contact with each neighbour is judged, missed periods counted, and the device's own contact (R419, R420, R422, R433). -/
def endPeriod (s : State) : State :=
  let nbs := neighbourDevs s.job.extent.toNat s.device
  let contacts := nbs.filter (fun d => (s.nb d).heardNow && (s.nb d).hearsUs)
  let poor := !nbs.isEmpty && decide (2 * contacts.length ≤ nbs.length)
  let s := nbs.foldl (fun s d => s.modNb d (fun n => { n with missed := if n.heardNow then 0 else n.missed + 1, heardNow := false })) s
  let s := s.beaconPorts.foldl (fun s f =>
    (if (s.port f).heardThis then s else s.bump (0x2400 + f) 0x0C 1).modPort f (fun p => { p with heardThis := false })) s
  { s with job := { s.job with poorPeriods := if poor then s.job.poorPeriods + 1 else 0 } }

/-- BEACON_SEND: at a multiple of 2^16 beats a period ends and every member port sends a BEACON (R419). -/
def execBeaconSend (s : State) : Host.Outcome State Fault Refusal :=
  let k := s.howl.toNat / 65536 + 1
  if !s.inJob || s.howl.toNat % 65536 ≠ 0 || s.job.lastPeriod = k then .next s
  else
    let heard := s.heardDirs
    let first := s.job.lastPeriod = 0
    let s := if first then s else endPeriod s
    let s := { s with job := { s.job with lastPeriod := k } }
    .next (s.beaconPorts.foldl (fun s f => sendBeacon heard f s) s)

/-- Reports about a subject at or above a state, from distinct reporters among its neighbours (R421, R423). -/
def State.reportsOf (s : State) (subject state : Nat) : Nat :=
  ((neighbourDevs s.job.extent.toNat subject).filter (fun r => decide (state ≤ tabGet 0 s.job.reports (subject * 65536 + r)))).length

/-- Whether a count is a majority of a subject's neighbours. -/
def State.majority (s : State) (subject n : Nat) : Bool := decide ((neighbourDevs s.job.extent.toNat subject).length < 2 * n)

/-- Whether a STATE 3 report about a subject is held. -/
def State.muzzleReported (s : State) (subject : Nat) : Bool :=
  s.job.reports.any (fun e => e.1 / 65536 = subject && e.2 = 3)

/-- Declare a device dead, once in an epoch (R423). -/
def declareDead (subject : Nat) (s : State) : State :=
  if s.job.dead.contains subject then s
  else
    let s := { s with job := { s.job with
      dead := s.job.dead ++ [subject], lastDead := BitVec.ofNat 16 subject, deadCount := s.job.deadCount + 1 } }
    if s.job.barkActed then s else jobFault 0xB2 0xFF s

/-- What the reports held about a subject call for (R421, R423). -/
def weighReports (subject : Nat) (s : State) : State :=
  let s := if s.majority subject (s.reportsOf subject 1) && !s.job.barkActed then jobFault 0xB2 0xFF s else s
  if s.muzzleReported subject || s.majority subject (s.reportsOf subject 2) then declareDead subject s else s

/-- The key of a SUSPECT in the set of first copies: subject, reporter and state (R417; log entry 29). -/
def suspectKey (subject reporter state : Nat) : Nat := (subject * 65536 + reporter) * 4 + state % 4

/-- Hold a report and re-send its first copy (R417, R421). -/
def holdReport (except : Option Nat) (subject reporter state : Nat) (s : State) : State :=
  let key := suspectKey subject reporter state
  if tabGet false s.job.flooded key then s
  else
    let s := { s with job := { s.job with
      flooded := tabSet false s.job.flooded key true
      reports := tabMod 0 s.job.reports (subject * 65536 + reporter) (fun v => max v (state % 4)) } }
    weighReports subject (floodCtrl except (.suspect subject reporter state) s)

/-- This device raises a SUSPECT about a neighbour, once for each state in an epoch (R417, R420). -/
def raiseSuspect (subject state : Nat) (s : State) : State :=
  if tabGet false s.job.flooded (suspectKey subject s.device state) then s
  else holdReport none subject s.device state (s.bump 0x501A 4 1)

/-- NEIGHBOUR_SUSPECT: 8 periods without a BEACON of a neighbour (R420). -/
def execNeighbourSuspect (device : Fin 65536) (s : State) : Host.Outcome State Fault Refusal :=
  let d := device.val
  if s.inJob && (neighbourDevs s.job.extent.toNat s.device).contains d && 8 ≤ (s.nb d).missed && (s.nb d).live = .heard then
    .next (raiseSuspect d 1 (s.modNb d (fun n => { n with live := .suspect })))
  else .next s

/-- NEIGHBOUR_SILENT: 24 periods without a BEACON of a neighbour (R420). -/
def execNeighbourSilent (device : Fin 65536) (s : State) : Host.Outcome State Fault Refusal :=
  let d := device.val
  if s.inJob && (neighbourDevs s.job.extent.toNat s.device).contains d && 24 ≤ (s.nb d).missed
      && ((s.nb d).live = .heard || (s.nb d).live = .suspect) then
    .next (raiseSuspect d 2 (s.modNb d (fun n => { n with live := .silent })))
  else .next s

/-- SUSPECT on a port (R417, R421, R423). -/
def execSuspect (port : PortId) (s : State) : Host.Outcome State Fault Refusal :=
  match takeCtrl port.val 4 s with
  | some (h, .suspect subject reporter state, _, s) =>
    if !s.inJob || s.job.state = .selfMuzzled || h.epoch ≠ s.job.epoch then .next s
    else .next (holdReport (some port.val) subject reporter state s)
  | _ => .next s

/-- The offset of the larger magnitude (R34). -/
def peakOffset (a b : BitVec 32) : BitVec 32 := if a.toInt.natAbs < b.toInt.natAbs then b else a

/-- A slew within ±100 ppm, in 0.01 ppm (R41; log entry 26). -/
def boundSlew (v : BitVec 32) : BitVec 32 :=
  let i := v.toInt
  BitVec.ofInt 32 (if 10000 < i then 10000 else if i < -10000 then -10000 else i)

/-- A follower's measurement: offset from the master, its peak and slew; beyond ±4 beats it Barks with 0xB0 (R41, R42, R412). -/
def measureOffset (o : Int) (s : State) : State :=
  let off := BitVec.ofInt 32 o
  let s := { s with job := { s.job with
    offset := off, offsetPeak := peakOffset s.job.offsetPeak off, slew := boundSlew (Config.slewFor off) } }
  if 1024 < o.natAbs && s.job.state = .running then jobFault 0xB0 0xFF s else s

/-- BEACON on a port: liveness, and from the parent the offset from the master (R412, R417, R419-R421). -/
def execBeacon (port : PortId) (s : State) : Host.Outcome State Fault Refusal :=
  let f := port.val
  match takeCtrl f 2 s with
  | some (h, .beacon m, t2, s) =>
    if !s.inJob || h.epoch ≠ s.job.epoch || !(neighbourDevs s.job.extent.toNat s.device).contains h.src then .next s
    else
      let p := s.port f
      let timed := m.txEcho ≠ 0
      let o := offsetFrom h.tTx t2 m.txEcho m.rxEcho + m.masterOffset.toInt
      let s := s.setPort f { p with
        rxEcho := t2, txEcho := h.tTx, heardThis := true
        delay := if timed then delayOf h.tTx t2 m.txEcho m.rxEcho else p.delay }
      let ext := s.job.extent.toNat
      let hears := (usedDirs ext).any (fun d => hopFrom ext h.src d = s.device && bitAt m.heard d)
      let s := s.modNb h.src (fun n =>
        if m.muzzled then { n with live := .muzzled }
        else { n with heardNow := true, hearsUs := hears, missed := 0, live := .heard })
      let s := if m.muzzled && s.job.state ≠ .selfMuzzled then raiseSuspect h.src 3 s else s
      if timed && !s.isMaster && h.src = s.job.parent.toNat && s.portTo h.src = some f then .next (measureOffset o s) else .next s
  | _ => .next s

/-- A member port of a device that muzzles itself: of what waits to be sent only its Bark leaves (R422). -/
def Port.muzzle (p : Port) : Port :=
  { p with
    state := .muzzled
    vcs := (p.vcs.filter (fun v => v.1 < 2)).map (fun v => (v.1, v.2.filter (fun x => ctrlType x.bytes = 3))) }

/-- SELF_MUZZLE: contact with no more than half its neighbours for 16 periods (R422). -/
def execSelfMuzzle (s : State) : Host.Outcome State Fault Refusal :=
  if !(s.job.state = .running || s.job.state = .barked) || s.job.poorPeriods < 16 then .next s
  else
    let s := if s.job.barkActed then writeFaultRecord 0xB3 4 0 0 0 s else jobFault 0xB3 0xFF s
    let s := (s.jobProgs true).foldl (fun s g => (s.progPacks g).foldl (fun s p => stopPack p s) s) s
    let s := { s with
      gen := { s.gen with running := false }
      mirror := { s.mirror with state := if s.mirror.state = 1 then 3 else s.mirror.state }
      job := { s.job with state := .selfMuzzled } }
    let heard := s.heardDirs
    let s := (List.range 18).foldl (fun s f => s.modPort f (fun p => if p.state = .member then p.muzzle else p)) s
    .next ((s.beaconPorts.foldl (fun s f => sendBeacon heard f s) s).alert 3)

/-- READY from a child: its step is checked, and READY or GO follows when all are in (R414, R415). -/
def execReady (port : PortId) (s : State) : Host.Outcome State Fault Refusal :=
  match takeCtrl port.val 5 s with
  | some (h, .ready step, _, s) =>
    if s.job.state ≠ .running || h.epoch ≠ s.job.epoch || !(childrenOf s.job.extent.toNat s.device).contains h.src then .next s
    else if step ≠ s.jobNextStep then .next (jobFault 0xB6 0xFF s)
    else .next (deviceReady { s with job := { s.job with readys := tabSet false s.job.readys h.src true } })
  | _ => .next s

/-- GO from the parent: its step is checked, and it is forwarded and passed to the packs (R47, R414, R415). -/
def execGo (port : PortId) (s : State) : Host.Outcome State Fault Refusal :=
  match takeCtrl port.val 6 s with
  | some (h, .go step t, _, s) =>
    if s.job.state ≠ .running || h.epoch ≠ s.job.epoch || h.src ≠ s.job.parent.toNat then .next s
    else if step ≠ s.jobNextStep then .next (jobFault 0xB6 0xFF s)
    else .next (deviceGo step t s)
  | _ => .next s

/-- BARK on a port: the first of the epoch is acted on; a later one is a duplicate (R417, R424). -/
def execBark (port : PortId) (s : State) : Host.Outcome State Fault Refusal :=
  match takeCtrl port.val 3 s with
  | some (h, .bark origin reason t, _, s) =>
    if !s.inJob || s.job.state = .selfMuzzled || h.epoch ≠ s.job.epoch then .next s else .next (jobBark origin port.val reason t s)
  | _ => .next s

/-- BARK_COMMAND (R406, R428, R433): the formed job where there is one, else the local job. -/
def barkCommand (s : State) : Nat × State :=
  if s.inJob then (stDone, jobFault 0xB4 0xFF s)
  else
    let n := s.faults.seq.toNat
    let first := s.barkIsFirst false
    let s := localBark 0xB4 (writeFaultRecord 0xB4 4 0 0 0 s)
    (stDone, if first then setBarked n s else s)

/-- BARK_COMMAND: writing 1 Barks the job; writing 0 does nothing (R433). -/
def execBarkCommand (value : Bool) (s : State) : Host.Outcome State Fault Refusal :=
  .next (s.command (fun s => if value then barkCommand s else (stDone, s)))

/-- BARK_LINE_RELEASE: 2^10 beats after it was driven, BARK_N is released (R424). -/
def execBarkLineRelease (s : State) : Host.Outcome State Fault Refusal :=
  match s.job.barkLineUntil with
  | none => .next s
  | some t => .next (if howlGe s.howl t then { s with job := { s.job with barkLineUntil := none } } else s)

/-- BARK_LINE_SENSE: BARK_N has been low for 128 beats: a running member that watches it and is not driving it Barks (R426). -/
def execBarkLineSense (s : State) : Host.Outcome State Fault Refusal :=
  if s.job.state = .running && s.barkLineEnabled && s.job.barkLineUntil.isNone then .next (jobFault 0xB5 0xFE s) else .next s

end Sys2Proof.Machine
end

