-- ==== Sys2Proof/Machine/Fabric.lean ====
section
/-! DEFINITION. Fabric ports, link frames, virtual channels, the I/O ring and its requests and replies (R390-R403, R427, R433,
R510, R511, R533). -/
namespace Sys2Proof.Machine

/-- KIND of a frame: 0 flit, 1 idle, 2 retry request (R393). -/
def frKind (t : BitVec 128) : Nat := bitsOf t 70 2
/-- SEQ of a frame. -/
def frSeq (t : BitVec 128) : Nat := bitsOf t 84 12
/-- ACK of a frame. -/
def frAck (t : BitVec 128) : Nat := bitsOf t 72 12
/-- VC of a frame. -/
def frVc (t : BitVec 128) : Nat := bitsOf t 67 3

/-- The CRC of a frame: over its flit and trailer bits [95:0] (R393). -/
def frameCrc (flit : List Byte) (t : BitVec 128) : Nat := crc32 (fitTo 0 256 flit ++ leBytes 12 (bitsOf t 0 96))

/-- Whether a frame passes its CRC. -/
def Frame.crcOk (f : Frame) : Bool := frameCrc f.flit f.trailer = bitsOf f.trailer 96 32

/-- A frame with its fields and CRC (R393). -/
def mkFrame (flit : List Byte) (seq ack kind vc : Nat) (sop eop : Bool) (crVc crCount : Nat) : Frame :=
  let flit := fitTo 0 256 flit
  let t := BitVec.ofNat 128 (at_ 84 (seq % 4096) + at_ 72 (ack % 4096) + at_ 70 (kind % 4) + at_ 67 (vc % 8) + at_ 66 (bit01 sop)
    + at_ 65 (bit01 eop) + at_ 62 (crVc % 8) + at_ 54 (crCount % 256))
  { flit := flit, trailer := t + BitVec.ofNat 128 (at_ 96 (frameCrc flit t)) }

/-- A frame sent again with the ACK of now (R394). -/
def Frame.withAck (f : Frame) (ack : Nat) : Frame :=
  let t := f.trailer
  mkFrame f.flit (frSeq t) ack (frKind t) (frVc t) (bitAt t 66) (bitAt t 65) (bitsOf t 62 3) (bitsOf t 54 8)

/-- Whether a port's link runs (R433). -/
def Port.live (p : Port) : Bool := p.state = .up || p.state = .member || p.state = .muzzled

/-- Every frame up to an acknowledged SEQ leaves the replay buffer (R394). -/
def Port.acked (p : Port) (ack : Nat) : Port :=
  match p.replay.findIdx? (fun f => frSeq f.trailer = ack) with
  | none => p
  | some i => { p with replay := p.replay.drop (i + 1), resend := p.resend - (i + 1) }

/-- A frame is dropped and a retry request is due: at once for a bad CRC, and for a frame out of sequence unless one has
been asked for already (R394). -/
def Port.drop (p : Port) (crc : Bool) : Port :=
  { p with waiting := true, retryPending := p.retryPending || crc || !p.waiting }

/-- Credits a frame returns (R393, R395). -/
def Port.credit (p : Port) (t : BitVec 128) : Port :=
  { p with credits := tabMod 0 p.credits (bitsOf t 62 3) (· + bitsOf t 54 8) }

/-- A port that goes down: its link state is lost; a member of a running job Barks with 0xB1 (R394, R428). -/
def portDown (f : Nat) (s : State) : State :=
  let p := s.port f
  let was := p.state = .member
  let s := (s.setPort f { Port.reset with state := .down, neighbour := p.neighbour, delay := p.delay, excluded := p.excluded }).bump (0x2400 + f) 0x0D 1
  jobAdvance (if was && s.job.state = .running then jobFault 0xB1 0xFF s else s)

/-- PORT_DOWN: the receiver has lost lock for 128 beats (R394). -/
def execPortDown (port : PortId) (s : State) : Host.Outcome State Fault Refusal :=
  .next (if (s.port port.val).live then portDown port.val s else s)

/-- PORT_ENABLE written (R433, R539): status and state. With the rails off the port stays disabled until start-up trains it. -/
def portEnable (f : Nat) (on ok : Bool) (s : State) : Nat × State :=
  s.commitFlash ok (fun s =>
    let p := s.port f
    (s.setSetting (0x2400 + f) 2 (bit01 on)).setPort f
      { Port.reset with
        state := if on && s.power.rails then .training else .disabled, neighbour := p.neighbour, delay := p.delay })

/-- PORT_DISABLE (R433). -/
def execPortDisable (port : PortId) (flash : Bool) (s : State) : Host.Outcome State Fault Refusal := .next (s.command (portEnable port.val false flash))
/-- PORT_TRAIN (R433). -/
def execPortTrain (port : PortId) (flash : Bool) (s : State) : Host.Outcome State Fault Refusal := .next (s.command (portEnable port.val true flash))

/-- PORT_UP: link training completes; a port a forming job uses starts its HELLO exchange (R390, R408). -/
def execPortUp (port : PortId) (s : State) : Host.Outcome State Fault Refusal :=
  let f := port.val
  if (s.port f).state ≠ .training then .next s
  else
    let s := s.modPort f (fun p => { p with state := .up })
    .next (if s.job.state = .forming && s.jobPorts.contains f && !s.job.listsFixed then sendHello f s else s)

/-- A received control message is kept with its arrival time; a self-muzzled device keeps HELLO and BEACON alone (R412, R417, R422). -/
def keepCtrl (f vc : Nat) (flit : List Byte) (arrival : Word) (s : State) : State :=
  let ty := ctrlType flit
  let known := decide (1 ≤ ty) && decide (ty ≤ 9) && (s.job.state ≠ .selfMuzzled || ty = 1 || ty = 2)
    && (s.job.state ≠ .forming || ty = 1 || ty = 7 || ty = 8)
  s.modPort f (fun p => if known then { p with ctrl := p.ctrl ++ [⟨flit, arrival, vc⟩] } else { p with owed := tabMod 0 p.owed vc (· + 1) })

/-- An accepted flit enters its channel; the last of a packet makes it an arrival at the ring (R393, R395). A packet greater than the channel's
buffer moves on flit by flit, so each flit's credit is due at once (log entry 74); a flit whose packet's first was discarded at a job start is discarded too (R408). -/
def acceptFlit (f : Nat) (fr : Frame) (arrival : Word) (s : State) : State :=
  let vc := frVc fr.trailer
  if vc ≤ 1 then keepCtrl f vc fr.flit arrival s
  else
    let p := s.port f
    let have_ := if bitAt fr.trailer 66 then [] else tabGet [] p.rx vc
    let lost := !bitAt fr.trailer 66 && have_.isEmpty
    let all := have_ ++ [fr.flit]
    let owe (p : Port) : Port := if (Pkt.ofFlits false all).outsize then { p with owed := tabMod 0 p.owed vc (· + 1) } else p
    if lost then s.modPort f (fun p => { p with owed := tabMod 0 p.owed vc (· + 1) })
    else if bitAt fr.trailer 65 then
      let r : RingPkt := { pkt := Pkt.ofFlits false all, since := s.howl, fromPort := f, cls1 := vc % 2 = 1 }
      let s := s.setPort f (owe { p with rx := tabSet [] p.rx vc [] })
      { s with ring := { s.ring with arrivals := s.ring.arrivals ++ [r] } }
    else s.setPort f (owe { p with rx := tabSet [] p.rx vc all })

/-- FRAME_RECEIVE: a frame arrives, with the FEC codewords corrected and not corrected since the last and its arrival's
fraction of a beat; it is accepted in sequence or dropped (R393, R394, R412, R433). -/
def execFrameReceive (port : PortId) (frame : Frame) (corrected uncorrected : Nat) (frac : Byte) (s : State) : Host.Outcome State Fault Refusal :=
  let f := port.val
  let t := frame.trailer
  if !(s.port f).live then .next s
  else
    let s := (s.bump (0x2400 + f) 9 corrected).bump (0x2400 + f) 0x0A uncorrected
    if !frame.crcOk then .next ((s.modPort f (fun p => p.drop true)).bump (0x2400 + f) 7 1)
    else if frKind t = 2 || frKind t = 3 then .next s
    else
      let s := s.modPort f (fun p => p.acked (frAck t))
      if frSeq t ≠ (s.port f).rxNext then .next (s.modPort f (fun p => p.drop false))
      else
        let s := s.modPort f (fun p => { p.credit t with waiting := false, retryPending := false, retriesSince := 0 })
        if frKind t = 1 then .next s
        else
          let s := s.modPort f (fun p => { p with rxNext := (p.rxNext + 1) % 4096 })
          .next (acceptFlit f frame (howl256 s + frac.setWidth 64) (s.bump (0x2400 + f) 6 1))

/-- RETRY_REQUEST: the frames after the one acknowledged are sent again (R394). -/
def execRetryRequest (port : PortId) (frame : Frame) (s : State) : Host.Outcome State Fault Refusal :=
  let f := port.val
  if !(s.port f).live || !frame.crcOk || frKind frame.trailer ≠ 2 then .next s
  else .next (s.modPort f (fun p => { p.acked (frAck frame.trailer) with resend := 0 }))

/-- Whether a packet's hop in a direction crosses the dateline of its dimension (R397). -/
def crossesDateline (ext own d : Nat) : Bool :=
  match d with
  | 0 => fieldOf own 0 6 = 0
  | 1 => fieldOf own 6 6 = 0
  | 2 => fieldOf own 12 4 = 0
  | 3 => fieldOf own 0 6 + 1 = extentX ext
  | 4 => fieldOf own 6 6 + 1 = extentY ext
  | _ => fieldOf own 12 4 + 1 = extentZ ext

/-- The channel of a packet on its next hop: class 1 from the dateline until the turn (R395, R397). -/
def State.hopVc (s : State) (r : RingPkt) : Nat :=
  let ext := s.job.extent.toNat
  match torusDir ext s.device r.pkt.hdr.dstDev with
  | none => vcBase r.pkt
  | some d =>
    let same := r.fromPort < 18 && portDir r.fromPort % 3 = d % 3
    vcBase r.pkt + bit01 (crossesDateline ext s.device d || (same && r.cls1))

/-- Whether a packet bound for another device can advance: a credit of its channel at the departure port beyond the flits that wait there
(R395, R398); its later flits wait in the channel for theirs. After the purge of a Barked epoch none leaves (R427). -/
def State.canDepart (s : State) (r : RingPkt) : Bool :=
  match departPort r.pkt s with
  | none => false
  | some f =>
    let p := s.port f
    let vc := s.hopVc r
    p.state = .member && !(s.job.state = .barked && s.job.purgeFrom.isNone) && decide ((tabGet [] p.vcs vc).length < tabGet 0 p.credits vc)

/-- The flits of a packet with their boundary bits (R393). -/
def pktFlits (p : Pkt) : List Flit :=
  let l := p.flits
  l.mapIdx (fun i b => { bytes := b, sop := i = 0, eop := i + 1 = l.length })

/-- A packet enters the channel of its departure port (R397, R398). -/
def depart (r : RingPkt) (s : State) : State :=
  match departPort r.pkt s with
  | none => s
  | some f =>
    let vc := s.hopVc r
    s.modPort f (fun p => { p with vcs := tabMod [] p.vcs vc (fun l => l ++ pktFlits r.pkt) })

/-- Reply flits a request reserves (R400). -/
def replyFlits (p : Pkt) : Nat := if p.hdr.isMirrorReq then 1 else 2

/-- Reply flits reserved in the ring's store of 512 (R400). -/
def Ring.reserved (r : Ring) : Nat := (r.awaiting.map (fun q => q.flits)).sum

/-- The edge router and input at which the ring hands a packet to the mesh: the east edge for ports F9-F17 (R265, R399). -/
def edgeEntry (fromPort row : Nat) : Nat × Dir :=
  if 9 ≤ fromPort && fromPort < 18 then (coreAt 31 row, .e) else (coreAt 0 row, .w)

/-- Whether an edge router takes a packet from the ring (R263, R399). -/
def State.edgeAccepts (s : State) (fromPort : Nat) (p : Pkt) : Bool :=
  let e := edgeEntry fromPort (rowOf p.hdr.dstCore)
  ((s.core e.1).input e.2).accepts p

/-- Hand a packet to the mesh (R399). -/
def toMesh (fromPort : Nat) (p : Pkt) (s : State) : State :=
  let e := edgeEntry fromPort (rowOf p.hdr.dstCore)
  s.modCore e.1 (fun k => let i := k.input e.2; k.setInput e.2 { i with link := i.link ++ [p] })

/-- Packets the ring itself consumes: delivery and service answers, and mirror traffic (R401, R430). -/
def forRing (p : Pkt) : Bool := p.hdr.ptype = 0x0D || p.hdr.isMirrorReq

/-- Host sends leave for the mesh or another device; each then awaits its answer (R400, R401, R510, R533). -/
def sendReq (x : SvcSend) (s : State) : Option State :=
  let local_ := x.pkt.hdr.dstDev = s.device
  let r : RingPkt := { pkt := x.pkt, since := s.howl, fromPort := 18, cls1 := false }
  let q : RingReq := { hdr := x.pkt.hdr, origin := x.fn + 1, token := x.token, sentAt := s.howl, flits := if local_ then 0 else replyFlits x.pkt, mirror := false }
  let done (s : State) : State := { s with ring := { s.ring with awaiting := s.ring.awaiting ++ [q] } }
  if local_ then (if s.edgeAccepts 18 x.pkt then some (done (toMesh 18 x.pkt s)) else none)
  else if s.canDepart r && s.ring.reserved + q.flits ≤ 512 then some (done (depart r s)) else none

/-- Move what the head sends of the service windows can (R400, R510; fuel: sends). -/
def drainSends : Nat → State → State
  | 0, s => s
  | n + 1, s => match s.host.sends with
    | [] => s
    | x :: rest => match sendReq x s with
      | some s => drainSends n { s with host := { s.host with sends := rest } }
      | none => s

/-- Requests from the mesh leave with their reply space reserved, in order (R400; fuel: packets). -/
def drainRequests : Nat → State → State
  | 0, s => s
  | n + 1, s => match s.ring.requests with
    | [] => s
    | r :: rest =>
      let q : RingReq := { hdr := r.pkt.hdr, origin := 0, token := 0, sentAt := s.howl, flits := replyFlits r.pkt, mirror := r.pkt.hdr.isMirrorReq }
      if s.canDepart r && s.ring.reserved + q.flits ≤ 512 then
        let s := depart r s
        drainRequests n { s with ring := { s.ring with requests := rest, awaiting := s.ring.awaiting ++ [q] } }
      else s

/-- One reply, channel-closed packet or collective of a list moves on if it can: to the ring itself, the mesh, or a port. -/
def moveOn (r : RingPkt) (s : State) : Option State :=
  if r.pkt.hdr.dstDev = s.device then
    (if forRing r.pkt then some { s with ring := { s.ring with deliver := s.ring.deliver ++ [r] } }
     else if s.edgeAccepts r.fromPort r.pkt then some (toMesh r.fromPort r.pkt s) else none)
  else if s.canDepart r then some (depart r s) else none

/-- Move the packets of a list in order, keeping those that cannot go. -/
def moveList : List RingPkt → State → List RingPkt × State
  | [], s => ([], s)
  | r :: t, s => match moveOn r s with
    | some s => moveList t s
    | none => let x := moveList t s; (r :: x.1, x.2)

/-- The ring moves what it holds from the mesh and from the service windows (R398-R400; log entry 30). -/
def drainRing (s : State) : State :=
  let a := moveList s.ring.replies s
  let s := { a.2 with ring := { a.2.ring with replies := a.1 } }
  let b := moveList s.ring.closed s
  let s := { b.2 with ring := { b.2.ring with closed := b.1 } }
  let c := moveList s.ring.collectives s
  let s := { c.2 with ring := { c.2.ring with collectives := c.1 } }
  let s := drainRequests s.ring.requests.length s
  drainSends s.host.sends.length s

/-- What the ring does with an arrival now (R399, R403, R408, R422). -/
inductive ArrivalAct where
  | discard (stale : Bool)
  | ring
  | mesh
  | forward
  | wait
  deriving DecidableEq, Repr

/-- The place of a collective's matching entry in the tables of its row router; 64 when there is none (R281, R399). -/
def State.matchPlace (s : State) (r : RingPkt) : Nat :=
  let e := edgeEntry r.fromPort (rowOf r.pkt.hdr.dstCore)
  let k := s.core e.1
  ((outDirs s.device e.1 e.2 r.pkt).map (fun d => (lookAhead (k.output d) 64).findIdx (entryMatches e.2 r.pkt.hdr))).foldl max 0

/-- Collectives of a row and port in arrival order: the queue of 4 (R399). -/
def State.rowQueue (s : State) (r : RingPkt) : List RingPkt :=
  (s.ring.arrivals.filter (fun q => q.fromPort = r.fromPort && vcBase q.pkt = 6 && q.pkt.hdr.dstDev = s.device
    && rowOf q.pkt.hdr.dstCore = rowOf r.pkt.hdr.dstCore)).take 4

/-- What the ring does with an arrival (R399, R403, R408, R422). -/
def State.arrivalAct (s : State) (r : RingPkt) : ArrivalAct :=
  if s.job.state = .forming || s.job.state = .selfMuzzled then .discard false
  else if r.pkt.hdr.epoch ≠ s.job.epoch.toNat || s.job.state = .none || s.job.state = .startFailed then .discard true
  else if r.pkt.hdr.dstDev ≠ s.device then (if s.canDepart r then .forward else .wait)
  else if forRing r.pkt then .ring
  else if vcBase r.pkt = 6 then
    (if s.edgeAccepts r.fromPort r.pkt && (s.rowQueue r).contains r && (s.rowQueue r).all (fun q => s.matchPlace r ≤ s.matchPlace q)
     then .mesh else .wait)
  else if s.edgeAccepts r.fromPort r.pkt then .mesh else .wait

/-- FABRIC_PACKET_ARRIVAL: the first packet from a port that the ring can deal with is epoch-checked, forwarded, or handed to
its row router or to the ring (R398, R399, R403). -/
def execFabricPacketArrival (port : PortId) (s : State) : Host.Outcome State Fault Refusal :=
  let f := port.val
  let s := drainRing s
  match s.ring.arrivals.find? (fun r => r.fromPort = f && s.arrivalAct r ≠ .wait) with
  | none => .next s
  | some r =>
    let act := s.arrivalAct r
    let s := owePkt r { s with ring := { s.ring with arrivals := s.ring.arrivals.erase r } }
    match act with
    | .discard true => .next ((s.bump (0x2400 + f) 0x0B 1).bump 0x501A 1 1)
    | .discard false => .next s
    | .ring => .next { s with ring := { s.ring with deliver := s.ring.deliver ++ [{ r with since := s.howl }] } }
    | .mesh => .next (toMesh f r.pkt s)
    | .forward => .next (depart r s)
    | .wait => .next s

/-- A NACK record in a function's log and its vector (R511, R516). -/
def hostNack (fn token : Nat) (w0 : Word) (dev : Nat) (s : State) : State :=
  let k := s.fn fn
  let n := k.nackSeq.toNat % 64
  let w := at_ 64 (at_ 16 (token % 256) + dev % 65536) + w0.toNat
  raiseMsix fn (if fn = 0 then 1 else 0) (s.modFn fn (fun k => { k with nackLog := tabSet 0 k.nackLog n (BitVec.ofNat 128 w), nackSeq := k.nackSeq + 1 }))

/-- A refused or unanswered request is reported to its sender: a NACK to the core's service-return Bowl, a record in a
function's log, or a notification (R313, R401, R511, R533). -/
def nackSender (q : RingReq) (reason : Nat) (s : State) : State :=
  let h := q.hdr
  let ws := refusalWords h.dstDev h.dstCore h reason
  let w0 := nth 0 ws 0
  if q.origin = 0 then
    let p : Pkt :=
      { hdr := { Hdr.zero with
          ptype := 0x0C, service := true, nw := 2, dstDev := s.device, dstCore := h.srcCore, srcDev := h.dstDev, srcCore := h.dstCore,
          epoch := h.epoch, dstBowl := h.dstBowl, srcStream := h.srcStream, tag := h.tag, period := h.period, gen := h.gen }
        words := ws, payload := [], exit := false, origin := 0 }
    { s with ring := { s.ring with replies := s.ring.replies ++ [{ pkt := p, since := s.howl, fromPort := 18, cls1 := false }] } }
  else if q.origin = 18 then notify 2 (leBytes 8 w0.toNat ++ leBytes 8 (at_ 16 (q.token % 256) + h.dstDev % 65536)) s
  else hostNack (q.origin - 1) q.token w0 h.dstDev s

/-- Whether an answer belongs to a request (R401; log entry 13). -/
def answers (a : Hdr) (q : RingReq) : Bool :=
  !q.mirror && a.srcDev = q.hdr.dstDev && a.srcCore = q.hdr.dstCore && a.dstCore = q.hdr.srcCore && a.dstBowl = q.hdr.dstBowl
    && a.srcStream = q.hdr.srcStream

/-- DELIVERY_ANSWER: the oldest answer at the ring releases its request's reservation; a refusal becomes a NACK (R313, R401). -/
def execDeliveryAnswer (s : State) : Host.Outcome State Fault Refusal :=
  let s := drainRing s
  match s.ring.deliver.find? (fun r => r.pkt.hdr.ptype = 0x0D && !r.pkt.hdr.toRing) with
  | none => .next s
  | some r =>
    let s := { s with ring := { s.ring with deliver := s.ring.deliver.erase r } }
    match s.ring.awaiting.find? (answers r.pkt.hdr) with
    | none => .next s
    | some q =>
      let s := { s with ring := { s.ring with awaiting := s.ring.awaiting.erase q } }
      let outcome := bitsOf (nth 0 r.pkt.words 0) 0 8
      .next (if outcome = 0 || outcome = 0xFF then s else drainRing (nackSender q outcome s))

/-- REPLY_TIMEOUT: no answer within 2^18 beats releases the reservation and sends a NACK with reason 0x07; a mirror pass ends
with MIRROR_STATE 3 (R401, R430). -/
def execReplyTimeout (s : State) : Host.Outcome State Fault Refusal :=
  match s.ring.awaiting.find? (fun q => howlGe s.howl (q.sentAt + BitVec.ofNat 64 (2 ^ 18))) with
  | none => .next s
  | some q =>
    let s := ({ s with ring := { s.ring with awaiting := s.ring.awaiting.erase q } } : State).bump 0x501A 5 1
    if q.mirror then .next { s with mirror := { s.mirror with state := if s.mirror.state = 1 then 3 else s.mirror.state } }
    else .next (drainRing (nackSender q 0x07 s))

/-- Whether a ring packet of the request or reply class has waited 2^10 beats (R402). -/
def RingPkt.aged (r : RingPkt) (now : Time) : Bool := decide (vcBase r.pkt ≠ 6) && howlGe now (r.since + 1024)

/-- AGED_DISCARD: every request and reply that has waited 2^10 beats in the ring is discarded and counted (R402). -/
def execAgedDiscard (s : State) : Host.Outcome State Fault Refusal :=
  let s := drainRing s
  let old (l : List RingPkt) : List RingPkt := l.filter (fun r => r.aged s.howl)
  let keep (l : List RingPkt) : List RingPkt := l.filter (fun r => !r.aged s.howl)
  let r := s.ring
  let n := (old r.arrivals).length + (old r.requests).length + (old r.replies).length + (old r.closed).length
  let s := (old r.arrivals).foldl (fun s q => owePkt q s) s
  .next (({ s with ring := { s.ring with
    arrivals := keep r.arrivals, requests := keep r.requests, replies := keep r.replies, closed := keep r.closed } } : State).bump 0x501A 6 n)

/-- EPOCH_PURGE: after a Bark the rings discard every collective, request and reply packet of the Barked epoch (R427). -/
def execEpochPurge (s : State) : Host.Outcome State Fault Refusal :=
  match s.job.purgeFrom with
  | none => .next s
  | some _ =>
    let e := s.job.purgeEpoch.toNat
    let old (l : List RingPkt) : Nat := (l.filter (fun r => r.pkt.hdr.epoch = e)).length
    let keep (l : List RingPkt) : List RingPkt := l.filter (fun r => r.pkt.hdr.epoch ≠ e)
    let r := s.ring
    let inPorts := ((List.range 18).map (fun f => (((s.port f).vcs.filter (fun v => 2 ≤ v.1)).map (fun v => (v.2.filter (fun x => x.sop)).length)).sum)).sum
    let n := old r.arrivals + old r.requests + old r.replies + old r.closed + old r.collectives + inPorts
    let s := (r.arrivals.filter (fun r => r.pkt.hdr.epoch = e)).foldl (fun s q => owePkt q s) s
    let s := (List.range 18).foldl (fun s f => s.modPort f (fun p => { p with vcs := p.vcs.filter (fun v => v.1 < 2) })) s
    .next (({ s with
      ring := { s.ring with
        arrivals := keep r.arrivals, requests := keep r.requests, replies := keep r.replies, closed := keep r.closed
        collectives := keep r.collectives }
      job := { s.job with purgeFrom := none } } : State).bump 0x501A 6 n)

/-- The order in which channels send: control, collectives, replies, requests, class 1 before class 0 (R396). -/
def vcOrder : List Nat := [1, 0, 7, 6, 5, 4, 3, 2]

/-- The first channel that has a flit and a credit (R395, R396); a self-muzzled port sends its beacons alone (R422). -/
def Port.nextVc (p : Port) : Option Nat :=
  vcOrder.find? (fun v => !(tabGet [] p.vcs v).isEmpty && 0 < tabGet 0 p.credits v && (p.state ≠ .muzzled || v ≤ 1))

/-- The credits the next frame returns: channel and count (R393). -/
def Port.nextOwed (p : Port) : Nat × Nat :=
  match p.owed.find? (fun e => 0 < e.2) with
  | some e => (e.1, min e.2 255)
  | none => (0, 0)

/-- The send time written into a control message as it leaves (R412, R417). -/
def stampCtrl (now : Word) (b : List Byte) : List Byte := b.take 8 ++ leBytes 8 now.toNat ++ b.drop 16

/-- A port's next flit frame of a channel (R393, R395). -/
def sendFlit (f vc : Nat) (s : State) : Frame × State :=
  let p := s.port f
  match tabGet [] p.vcs vc with
  | [] => (mkFrame [] 0 0 1 0 false false 0 0, s)
  | x :: rest =>
    let o := p.nextOwed
    let bytes := if vc ≤ 1 then stampCtrl (howl256 s) x.bytes else x.bytes
    let fr := mkFrame bytes p.txSeq (p.rxNext + 4095) 0 vc x.sop x.eop o.1 o.2
    (fr, s.setPort f { p with
      vcs := tabSet [] p.vcs vc rest, credits := tabMod 0 p.credits vc (· - 1), owed := tabMod 0 p.owed o.1 (· - o.2)
      txSeq := (p.txSeq + 1) % 4096, replay := p.replay ++ [fr], resend := p.resend + 1
      lastTx := if vc ≤ 1 then howl256 s else p.lastTx })

/-- The bytes of a frame on the link: the flit, then the trailer (R392). -/
def Frame.bytes (f : Frame) : List Byte := f.flit ++ leBytes 16 f.trailer.toNat

/-- FRAME_SEND: in a frame time a port sends a retry request, a frame to be resent, the first flit in order of precedence
against credit, or an idle frame; the frame is left in `out` (R393-R396). -/
def execFrameSend (port : PortId) (s : State) : Host.Outcome State Fault Refusal :=
  let f := port.val
  let s := drainRing s
  let p := s.port f
  if !p.live then .next s
  else if p.retryPending then
    let fr := mkFrame [] p.txSeq (p.rxNext + 4095) 2 0 false false 0 0
    let s := ({ s with out := fr.bytes }.setPort f { p with retryPending := false, retriesSince := p.retriesSince + 1 }).bump (0x2400 + f) 8 1
    .next (if 16 ≤ p.retriesSince + 1 then portDown f s else s)
  else match p.replay[p.resend]? with
    | some fr =>
      .next ({ s with out := (fr.withAck (p.rxNext + 4095)).bytes }.setPort f { p with resend := p.resend + 1 })
    | none =>
      let idle : State :=
        let o := p.nextOwed
        { s with out := (mkFrame [] p.txSeq (p.rxNext + 4095) 1 0 false false o.1 o.2).bytes }.setPort f
          { p with owed := tabMod 0 p.owed o.1 (· - o.2) }
      if 256 ≤ p.replay.length then .next idle
      else match p.nextVc with
        | none => .next idle
        | some vc =>
          let r := sendFlit f vc s
          .next ({ r.2 with out := r.1.bytes }.advanceKey (statKey (0x2400 + f) 5) 1)

end Sys2Proof.Machine
end

