-- ==== Sys2Proof/Machine/Groomer.lean ====
section
/-! DEFINITION. The Groomer: passes, visits and queued rewrites (R247, R248, R251-R253). -/
namespace Sys2Proof.Machine

/-- Beats of one millisecond (R28). -/
def msBeats : Nat := 825000

/-- GROOM_PERIOD_MS in beats (R251). -/
def State.groomBeats (s : State) : Nat := s.setting 0x3010 1 2000 * msBeats

/-- Whether a core's Groomer runs: the core is powered and hosted, its pack is not held in reset, and no vet slice runs on
it (R248, R253). -/
def groomRuns (c : Nat) (s : State) : Bool :=
  s.power.rails && (s.hostOf c).isSome && !(s.core c).vetting && !(s.core c).inReset && (s.pack (packOf c)).state ≠ .heldSafe

/-- GROOMER_PASS_START: a pass starts at its interval, or at once after one that ended late (R251, R252). -/
def execGroomerPassStart (core : CoreId) (s : State) : Host.Outcome State Fault Refusal :=
  let c := core.val
  let k := s.core c
  let due := k.groomStart + k.groomPeriod
  if !groomRuns c s || k.groomActive || s.clock < due then .next s
  else
    let s := if due < k.groomEnd then s.bump 0x5014 5 1 else s
    .next (s.modCore c (fun k => { k with groomActive := true, groomStart := s.clock, groomPeriod := s.groomBeats, groomAt := 0 }))

/-- A word made good: its error is gone and GROOM_REWRITES counts it (R251). -/
def groomFix (c w : Nat) (s : State) : State :=
  (s.modCore c (fun k => { k with spadErr := tabErase k.spadErr w })).bumpCore c 0x58 1

/-- A corrected word counted and recorded as R247 gives; the Groomer's own merge rewrites it, so it is not queued. -/
def groomCorrected (c w bits : Nat) (s : State) : State :=
  let dec := (s.core c).isDecTed (8 * w)
  groomFix c w (recordEcc c 8 (if dec then (if bits ≤ 1 then 2 else 3) else 1) (8 * w) (s.bumpCore c (if dec then 0x52 else 0x51) 1))

/-- An uncorrectable word at the Groomer: all zero where the pack stops or has no program (R248). -/
def groomBad (c w : Nat) (s : State) : State :=
  let p := packOf c
  let zero := s.isStopping p || (s.pack p).state = .empty
  let s := s.drawn ((s.core c).isDecTed (8 * w)) (tabGet 0 (s.core c).spadErr w)
  let s := eccUncorrectable c 8 (8 * w) true s
  if zero then s.modCore c (fun k => k.store_ (8 * w) (List.replicate 8 0)) else s

/-- The merge of one word by the Groomer (R246-R248, R251). A clean word is not written. -/
def groomWord (c w : Nat) (s : State) : State :=
  let bits := tabGet 0 (s.core c).spadErr w
  match eccOutcome ((s.core c).isDecTed (8 * w)) bits s.nonce with
  | .clean => s
  | .corrected => groomCorrected c w bits s
  | .uncorrectable => groomBad c w s
  | .miscorrected =>
    let f := s.fresh
    groomCorrected c w bits (f.2.modCore c (fun k => k.store_ (8 * w) (leBytes 8 f.1.toNat)))
  | .silent => { s with nonce := s.nonce + 1 }

/-- GROOMER_VISIT: the scan's next word, behind the rewrite queue; after the last word the pass is complete (R251-R253). -/
def execGroomerVisit (core : CoreId) (s : State) : Host.Outcome State Fault Refusal :=
  let c := core.val
  let k := s.core c
  if !groomRuns c s || !k.groomActive || !k.rewriteQ.isEmpty then .next s
  else
    let w := k.groomAt
    let s := (groomWord c w s).advanceKey (statKey (0x1000 + c) 0x56) 1
    if w + 1 < spadBytes / 8 then .next (s.modCore c (fun k => { k with groomAt := w + 1 }))
    else .next ((s.bumpCore c 0x57 1).modCore c (fun k => { k with groomAt := 0, groomActive := false, groomEnd := s.clock }))

/-- GROOMER_REWRITE: the oldest queued address is rewritten ahead of the scan (R247, R252). -/
def execGroomerRewrite (core : CoreId) (s : State) : Host.Outcome State Fault Refusal :=
  let c := core.val
  if !groomRuns c s then .next s
  else match (s.core c).rewriteQ with
    | [] => .next s
    | a :: rest => .next (groomWord c (a / 8) (s.modCore c (fun k => { k with rewriteQ := rest })))

end Sys2Proof.Machine
end

