-- ==== Sys2Proof/Machine/Image.lean ====
section
/-! DEFINITION. The load image: header, sections and their records, read from HBM (R319-R327, R338, R367). -/
namespace Sys2Proof.Machine

/-- A section table entry (R322). -/
structure Sect where
  typ : Nat
  core : Nat
  count : Nat
  off : Nat
  len : Nat
  deriving DecidableEq, Repr

/-- The header fields of an image at a global address (R321). -/
structure Img where
  base : Nat
  level : Nat
  flags : Nat
  mask : Nat
  ctxFirst : Nat
  ctxCount : Nat
  margin : Nat
  len : Nat
  sectOff : Nat
  sectCount : Nat
  extent : Nat
  device : Nat
  seed : Nat
  opset : Nat
  compiler : Nat
  deriving DecidableEq, Repr

/-- A little-endian field of an image (R5). -/
def State.imgNum (s : State) (base off n : Nat) : Nat := s.hbmNum (base + off) n

/-- The image at an address (R321). -/
def State.img (s : State) (base : Nat) : Img :=
  let f := s.imgNum base
  { base := base, level := f 18 1, flags := f 19 1, mask := f 20 2, ctxFirst := f 22 2, ctxCount := f 24 2, margin := f 28 4,
    len := f 32 8, sectOff := f 40 8, sectCount := f 48 4, extent := f 52 2, device := f 54 2, seed := f 64 8, opset := f 16 2, compiler := f 72 4 }

/-- DIGEST of an image (R321). -/
def State.imgDigest (s : State) (base : Nat) : List Byte := s.hbmRead (base + 80) 64

/-- FLAGS bit 0 (R321). -/
def Img.spanning (g : Img) : Bool := fieldOf g.flags 0 1 == 1
/-- FLAGS bit 1 (R321). -/
def Img.multi (g : Img) : Bool := fieldOf g.flags 1 1 == 1

/-- One section table entry (R322). -/
def State.sect (s : State) (g : Img) (i : Nat) : Sect :=
  let b := g.sectOff + 32 * i
  let f := s.imgNum g.base
  { typ := f b 2, core := f (b + 2) 2, count := f (b + 4) 4, off := f (b + 8) 8, len := f (b + 16) 8 }

/-- The section table (R322). -/
def State.sects (s : State) (g : Img) : List Sect := (List.range g.sectCount).map (fun i => s.sect g i)

/-- The section of a type that belongs to a core, or device-wide with core 0xFFFF (R323). -/
def findSect (l : List Sect) (typ core : Nat) : Option Sect := l.find? (fun x => x.typ = typ && x.core = core)

/-- Records of `n` bytes in a section, as numbers. -/
def State.records (s : State) (g : Img) (n : Nat) (x : Option Sect) : List Nat :=
  match x with
  | none => []
  | some x => (List.range x.count).map (fun i => s.imgNum g.base (x.off + n * i) n)

/-- Used cores: those with a CORE_DESC section, ascending (R323). -/
def usedOf (l : List Sect) : List Nat := (List.range 1024).filter (fun c => (findSect l 1 c).isSome)

/-- Table descriptor fields (R276). -/
def descEntries (w : Word) : Nat := bitsOf w 44 13
/-- PERIODS. -/
def descPeriods (w : Word) : Nat := bitsOf w 31 13
/-- IDLE. -/
def descIdle (w : Word) : Bool := bitAt w 30
/-- PERIOD_BEATS. -/
def descBeats (w : Word) : Nat := bitsOf w 0 24

/-- Descriptors and entries of a LEASH section, in the order N, E, S, W, L (R323). -/
def State.leashParts (s : State) (g : Img) (x : Sect) : List (Word × List Word) :=
  ((List.range 5).foldl (fun (a : Nat × List (Word × List Word)) _ =>
    let d : Word := BitVec.ofNat 64 (s.imgNum g.base a.1 8)
    let n := descEntries d
    (a.1 + 8 + 8 * n, a.2 ++ [(d, (List.range n).map (fun j => BitVec.ofNat 64 (s.imgNum g.base (a.1 + 8 + 8 * j) 8)))]))
    (x.off, [])).2

/-- A table as the router holds it (R276). -/
def tableOf (d : Word) (l : List Word) : LeashTable :=
  { entries := descEntries d, periods := descPeriods d, idle := descIdle d, beats := descBeats d,
    words := (l.mapIdx (fun i w => (i, w))).filter (fun e => e.2 ≠ 0) }

/-- What an image holds for one used core (R323). -/
structure CoreImg where
  core : Nat
  fence : Nat
  instr : List Insn
  streams : List Word
  weights : Option Sect
  collars : List (Word × Word)
  bowls : List (BitVec 128)
  routes : List (BitVec 256)
  leash : List (Word × List Word)
  drains : List Nat
  rejoins : List (BitVec 128)

/-- The sections of one used core, read (R323). -/
def State.coreImg (s : State) (g : Img) (l : List Sect) (c : Nat) : CoreImg :=
  { core := c
    fence := match findSect l 1 c with | some x => s.imgNum g.base x.off 4 | none => 0
    instr := (s.records g 16 (findSect l 2 c)).map (fun w => BitVec.ofNat 128 w)
    streams := (s.records g 8 (findSect l 3 c)).map (fun w => BitVec.ofNat 64 w)
    weights := findSect l 4 c
    collars := (s.records g 16 (findSect l 5 c)).map (fun w => (BitVec.ofNat 64 w, BitVec.ofNat 64 (w / 2 ^ 64)))
    bowls := (s.records g 16 (findSect l 6 c)).map (fun w => BitVec.ofNat 128 w)
    routes := (s.records g 32 (findSect l 7 c)).map (fun w => BitVec.ofNat 256 w)
    leash := match findSect l 8 c with | some x => s.leashParts g x | none => []
    drains := s.records g 4 (findSect l 9 c)
    rejoins := (s.records g 16 (findSect l 0x0A c)).map (fun w => BitVec.ofNat 128 w) }

/-- Whether a stream record installs its stream (R323). -/
def strInstalled (w : Word) : Bool := bitAt w 63
/-- CONFIGURED of a Collar configuration word (R324). -/
def colConf (w : Word) : Bool := bitAt w 63
/-- LEDGERED (R324). -/
def colLedg (w : Word) : Bool := bitAt w 62
/-- A Bowl seen through its configuration alone. -/
def bowlCfg (w : BitVec 128) : Bowl := { Bowl.none with cfg := w }
/-- The table of a direction. -/
def CoreImg.table (k : CoreImg) (d : Dir) : LeashTable := match k.leash[d.code]? with | some p => tableOf p.1 p.2 | none => .idleTable
/-- A route of the image; unconfigured past the section. -/
def CoreImg.route (k : CoreImg) (i : Nat) : BitVec 256 := nth 0 k.routes i
/-- A Bowl configuration of the image. -/
def CoreImg.bowl (k : CoreImg) (i : Nat) : Bowl := bowlCfg (nth 0 k.bowls i)
/-- A Collar's configuration word and ledger descriptor. -/
def CoreImg.collar (k : CoreImg) (i : Nat) : Word × Word := nth (0, 0) k.collars i

/-- A window record (R367). -/
def windowOf (w : Nat) : Window :=
  { off4k := fieldOf w 0 25, len4k := fieldOf w 32 25, hbmStacks := fieldOf w 64 8, writable := fieldOf w 72 1 == 1 }

/-- A claim reservation (R327). -/
structure ClaimRes where
  home : Nat
  collar : Nat
  core : Nat
  stream : Nat
  route : Nat
  count : Nat
  deriving DecidableEq, Repr

/-- A claim reservation from its 16 bytes (R327). -/
def claimResOf (w : Nat) : ClaimRes :=
  { home := fieldOf w 0 10, collar := fieldOf w 10 4, core := fieldOf w 16 10, stream := fieldOf w 26 3, route := fieldOf w 32 8, count := fieldOf w 40 16 }

/-- A CONTEXTS record of 128 B at an image offset (R338). -/
def State.ctxOf (s : State) (g : Img) (owner off : Nat) : Nat × Ctx :=
  let f (o n : Nat) := s.imgNum g.base (off + o) n
  (f 0 2,
   { Ctx.none with
      owner := some owner, width := f 2 2, vocab := f 4 4, maxPos := f 8 4, link := f 12 2, msix := f 14 2, stateAddr := f 16 8,
      inBase := f 24 8, cplBase := f 32 8, inLog2 := f 40 1, cplLog2 := f 41 1, tableSet := f 42 1, logitBf16 := f 43 1 == 1,
      inputCollar := f 44 2, fbPeriod := f 46 1, fbGen := f 47 1, fbDev := f 48 2, fbCore := f 50 2, fbBowl := f 52 1, fbTag := f 54 2,
      kvBase := f 56 8, kvLen := f 64 8,
      params := { temp := BitVec.ofNat 32 (f 72 4), topK := f 76 2, topP := f 78 2, seed := BitVec.ofNat 64 (f 80 8), maskId := f 88 1,
                  irqMode := f 89 1, flagMask := f 90 1 } })

/-- Everything the check and the loader read from an image. -/
structure Image where
  hdr : Img
  sects : List Sect
  cores : List CoreImg
  claims : List ClaimRes
  windows : List Window
  ctxs : List (Nat × Ctx)

/-- An image read whole (R321-R327). -/
def State.image (s : State) (base owner : Nat) : Image :=
  let g := s.img base
  let l := s.sects g
  { hdr := g, sects := l
    cores := (usedOf l).map (fun c => s.coreImg g l c)
    claims := (s.records g 16 (findSect l 0x0B 0xFFFF)).map claimResOf
    windows := (s.records g 16 (findSect l 0x0C 0xFFFF)).map windowOf
    ctxs := match findSect l 0x0D 0xFFFF with
      | some x => (List.range x.count).map (fun i => s.ctxOf g owner (x.off + 128 * i))
      | none => [] }

/-- The used core of an image. -/
def Image.core (m : Image) (c : Nat) : Option CoreImg := m.cores.find? (fun k => k.core = c)

end Sys2Proof.Machine
end

