-- ==== Sys2Proof/Machine/Pedigree.lean ====
section
/-! DEFINITION. The Pedigree check: every check of R332 in its order, and LOAD_RESULT (R332-R336). -/
namespace Sys2Proof.Machine

/-- LOAD_RESULT of a failed check (R333). -/
def failAt (code sub index section_ : Nat) (devwide : Bool) (core : Nat) : Word :=
  BitVec.ofNat 64 (at_ 48 code + at_ 40 (sub % 256) + at_ 24 (index % 65536) + at_ 16 (section_ % 256) + at_ 10 (bit01 devwide)
    + (if devwide then 0 else core % 1024))

/-- The first place of a list where a check fails, with its index. -/
def firstBad {α : Type} (l : List α) (f : Nat → α → Option Word) : Option Word :=
  (l.mapIdx (fun i a => f i a)).findSome? id

/-- The first failing of several checks. -/
def orElse (a b : Option Word) : Option Word := match a with | some w => some w | none => b

/-- A check over the used cores in ascending order. -/
def eachCore (m : Image) (f : CoreImg → Option Word) : Option Word := m.cores.findSome? f

/-- Bytes of an image with its signatures (R321). -/
def signedLen (g : Img) : Nat := g.len + 64 + 3309

/-- The reserved header bytes of R321 are 0. -/
def State.hdrReserved (s : State) (g : Img) : Bool :=
  let z (o n : Nat) : Bool := s.imgNum g.base o n = 0
  z 11 1 && z 26 2 && z 56 8 && z 76 4 && z 144 112 && fieldOf g.flags 2 6 = 0

/-- Check 0x0103 fails (R332). -/
def State.headerBad (s : State) (g : Img) : Bool :=
  s.hbmRead g.base 8 ≠ strBytes "DVMLOAD1" || s.imgNum g.base 8 2 ≠ 1 || !s.hdrReserved g || decide (4 < g.level)
  || g.len % 64 ≠ 0 || g.sectOff % 64 ≠ 0 || g.sectCount = 0 || decide (16384 < g.sectCount)
  || decide (g.sectOff < 256) || decide (g.len < g.sectOff + 32 * g.sectCount)
  || decide (stackBytes < offsetOf g.base + signedLen g)

/-- The message the two signatures of an image cover, and the signatures (R321). -/
def State.imgSig (s : State) (g : Img) : List Byte × List Byte × List Byte :=
  (s.hbmRead g.base 256, s.hbmRead (g.base + g.len) 64, s.hbmRead (g.base + g.len + 64) 3309)

/-- Whether a part of an image can be read: its stack serves, at once or after a recalibration, and no line of it is poisoned (R375, R386). What
cannot be read fails the check that reads it first (log entry 68). -/
def State.imgReadable (s : State) (a n : Nat) : Bool :=
  ((s.stack (stackOf a)).state = .serving || (s.stack (stackOf a)).state = .recalibrating) && (s.poisonedLine a n).isNone

/-- Checks 0x0101-0x0108 (R332). -/
def State.checkHead (s : State) (g : Img) : Option Word :=
  let sig := s.imgSig g
  let e (code : Nat) := some (failAt code 0 0 0 false 0)
  if s.power.dev ≠ .idle && s.power.dev ≠ .run then e 0x0101
  else if (packsIn g.mask).any (fun p => (s.pack p).state ≠ .empty) then e 0x0102
  else if !s.imgReadable g.base 256 || s.headerBad g then e 0x0103
  else if s.imgNum g.base 12 4 ≠ 0x1088 || s.imgNum g.base 10 1 ≠ 0xB1 then e 0x0104
  else if s.sec.owner = .unowned then e 0x0105
  else if !s.imgReadable (g.base + g.len) 64 || !Config.verifyEd25519 s.sec.edPub sig.1 sig.2.1 then e 0x0106
  else if !s.imgReadable (g.base + g.len + 64) 3309 || !Config.verifyMlDsa s.sec.mlPub sig.1 sig.2.2 then e 0x0107
  else if !s.imgReadable (g.base + 256) (g.len - 256) || Config.sha512 (s.hbmRead (g.base + 256) (g.len - 256)) ≠ s.imgDigest g.base then e 0x0108
  else none

/-- Whether a section type is per-core, device-wide, or undefined (R323). -/
def sectScope (t : Nat) : Option Bool := if 1 ≤ t ∧ t ≤ 0x0A then some true else if 0x0B ≤ t ∧ t ≤ 0x0D then some false else none

/-- Whether LENGTH agrees with COUNT, and COUNT with R323. -/
def State.sectSize (s : State) (g : Img) (x : Sect) : Bool :=
  let rec_ (lo hi n : Nat) : Bool := decide (lo ≤ x.count) && decide (x.count ≤ hi) && decide (x.len = n * x.count)
  match x.typ with
  | 1 => rec_ 1 1 64
  | 2 => rec_ 1 4096 16
  | 3 => rec_ 8 8 8
  | 4 => x.count = 1
  | 5 => rec_ 16 16 16
  | 6 => rec_ 64 64 16
  | 7 => rec_ 256 256 32
  | 8 => x.count = 5 && decide (x.len = (s.leashParts g x).foldl (fun a p => a + 8 + 8 * p.2.length) 0)
  | 9 => rec_ 1 4096 4
  | 0x0A => rec_ 1 1024 16
  | 0x0B => rec_ 1 65536 16
  | 0x0C => rec_ 1 256 16
  | _ => x.len = 128 * x.count

/-- Whether one section breaks check 0x0201. -/
def State.sectBad (s : State) (g : Img) (l : List Sect) (i : Nat) (x : Sect) : Bool :=
  (match sectScope x.typ with
    | none => true
    | some perCore => if perCore then x.core = 0xFFFF else x.core ≠ 0xFFFF)
  || (x.core ≠ 0xFFFF && (decide (1024 ≤ x.core) || fieldOf g.mask (packOf x.core) 1 = 0))
  || (l.take i).any (fun y => y.typ = x.typ && y.core = x.core)
  || x.off % 64 ≠ 0 || decide (g.len < x.off + x.len)
  || rangesMeet x.off x.len 0 256 || rangesMeet x.off x.len g.sectOff (32 * g.sectCount)
  || (l.take i).any (fun y => rangesMeet x.off x.len y.off y.len)
  || !s.sectSize g x

/-- Check 0x0201: sections (R322, R323, R332). -/
def State.checkSects (s : State) (g : Img) (l : List Sect) : Option Word :=
  let bad (sel : Sect → Bool) : Option Word :=
    firstBad l (fun i x => if sel x && s.sectBad g l i x then some (failAt 0x0201 0 0 x.typ (x.core = 0xFFFF) x.core) else none)
  let perCore := (List.range 1024).findSome? (fun c =>
    orElse (bad (fun x => x.core = c))
      (let has (t : Nat) : Bool := (findSect l t c).isSome
       if !l.any (fun x => x.core = c) then none
       else [1, 2, 3, 8].findSome? (fun t => if has t then none else some (failAt 0x0201 0 0 t false c))))
  orElse perCore (bad (fun x => decide (1024 ≤ x.core)))

/-- Whether any bit of a mask is set in a word. -/
def anyBit {n : Nat} (w : BitVec n) (l : List (Nat × Nat)) : Bool := l.any (fun r => bitsOf w r.2 (r.1 - r.2 + 1) ≠ 0)

/-- Check 0x0202: reserved bits (R6, R190, R332). -/
def State.checkReserved (s : State) (m : Image) : Option Word :=
  let e (c t sub i : Nat) := some (failAt 0x0202 sub i t false c)
  let core := eachCore m (fun k =>
    let c := k.core
    orElse (firstBad k.instr (fun i w => if isOpcode (opOf w) && reservedSet w then e c 2 0 i else none)) <|
    orElse (firstBad k.streams (fun i w => if anyBit w [(62, 12)] then e c 3 0 i else none)) <|
    orElse (firstBad k.collars (fun i w =>
      if anyBit w.1 [(61, 40)] || anyBit w.2 [(63, 52), (47, 45), (31, 21)] || (!(colConf w.1 && colLedg w.1) && w.2 ≠ 0) then e c 5 0 i else none)) <|
    orElse (firstBad k.bowls (fun i w =>
      if anyBit w [(127, 92), (46, 40), (31, 24), (19, 17), (15, 13), (9, 2)] then e c 6 0 i else none)) <|
    orElse (firstBad k.routes (fun i w => if anyBit w [(255, 176), (159, 153), (63, 56), (7, 7)] then e c 7 0 i else none)) <|
    orElse (firstBad k.leash (fun d p =>
      if anyBit p.1 [(63, 57), (29, 24)] then e c 8 d 0xFFFF
      else firstBad p.2 (fun j w => if anyBit w [(55, 55), (35, 24)] then e c 8 d j else none))) <|
    firstBad k.rejoins (fun i w => if anyBit w [(127, 48), (11, 6)] then e c 0x0A 0 i else none))
  orElse core
    (firstBad (s.records m.hdr 16 (findSect m.sects 0x0B 0xFFFF)) (fun i w =>
      if anyBit (BitVec.ofNat 128 w) [(15, 14), (31, 29), (127, 56)] then some (failAt 0x0202 0 i 0x0B true 0) else none))

/-- Check 0x0203: instruction fields; SUB is the encoding fault code (R192, R194, R332). -/
def checkInsns (m : Image) : Option Word :=
  eachCore m (fun k => firstBad k.instr (fun i w => match wordCheck w with
    | some code => some (failAt 0x0203 code i 2 false k.core)
    | none => none))

/-- The eight stage words of a block of the weight region, zeros where the WEIGHTS section leaves it empty (R164, R231). -/
def State.drainBlock (s : State) (m : Image) (k : CoreImg) (a : Nat) : List Word :=
  match k.weights with
  | none => List.replicate 8 0
  | some x =>
    let b (i : Nat) : Byte := if x.len ≤ a + i then 0 else BitVec.ofNat 8 (s.imgNum m.hdr.base (x.off + a + i) 1)
    (List.range 8).map (fun j => BitVec.ofNat 64 (leValue ((List.range 8).map (fun i => b (8 * j + i)))))

/-- Check 0x0204: drain blocks (R164-R167, R332). -/
def State.checkDrains (s : State) (m : Image) : Option Word :=
  eachCore m (fun k => firstBad k.drains (fun i a =>
    if a % 64 ≠ 0 || chainBad (s.drainBlock m k a) then some (failAt 0x0204 0 i 9 false k.core) else none))

/-- Inputs an entry names. -/
def insetCount (w : Word) : Nat := (Dir.all.filter (fun d => eHas w d)).length

/-- Whether an entry breaks R277 or R278; `next` is the next OFFSET or the period's length. -/
def entryBad (w : Word) (next : Nat) : Bool :=
  let k := eKind w
  let n := insetCount w
  decide (3 < k) || eFlits w = 0 || decide (65 < eFlits w)
  || ((k = 0 || k = 3) && n ≠ 1) || (k = 1 && decide (n < 2)) || (k = 2 && n ≠ 0)
  || ((k = 2 || k = 3) && eTag w ≠ 0)
  || decide (next < eOffset w + eFlits w)

/-- Check 0x0205: Leash structure (R276-R278, R332). -/
def checkLeash (m : Image) : Option Word :=
  eachCore m (fun k => firstBad k.leash (fun d p =>
    let desc := p.1
    if descEntries desc = 0 || decide (4096 < descEntries desc) || descPeriods desc = 0 || decide (4096 < descPeriods desc)
        || decide (descBeats desc < 65) || descIdle desc then some (failAt 0x0205 d 0xFFFF 8 false k.core)
    else firstBad p.2 (fun j w =>
      let next := match p.2[j + 1]? with | some x => eOffset x | none => descBeats desc
      if entryBad w next then some (failAt 0x0205 d j 8 false k.core) else none)))

/-- Every `n` consecutive entries, counted cyclically, include one that satisfies a test; answers the first start that fails. -/
def cyclicGap (l : List Word) (n : Nat) (f : Word → Bool) : Option Nat :=
  (List.range l.length).find? (fun i => !(List.range n).any (fun j => f (nth 0 l ((i + j) % l.length))))

/-- A table rule of R61 or R279: an entry of a kind in every `a` entries, one of 65 flits in every `b`. -/
def checkSpacing (code kind a b : Nat) (m : Image) : Option Word :=
  eachCore m (fun k => firstBad k.leash (fun d p =>
    match cyclicGap p.2 a (fun w => eKind w = kind), cyclicGap p.2 b (fun w => eKind w = kind && eFlits w = 65) with
    | some i, some j => some (failAt code d (min i j) 8 false k.core)
    | some i, none => some (failAt code d i 8 false k.core)
    | none, some j => some (failAt code d j 8 false k.core)
    | none, none => none))

/-- Whether two tag ranges mod 4096 share a tag (R274, R275). -/
def tagsMeet (b1 n1 b2 n2 : Nat) : Bool := decide ((b2 + 4096 - b1) % 4096 < n1) || decide ((b1 + 4096 - b2) % 4096 < n2)

/-- Whether a route carries tags (R275). -/
def routeTagged (r : BitVec 256) : Bool := rKind r ≠ 0 && rKind r ≠ 3

/-- Check 0x0208: routes (R268, R274, R284, R332). -/
def checkRoutes (m : Image) : Option Word :=
  eachCore m (fun k => firstBad k.routes (fun i r =>
    let bad := decide (6 < rKind r)
      || (routeTagged r && (rUses r = 0 || decide (4096 < rUses r)))
      || (routeTagged r && (k.routes.take i).any (fun q => routeTagged q && tagsMeet (rTag q) (rUses q) (rTag r) (rUses r)))
      || (rMcast r && (rReduce r || rCols r = 0 || rRows r = 0 || rDev r ≠ m.hdr.device))
      || (rReduce r && rKind r ≠ 1 && rKind r ≠ 6)
      || (rKind r = 6 && (retrRouter (packOf (rCore r)) ≠ rCore r))
    if rKind r ≠ 0 && bad then some (failAt 0x0208 0 i 7 false k.core) else none))

/-- Whether two windows share an address (R368). -/
def windowsMeet (a b : Window) : Bool := (a.hbmStacks &&& b.hbmStacks) ≠ 0 && rangesMeet a.off4k a.len4k b.off4k b.len4k

/-- Whether a window shares an address with the image (R368). -/
def windowHitsImage (a : Window) (g : Img) : Bool :=
  fieldOf a.hbmStacks (stackOf g.base) 1 = 1 && rangesMeet (4096 * a.off4k) (4096 * a.len4k) (offsetOf g.base) (signedLen g)

/-- Windows of the programs loaded on the device. -/
def State.loadedWindows (s : State) : List Window := (s.progs.filter (fun e => e.2.packs ≠ 0)).flatMap (fun e => e.2.windows)

/-- Check 0x0209: HBM windows (R367, R368, R332). -/
def State.checkWindows (s : State) (m : Image) : Option Word :=
  let raw := s.records m.hdr 16 (findSect m.sects 0x0C 0xFFFF)
  firstBad m.windows (fun i w =>
    let bad := anyBit (BitVec.ofNat 128 (nth 0 raw i)) [(127, 73), (63, 57), (31, 25)] || w.len4k = 0 || w.hbmStacks = 0
      || decide (19531250 < w.off4k + w.len4k) || (fieldOf w.hbmStacks 0 1 = 1 && decide (19400178 < w.off4k + w.len4k))
      || (m.windows.take i).any (windowsMeet w) || windowHitsImage w m.hdr || s.loadedWindows.any (windowsMeet w)
    if bad then some (failAt 0x0209 0 i 0x0C true 0) else none)

/-- The scratchpad regions of a configured Bowl: its two rings, and its receive window (R297, R300). -/
def bowlRegions (b : Bowl) : List (Nat × Nat) := [(bBase b, 40 * bDepth b), (bWinBase b, 64 * bWin b)]

/-- The regions of the ledgers among some Collars, for overlap. -/
def ledgerRegions (l : List (Word × Word)) : List (Nat × Nat) :=
  (l.filter (fun w => colConf w.1 && colLedg w.1)).map (fun w => (ledgerBase w.2, ledgerBytes w.2))

/-- Check 0x0301: Bowl regions between the fence and 0x177FFF. -/
def checkBowlRegion (m : Image) : Option Word :=
  eachCore m (fun k => firstBad k.bowls (fun i w =>
    let b := bowlCfg w
    if bConf b && (bowlRegions b).any (fun r => r.2 ≠ 0 && (decide (r.1 < k.fence) || decide (saveBase < r.1 + r.2)))
      then some (failAt 0x0301 0 i 6 false k.core) else none))

/-- Check 0x0302: overlaps of Bowl regions, windows and ledgers. -/
def checkBowlOverlap (m : Image) : Option Word :=
  eachCore m (fun k =>
    let regs (l : List (BitVec 128)) : List (Nat × Nat) := (l.filter (fun w => bConf (bowlCfg w))).flatMap (fun w => bowlRegions (bowlCfg w))
    let meets (r : Nat × Nat) (l : List (Nat × Nat)) : Bool := l.any (fun q => rangesMeet r.1 r.2 q.1 q.2)
    orElse (firstBad k.bowls (fun i w =>
        let b := bowlCfg w
        if bConf b && (rangesMeet (bBase b) (40 * bDepth b) (bWinBase b) (64 * bWin b)
            || (bowlRegions b).any (fun r => meets r (regs (k.bowls.take i)) || meets r (ledgerRegions k.collars)))
          then some (failAt 0x0302 0 i 6 false k.core) else none))
      (firstBad k.collars (fun i w =>
        if (ledgerRegions [w]).any (fun r => meets r (ledgerRegions (k.collars.take i))) then some (failAt 0x0302 0 i 5 false k.core) else none)))

/-- Check 0x0303: Bowl fields. -/
def checkBowlFields (m : Image) : Option Word :=
  eachCore m (fun k => firstBad k.bowls (fun i w =>
    let b := bowlCfg w
    let n := bitsOf w 20 4
    if bConf b && (decide (n < 4) || decide (14 < n)
        || (bRet b && (!bSvc b || (k.bowls.take i).any (fun q => bConf (bowlCfg q) && bRet (bowlCfg q))))
        || !strInstalled (nth 0 k.streams (bReader b)))
      then some (failAt 0x0303 0 i 6 false k.core) else none))

/-- Check 0x0304: ledger placement (R104). -/
def checkLedgers (m : Image) : Option Word :=
  eachCore m (fun k => firstBad k.collars (fun i w =>
    if colConf w.1 && colLedg w.1 && (ledgerBase w.2 % 64 ≠ 0 || decide (ledgerBase w.2 < k.fence)
        || decide (saveBase < ledgerBase w.2 + ledgerBytes w.2))
      then some (failAt 0x0304 0 i 5 false k.core) else none))

/-- The cores a route delivers to in its own device (R265, R284). -/
def routeLeaves (r : BitVec 256) : List Nat :=
  if rMcast r then (List.range 1024).filter (fun c => fieldOf (rCols r) (colOf c) 1 = 1 && fieldOf (rRows r) (rowOf c) 1 = 1) else [rCore r]

/-- One hop of a path: a router, the input it came by, and the output it leaves by. -/
structure Hop where
  core : Nat
  inp : Dir
  out : Dir
  deriving DecidableEq, Repr

/-- The packet of a route, as far as steering reads it (R265, R284). -/
def routePkt (r : BitVec 256) : Pkt :=
  { hdr := { Hdr.zero with dstDev := rDev r, dstCore := rCore r, mcast := rMcast r, colMask := rCols r, rowMask := rRows r, ptype := 1 }
    words := [], payload := [], exit := rExit r, origin := 0 }

/-- The hops of a packet from a router input (fuel: hops) (R265, R266, R284). -/
def hopsFrom (dev : Nat) (p : Pkt) : Nat → Nat → Dir → List Hop
  | 0, _, _ => []
  | f + 1, c, inp =>
    (outDirs dev c inp p).flatMap (fun d =>
      { core := c, inp := inp, out := d } :: (match neighbourOf c d with
        | some (n, i) => hopsFrom dev p f n i
        | none => []))

/-- The hops of a route's packets (R265). -/
def routeHops (dev c : Nat) (r : BitVec 256) : List Hop := hopsFrom dev (routePkt r) 64 c .l

/-- The TAGs of a route in each period (R275). -/
def routeTags (r : BitVec 256) : List Nat := (List.range (rUses r)).map (fun i => (rTag r + i) % 4096)

/-- Whether a route's packets leave their own core by an output with a TAG (R265, R275). -/
def sentBy (m : Image) (c : Nat) (d : Dir) (tag : Nat) (r : BitVec 256) : Bool :=
  routeTagged r && (routeTags r).contains tag && (routeHops m.hdr.device c r).any (fun h => h.core = c && h.inp = .l && h.out = d)

/-- Whether a context's feedback leaves a Retriever router by an output with a TAG, bound for a configured data-class Bowl that agrees in GEN,
or for another device (R358). -/
def feedbackSent (m : Image) (c : Nat) (d : Dir) (tag : Nat) (x : Nat × Ctx) : Bool :=
  let p : Pkt :=
    { hdr := { Hdr.zero with dstDev := x.2.fbDev, dstCore := x.2.fbCore, ptype := 2 }, words := [], payload := [], exit := decide (16 ≤ colOf c)
      origin := 0 }
  retrRouter (x.1 % 16) = c && x.2.fbTag = tag && (outDirs m.hdr.device c .l p).contains d
    && (x.2.fbDev ≠ m.hdr.device || (match m.core x.2.fbCore with
      | none => false
      | some q => let b := q.bowl x.2.fbBowl; bConf b && !bSvc b && bGen b = x.2.fbGen))

/-- Check 0x0401: every Bowl route has its Bowl, agreeing in GEN, CLASS and WIN64, and every sending entry, one that takes from L, sends the
packets of a route of the core or, at a Retriever router, a context's feedback (R297, R332). -/
def checkReceivers (m : Image) : Option Word :=
  eachCore m (fun k => orElse (firstBad k.routes (fun i r =>
    let kind := rKind r
    if (kind = 1 || kind = 2 || kind = 3) && rDev r = m.hdr.device &&
        (routeLeaves r).any (fun c => match m.core c with
          | none => true
          | some q =>
            let b := q.bowl (rBowl r)
            !bConf b || bGen b ≠ rGen r || bSvc b ≠ (kind == 3) || bWin b ≠ rWin r)
      then some (failAt 0x0401 0 i 7 false k.core) else none))
    (firstBad k.leash (fun d p => firstBad p.2 (fun j w =>
      if decide (eKind w ≤ 1) && eHas w .l && !(k.routes.any (sentBy m k.core (Dir.ofCode d) (eTag w)))
          && !(m.ctxs.any (feedbackSent m k.core (Dir.ofCode d) (eTag w)))
        then some (failAt 0x0401 0 j 8 false k.core) else none))))

/-- Scheduled and merge entries of a table that carry a TAG from an input (R281). -/
def entriesFor (t : LeashTable) (inp : Dir) (tag : Nat) : List Word :=
  ((List.range t.entries).map t.entry).filter (fun w => (eKind w = 0 || eKind w = 1) && eHas w inp && eTag w = tag)

/-- The fields two contributions of a merge share as far as their routes give them (R287). -/
def sameRoute (a b : BitVec 256) : Bool :=
  rReduce a && rReduce b && rRid a = rRid b && rRfmt a == rRfmt b && rDev a = rDev b && rCore a = rCore b && rBowl a = rBowl b

/-- The routes whose packets reach a router input with a TAG and leave by an output. -/
def contributors (m : Image) (h : Hop) (tag : Nat) : List (BitVec 256) :=
  m.cores.flatMap (fun k => k.routes.filter (fun r =>
    routeTagged r && (routeTags r).contains tag && (routeHops m.hdr.device k.core r).contains h))

/-- The flits of a packet that an instruction sends on a route: SEND by its LEN, SENDT by its words, every other a single flit (R217, R218,
R269). -/
def insnFlits (route : Nat) (w : Insn) : Option Nat :=
  let op := opOf w
  if op = 0x40 then (if ifld w 15 8 = route then some (1 + ifld w 22 16) else none)
  else if op = 0x41 then (if ifld w 15 8 = route then some (if 4 < ifld w 24 20 then 2 else 1) else none)
  else if op = 0x70 ∨ op = 0x71 then (if ifld w 15 8 = route then some 1 else none)
  else if (op = 0x50 ∨ op = 0x52 ∨ op = 0x54 ∨ op = 0x55) ∧ bitAt w 12 then (if ifld w 20 13 = route then some 1 else none)
  else none

/-- Whether FLITS of an entry meets the length of a route's packets (R282): that of one of the instructions that send on it, where the core
has any. -/
def flitsFit (k : CoreImg) (route : Nat) (w : Word) : Bool :=
  let l := k.instr.filterMap (insnFlits route)
  l.isEmpty || l.contains (eFlits w)

/-- The output of a route's path that leaves a core the image does not use. -/
def unusedHop (m : Image) (c : Nat) (r : BitVec 256) : Option Dir :=
  (routeHops m.hdr.device c r).findSome? (fun h => match m.core h.core with | none => some h.out | some _ => none)

/-- The output of a route's path where a packet lacks its entry, has to share it, meets unlike contributions or an unused core (R332). -/
def pathBad (m : Image) (x : CoreImg) (route : Nat) (r : BitVec 256) : Option Dir :=
  let hops := routeHops m.hdr.device x.core r
  let flits (tag : Nat) : Nat := match hops with
    | [] => 0
    | h :: _ => match m.core h.core with
      | none => 0
      | some k => match entriesFor (k.table h.out) h.inp tag with | w :: _ => eFlits w | [] => 0
  hops.findSome? (fun h => match m.core h.core with
    | none => some h.out
    | some k => (routeTags r).findSome? (fun tag => match entriesFor (k.table h.out) h.inp tag with
      | [w] =>
        if eFlits w ≠ flits tag || !flitsFit x route w then some h.out
        else if (contributors m h tag).length ≠ 1 then some h.out
        else if eKind w = 1 && (Dir.all.filter (fun d => eHas w d)).any (fun d =>
            match contributors m { h with inp := d } tag with
            | [q] => !sameRoute r q
            | _ => true) then some h.out
        else none
      | _ => some h.out))

/-- Check 0x0402: paths (R265, R281, R282, R287, R332). -/
def checkPaths (m : Image) : Option Word :=
  eachCore m (fun k => firstBad k.routes (fun i r =>
    if rKind r = 0 then none
    else match (if routeTagged r then pathBad m k i r else unusedHop m k.core r) with
      | some d => some (failAt 0x0402 d.code i 7 false k.core)
      | none => none))

/-- Packets of a route in a step: USES in each of the periods of the first output on its path (R275, R276, R327). -/
def stepPackets (m : Image) (k : CoreImg) (r : BitVec 256) : Nat :=
  match routeHops m.hdr.device k.core r with
  | h :: _ => rUses r * (k.table h.out).periods
  | [] => rUses r

/-- Check 0x0403: claim reservations, and the ledgered Collars that have none (R327). -/
def checkClaims (m : Image) : Option Word :=
  orElse (eachCore m (fun k => firstBad k.collars (fun i w =>
    if colConf w.1 && colLedg w.1 && decide (0 < ledgerLimit w.2) && !(m.claims.any (fun x => x.home = k.core && x.collar = i))
      then some (failAt 0x0403 0 i 5 false k.core) else none))) <|
  firstBad m.claims (fun i x =>
    let bad := (match m.core x.home with
        | none => true
        | some k =>
          let w := k.collar x.collar
          !colConf w.1 || !colLedg w.1
          || decide (((m.claims.filter (fun y => y.home = x.home && y.collar = x.collar)).foldl (fun a y => a + y.count) 0) < ledgerLimit w.2))
      || (match m.core x.core with | none => true | some k => rKind (k.route x.route) = 0 || stepPackets m k (k.route x.route) ≠ x.count)
    if bad then some (failAt 0x0403 0 i 0x0B true 0) else none)

/-- The packets of the L output of a core over a step, as period and entry in order (R276, R278). -/
def lOrder (k : CoreImg) : List (Nat × Word) :=
  let t := k.table .l
  (List.range t.periods).flatMap (fun p => (((List.range t.entries).map t.entry).filter (fun w => eKind w = 0 || eKind w = 1)).map (fun w => (p, w)))

/-- The places of a route's items in such an order, item by item: the entries of their TAG that take from the input the route's path comes in
by (R275, R281, R326). -/
def itemPlaces (order : List (Nat × Word)) (periods : Nat) (inp : Option Dir) (r : BitVec 256) : List Nat :=
  (List.range periods).flatMap (fun p => (routeTags r).map (fun t =>
    order.findIdx (fun e => e.1 = p && eTag e.2 = t && (match inp with | some d => eHas e.2 d | none => false))))

/-- The input by which a route's packets reach the L output of a core (R265). -/
def inputAt (m : Image) (src at_ : Nat) (r : BitVec 256) : Option Dir :=
  ((routeHops m.hdr.device src r).find? (fun h => h.core = at_ && h.out = .l)).map (fun h => h.inp)

/-- N of R69 by R326: the most faster-path packets placed before slower item i and at or after faster item i. A faster item i that does not
exist counts as place 0 (log entry 71). -/
def rejoinDepth (fast slow : List Nat) : Nat :=
  (List.range slow.length).foldl (fun m i =>
    let s := nth 0 slow i
    let f := nth 0 fast i
    max m ((fast.filter (fun x => decide (x < s) && decide (f ≤ x))).length)) 0

/-- Entries of a tuple of a route: by the SENDT instructions of its core (R299). -/
def tupleEntries (k : CoreImg) (route : Nat) : Nat :=
  k.instr.foldl (fun m w => if opOf w = 0x41 && ifld w 15 8 = route then max m (ceilDiv (ifld w 24 20) 4) else m) 1

/-- Check 0x0501: rejoin queues (R69, R326). A record that names a core the image does not use fails (log entry 71). -/
def checkRejoins (m : Image) : Option Word :=
  eachCore m (fun k => firstBad k.rejoins (fun i w =>
    let fr := bitsOf w 22 8
    match m.core (bitsOf w 12 10), m.core (bitsOf w 30 10) with
    | some fc, some sc =>
      let order := lOrder k
      let sr := bitsOf w 40 8
      let places (q : CoreImg) (i : Nat) : List Nat := itemPlaces order (k.table .l).periods (inputAt m q.core k.core (q.route i)) (q.route i)
      let n := rejoinDepth (places fc fr) (places sc sr)
      let e := tupleEntries fc fr
      let items := (bDepth (k.bowl (bitsOf w 0 6)) + 1 - e) / e
      if items < n + 2 then some (failAt 0x0501 0 i 0x0A false k.core) else none
    | _, _ => some (failAt 0x0501 0 i 0x0A false k.core)))

/-- Check 0x0502: go margin (R47, R416). -/
def checkMargin (m : Image) : Option Word :=
  let least := if m.hdr.multi then max 32 (goBound m.hdr.extent) else 32
  if m.hdr.margin < least then some (failAt 0x0502 0 0 0 false 0) else none

/-- Check 0x0601: fence value (R230). -/
def checkFence (m : Image) : Option Word :=
  eachCore m (fun k => if k.fence % 4096 ≠ 0 || decide (saveBase < k.fence) then some (failAt 0x0601 0 0 1 false k.core) else none)

/-- Whether a drain block, or a vector it names, reaches past the fence (R165, R332). -/
def blockAbove (fence a : Nat) (l : List Word) : Bool :=
  decide (fence < a + 64) || l.any (fun w =>
    (stKind w = 1 || stKind w = 2) && stVsrc w ≠ 0 && decide (fence < bitsOf w 21 21 + packedBytes (stFmt w).width 32))

/-- Check 0x0602: fence contents. -/
def State.checkFenceContents (s : State) (m : Image) : Option Word :=
  eachCore m (fun k =>
    orElse (match k.weights with | some x => if k.fence < x.len then some (failAt 0x0602 0 0 4 false k.core) else none | none => none)
      (firstBad k.drains (fun i a => if blockAbove k.fence a (s.drainBlock m k a) then some (failAt 0x0602 0 i 9 false k.core) else none)))

/-- Whether an instruction names a Collar against R97 or R226 (R332). -/
def insnCollarBad (k : CoreImg) (w : Insn) : Bool :=
  let op := opOf w
  let loc := !bitAt w 12
  let c := k.collar (ifld w 11 8)
  if op = 0x50 ∨ op = 0x52 then loc && (!colConf c.1 || colLedg c.1)
  else if op = 0x51 then !colConf c.1
  else if op = 0x53 then !colConf c.1 || colLedg c.1
  else if op = 0x54 ∨ op = 0x55 then loc && !colConf c.1
  else if op = 0x60 then bitAt w 8 && !colConf (k.collar (ifld w 12 9)).1
  else false

/-- Check 0x0701: Collars (R97, R103, R332). -/
def checkCollars (m : Image) : Option Word :=
  eachCore m (fun k =>
    orElse (firstBad k.instr (fun i w => if insnCollarBad k w then some (failAt 0x0701 0 i 2 false k.core) else none)) <|
    orElse (firstBad k.collars (fun i w =>
      let n := ledgerLimit w.2
      let d := k.collar (ledgerDone w.2)
      if colConf w.1 && colLedg w.1 && (n = 0 || decide (4096 < n) || !colConf d.1 || colLedg d.1)
        then some (failAt 0x0701 0 i 5 false k.core) else none)) <|
    firstBad k.routes (fun i r =>
      if (rKind r = 4 || rKind r = 5) && rDev r = m.hdr.device then
        match m.core (rCore r) with
        | none => some (failAt 0x0701 0 i 7 false k.core)
        | some q =>
          let c := q.collar (rBowl r % 16)
          if !colConf c.1 || colLedg c.1 ≠ (rKind r == 5) then some (failAt 0x0701 0 i 7 false k.core) else none
      else none))

/-- Contexts of an image. -/
def Img.ctxRange (g : Img) : List Nat := (List.range g.ctxCount).map (fun i => g.ctxFirst + i)

/-- Check 0x0801: context range. -/
def State.checkCtxRange (s : State) (m : Image) : Option Word :=
  let g := m.hdr
  if decide (512 < g.ctxFirst + g.ctxCount)
      || s.progs.any (fun e => e.2.packs ≠ 0 && rangesMeet g.ctxFirst g.ctxCount e.2.ctxFirst e.2.ctxCount)
    then some (failAt 0x0801 0 0 0 false 0) else none

/-- Whether an F32 code is a finite value, 0 or above (R338). -/
def tempOk (w : BitVec 32) : Bool := w = 0 || (!bitAt w 31 && bitsOf w 23 8 ≠ 0xFF)

/-- The ranges of sampling parameters (R338, R343). -/
def paramsOk (p : SampParams) : Bool :=
  tempOk p.temp && decide (p.topK ≤ 1024) && decide (p.maskId ≤ 15) && decide (p.irqMode ≤ 2)

/-- A power of two up to a bound. -/
def powerOfTwo (n top : Nat) : Bool := (List.range top).any (fun i => n = 2 ^ i)

/-- Whether a CONTEXTS record is in range (R338). -/
def ctxRecordOk (m : Image) (expect : Nat) (x : Nat × Ctx) (reserved : Bool) : Bool :=
  let c := x.2
  let win (a n : Nat) (wr : Bool) : Bool := inWindow m.windows a n wr
  x.1 = expect && powerOfTwo c.width 13 && decide (1 ≤ c.vocab) && decide (c.vocab ≤ 262144) && decide (1 ≤ c.maxPos)
  && decide (c.maxPos ≤ 2 ^ 31) && (c.link = 0xFFFF || decide (c.link < 512)) && decide (c.msix ≤ 31) && c.stateAddr % 64 = 0
  && c.inBase % 4096 = 0 && c.cplBase % 4096 = 0 && decide (4 ≤ c.inLog2) && decide (c.inLog2 ≤ 16) && decide (4 ≤ c.cplLog2)
  && decide (c.cplLog2 ≤ 16) && decide (c.tableSet ≤ 3) && decide (c.inputCollar < 2 ^ 14) && decide (c.fbPeriod ≤ 15)
  && decide (c.fbCore < 1024) && decide (c.fbBowl ≤ 63) && decide (c.fbTag ≤ 4095) && c.kvBase % 4096 = 0 && paramsOk c.params && !reserved
  && win c.stateAddr 64 true && win c.inBase (64 * 2 ^ c.inLog2) false && win c.cplBase (32 * 2 ^ c.cplLog2) true
  && win c.kvBase c.kvLen false

/-- LOGIT_FMT out of range or a reserved byte of a CONTEXTS record nonzero (R338). -/
def State.ctxReserved (s : State) (g : Img) (off : Nat) : Bool :=
  decide (1 < s.imgNum g.base (off + 43) 1) || s.imgNum g.base (off + 53) 1 ≠ 0 || s.imgNum g.base (off + 91) 37 ≠ 0

/-- Check 0x0802: context packs and records (R332, R338, R352). -/
def State.checkContexts (s : State) (m : Image) : Option Word :=
  let g := m.hdr
  let dev (i : Nat) := some (failAt 0x0802 0 i 0x0D true 0)
  match findSect m.sects 0x0D 0xFFFF with
  | none => dev 0
  | some x =>
    if x.count ≠ g.ctxCount then dev 0
    else orElse (firstBad g.ctxRange (fun i n => if fieldOf g.mask (n % 16) 1 = 0 then dev i else none)) <|
      orElse (eachCore m (fun k => firstBad k.routes (fun i r =>
        if rKind r = 6 && !g.ctxRange.any (fun n => n % 16 = packOf (rCore r)) then some (failAt 0x0802 0 i 7 false k.core) else none))) <|
      orElse (firstBad m.ctxs (fun i c => if ctxRecordOk m (g.ctxFirst + i) c (s.ctxReserved g (x.off + 128 * i)) then none else dev i))
        (if Config.logitOrderBad (s.imgDigest g.base) then dev 0 else none)

/-- Check 0x0901: the seam (R65, R332). -/
def State.checkSeam (s : State) (m : Image) : Option Word :=
  let g := m.hdr
  let both := g.mask % 256 ≠ 0 && g.mask / 256 ≠ 0
  let packs := packsIn g.mask
  if g.spanning ≠ both || (both && packs.any (fun p => (s.pack p).freq ≠ (s.pack (packs.headD 0)).freq))
    then some (failAt 0x0901 0 0 0 false 0) else none

/-- Whether two logical cores have hosts that lie more than two physical columns apart (R334). -/
def State.farApart (s : State) (a b : Nat) : Bool :=
  match s.hostOf a, s.hostOf b with
  | some x, some y => decide (x % 34 + 2 < y % 34) || decide (y % 34 + 2 < x % 34)
  | _, _ => false

/-- The hops of fetches from a core to a stack, and of the replies (R266). -/
def fetchHops (c st : Nat) : List Hop :=
  let edge := fetchRouter c st
  let req : Pkt := { hdr := { Hdr.zero with ptype := 9, dstCore := edge }, words := [], payload := [], exit := false, origin := 0 }
  let rep : Pkt := { hdr := { Hdr.zero with ptype := 0x0A, dstCore := c }, words := [], payload := [], exit := false, origin := 0 }
  hopsFrom 0 req 64 c .l ++ hopsFrom 0 rep 64 edge (if st < 4 then .n else .s)

/-- The hops of a core's fetches to the stacks that the windows cover (R334). -/
def coreFetchHops (m : Image) (k : CoreImg) : List Hop :=
  if k.instr.any (fun w => opOf w = 0x10 || opOf w = 0x11) then
    ((List.range 8).filter (fun st => m.windows.any (fun w => fieldOf w.hbmStacks st 1 = 1))).flatMap (fetchHops k.core)
  else []

/-- The hops a core's own paths take: those of its routes and of its fetches (R334). -/
def coreHops (m : Image) (k : CoreImg) : List Hop :=
  k.routes.flatMap (fun r => if rKind r = 0 then [] else routeHops m.hdr.device k.core r) ++ coreFetchHops m k

/-- Check 0x0A01: every used core has a host and every link that a table's entry, a route's path or a fetch path uses is within
reach (R334). -/
def State.checkHeel (s : State) (m : Image) : Option Word :=
  eachCore m (fun k =>
    if (s.hostOf k.core).isNone then some (failAt 0x0A01 0 0 1 false k.core)
    else
      let far (a : Nat) (d : Dir) : Bool := match neighbourOf a d with
        | some (n, _) => (m.core a).isSome && (m.core n).isSome && s.farApart a n
        | none => false
      let bad (l : List Hop) : Bool := l.any (fun h => far h.core h.out)
      orElse (Dir.all.findSome? (fun d => if far k.core d then
        firstBad ((List.range (k.table d).entries).map (k.table d).entry) (fun j w => if eKind w ≤ 1 then some (failAt 0x0A01 0 j 8 false k.core) else none)
        else none)) <|
      orElse (firstBad k.routes (fun i r => if rKind r ≠ 0 && bad (routeHops m.hdr.device k.core r) then some (failAt 0x0A01 0 i 7 false k.core) else none)) <|
      if bad (coreFetchHops m k) then some (failAt 0x0A01 0 0 1 false k.core) else none)

/-- The Pedigree check of the image at an address: none passes, else LOAD_RESULT of the first failing check (R332). -/
def State.pedigree (s : State) (base : Nat) : Option Word :=
  let g := s.img base
  orElse (s.checkHead g) <| orElse (s.checkSects g (s.sects g)) <|
  let m := s.image base 0
  [s.checkReserved m, checkInsns m, s.checkDrains m, checkLeash m, checkSpacing 0x0206 2 16 64 m, checkSpacing 0x0207 3 8 32 m,
   checkRoutes m, s.checkWindows m, checkBowlRegion m, checkBowlOverlap m, checkBowlFields m, checkLedgers m, checkReceivers m,
   checkPaths m, checkClaims m, checkRejoins m, checkMargin m, checkFence m, s.checkFenceContents m, checkCollars m,
   s.checkCtxRange m, s.checkContexts m, s.checkSeam m, s.checkHeel m].findSome? id

end Sys2Proof.Machine
end

