-- ==== Sys2Proof/Machine/Load.lean ====
section
/-! DEFINITION. Loading: the load commands, the end of the check, and installation (R298, R320, R328-R336, R405-R410). -/
namespace Sys2Proof.Machine

/-- The TAP in Test-Logic-Reset: IDCODE selected and every pin back to its function (R627, R628). -/
def tapReset (s : State) : State := { s with jtag := { s.jtag with insn := .idcode, pinsDriven := false, pinsFloat := false } }

/-- The TAP leaves EXTEST, CLAMP or HIGHZ where one is in force (R628). -/
def tapYield (s : State) : State :=
  if s.jtag.insn = .extest || s.jtag.insn = .clamp || s.jtag.insn = .highz then tapReset s else s

/-- DEV_STATE follows PACK_STATE between Idle and Run (R602, R603). -/
def refreshDev (s : State) : State :=
  let busy := s.packs.any (fun e => e.2.state = .installed || e.2.state = .running || e.2.state = .tearing)
  if s.power.dev = .idle && busy then { s with power := { s.power with dev := .run } }
  else if s.power.dev = .run && !busy then { s with power := { s.power with dev := .idle } }
  else s

/-- The image LOAD_IMAGE_ADDR names (R320, R328). -/
def State.imageAddr (s : State) : Nat := s.setting 0x0210 1 0

/-- Whether a load of an image is refused before its check: a multi-device image outside its running job (R406, R410). -/
def State.loadRefused (s : State) : Bool :=
  let g := s.img s.imageAddr
  g.multi && !(s.job.state = .running && g.device = s.device && g.extent = s.job.extent.toNat)

/-- LOAD_COMMAND 1 and 2 (R329, R410, R628). -/
def startCheck (only : Bool) (s : State) : Nat × State :=
  if s.load.state = .checking || s.load.state = .installing then (stBusy, s)
  else if s.loadRefused then (stState, s)
  else
    let s := tapYield s
    (stDone, { s with load := { s.load with
      state := .checking, checkOnly := only, image := s.imageAddr, packs := (s.img s.imageAddr).mask, startedAt := s.howl } })

/-- CHECK_AND_INSTALL: LOAD_COMMAND 1 (R329). -/
def execCheckAndInstall (s : State) : Host.Outcome State Fault Refusal := .next (s.command (startCheck false))

/-- CHECK_ONLY: LOAD_COMMAND 2 (R329). -/
def execCheckOnly (s : State) : Host.Outcome State Fault Refusal := .next (s.command (startCheck true))

/-- LOAD_COMMAND 3 (R329). -/
def loadAbort (s : State) : Nat × State :=
  (stDone, match s.load.state with
    | .checking => { s with load := { s.load with state := .idle } }
    | .installing => refreshDev { startTeardown s.load.prog 0 s with load := { s.load with state := .idle } }
    | .installed => refreshDev { startTeardown s.load.prog 0 s with load := { s.load with state := .idle } }
    | .idle => s
    | .failed => s
    | .passed => s)

/-- LOAD_ABORT: LOAD_COMMAND 3 (R329). -/
def execLoadAbort (s : State) : Host.Outcome State Fault Refusal := .next (s.command loadAbort)

/-- LOAD_RESULT written with its time (R328, R332). -/
def setLoadResult (w : Word) (st : LoadState) (s : State) : State :=
  { s with load := { s.load with result := w, resultTime := s.howl, state := st } }

/-- The load fails with a code: LOAD_STATE 4 and PEDIGREE_FAILURES (R332, R335). -/
def loadFails (w : Word) (s : State) : State := (setLoadResult w .failed s).bump 0x5017 2 1

/-- The lowest free program slot. -/
def State.freeProg (s : State) : Nat := ((List.range 16).find? (fun g => (s.prog g).packs = 0)).getD 0

/-- The program record of an image (R321-R327, R367, R406). -/
def programOf (m : Image) (s : State) : Program :=
  let g := m.hdr
  let inJob := s.job.state = .running
  { Program.none with
    packs := g.mask, ctxFirst := g.ctxFirst, ctxCount := g.ctxCount, margin := g.margin, seed := BitVec.ofNat 64 g.seed,
    spanning := g.spanning, multi := g.multi, extent := g.extent, device := g.device
    opset := g.opset, compiler := g.compiler, checkLevel := g.level,
    imageAddr := g.base, imageLen := g.len, windows := m.windows
    used := m.cores.map (fun k => (k.core, true))
    weights := (m.cores.filter (fun k => k.weights.isSome)).map (fun k => (k.core, (k.weights.map (fun x => x.off)).getD 0))
    weightLen := (m.cores.filter (fun k => k.weights.isSome)).map (fun k => (k.core, (k.weights.map (fun x => x.len)).getD 0))
    epoch := if inJob then s.job.epoch.toNat else 0
    ofJob := inJob }

/-- What the check has read of the image passes the ring port of its stack once: the image and its signatures, or the header alone where that
is bad (R330, R373, R388; log entry 68). -/
def readImage (base : Nat) (s : State) : State :=
  let g := s.img base
  (portRead base (if s.headerBad g then 256 else signedLen g) s).2

/-- PEDIGREE_CHECK_DONE: the check ends; an image that passes takes a program slot and its packs, and installs (R330, R332, R352). -/
def execPedigreeCheckDone (s : State) : Host.Outcome State Fault Refusal :=
  if s.load.state ≠ .checking then .next s
  else match s.pedigree s.load.image with
    | some w => .next (loadFails w (readImage s.load.image s))
    | none =>
      let s := (readImage s.load.image s).bump 0x5017 1 1
      if s.load.checkOnly then .next (setLoadResult 0 .passed s)
      else
        let n := s.freeProg
        let m := s.image s.load.image n
        let s := setLoadResult 0 .installing s
        let s := s.setProg n (programOf m s)
        let s := (packsIn m.hdr.mask).foldl (fun s p => s.modPack p (fun k => { k with prog := some n, level := s.checkLevelOf n })) s
        .next { s with load := { s.load with prog := n } }

/-- The Collar an image configures; a ledgered one has handed out no index (R95, R106, R324). -/
def collarOf (w : Word × Word) : Collar :=
  if colConf w.1 then
    { value := if colLedg w.1 then 0 else BitVec.ofNat 32 (bitsOf w.1 0 32), gen := BitVec.ofNat 8 (bitsOf w.1 32 8), ovf := false, ledgered := colLedg w.1,
      configured := true, ledger := w.2 }
  else .none

/-- An installed stream: registers, loop counters and FAULT 0, PC at its entry, parked on launch (R75, R191). -/
def streamOf (w : Word) : Stream :=
  if strInstalled w then { Stream.none with pc := BitVec.ofNat 12 (bitsOf w 0 12), st := .parkedLaunch } else .none

/-- A table of a list, without the entries that read as the default. -/
def tabOfList {α : Type} [DecidableEq α] (d : α) (l : List α) : Tab α := (l.mapIdx (fun i a => (i, a))).filter (fun e => e.2 ≠ d)

/-- Zeros written through the service window; a last word covered in part is a merge (R104, R236, R248, R298). -/
def zeroRange (c a n : Nat) (s : State) : State :=
  writePort c 7 (a + n / 8 * 8) (List.replicate (n % 8) 0) (s.modCore c (fun k => k.zeroise a (n / 8 * 8)))

/-- What the loader writes into the scratchpad of a used core: every word below the fence, Bowl rings and ledgers (R231, R298, R106). -/
def installSpad (x : CoreImg) (weights : List Byte) (s : State) : State :=
  let c := x.core
  let s := s.modCore c (fun k => { (k.zeroise 0 x.fence).store_ 0 weights with fence := x.fence })
  let s := (x.bowls.map bowlCfg).foldl (fun s b => if bConf b then zeroRange c (bBase b) (40 * bDepth b) s else s) s
  (ledgerRegions x.collars).foldl (fun s r => zeroRange c r.1 r.2 s) s

/-- What the loader writes into a used core besides its scratchpad (R95, R191, R274, R283, R298, R327). -/
def installCore (x : CoreImg) (claims : List ClaimRes) (k : Core) : Core :=
  let k : Core := { k with
    store := tabOfList 0 x.instr, storeErr := []
    streams := tabOfList .none (x.streams.map streamOf)
    collars := tabOfList .none (x.collars.map collarOf)
    bowls := tabOfList .none (x.bowls.map (fun w => if bConf (bowlCfg w) then bowlCfg w else .none))
    routes := tabOfList 0 x.routes, routeSent := [], checked := 0, postedReady := false
    claimRes := (claims.filter (fun r => r.core = x.core)).foldl (fun t r => tabSet 0 t (claimKey r.stream r.route) r.count) [] }
  Dir.all.foldl (fun k d => k.setOutput d { k.output d with shadow := some (x.table d) }) k

/-- A context of the image: its record, every count 0, state Closed (R338, R340, R506). -/
def installCtx (n : Nat) (x : Ctx) (s : State) : State :=
  let s := s.setCtx n x
  let s := { s with vet := { s.vet with kept := tabErase s.vet.kept n } }
  portWrite (x.stateAddr + 12) [0, 0, 0, 0] (portWrite x.stateAddr [0] s)

/-- The weights of a core, read through the ring port of the image's stack (R320, R366). -/
def readWeights (base : Nat) (x : CoreImg) (s : State) : List Byte × State :=
  match x.weights with
  | some y => portRead (base + y.off) y.len s
  | none => ([], s)

/-- INSTALL_DONE: every used core is written while its router is drained and no vet slice runs there (R444), every core of the packs has its fence, and LOAD_STATE becomes 3
(R283, R330). -/
def execInstallDone (s : State) : Host.Outcome State Fault Refusal :=
  let g := s.load.prog
  let m := s.image s.load.image g
  if s.load.state ≠ .installing || !m.cores.all (fun x => (s.core x.core).routerEmpty && !(s.core x.core).vetting) then .next s
  else
    let s := (packsIn m.hdr.mask).foldl (fun s p => (packCores p).foldl (fun s c =>
      if (s.core c).fence = 0 then s else s.modCore c (fun k => { k with fence := 0 })) s) s
    let s := m.cores.foldl (fun s x =>
      let w := readWeights m.hdr.base x s
      (installSpad x w.1 w.2).modCore x.core (fun k => installCore x m.claims k)) s
    let s := m.ctxs.foldl (fun s x => installCtx x.1 x.2 s) s
    let s := (packsIn m.hdr.mask).foldl (fun s p => s.modPack p (fun k => { k with
      state := .installed, queue := [], nextStep := 0, step := 0, inStep := false, everLaunched := false, posted := false,
      goAt := none, overran := false, headLate := false, goLate := false, retr := { Retriever.reset with tagGen := k.retr.tagGen, tableErr := k.retr.tableErr }, teardown := none, stopping := false
      lastProg := s.clock })) s
    let s := (packsIn m.hdr.mask).foldl (fun s p =>
      if (tabGet VetPack.reset s.vet.packs p).degraded then { s with vet := { s.vet with packs := tabMod .reset s.vet.packs p (fun v => { v with degraded := false }) } } else s) s
    .next (refreshDev { s with load := { s.load with state := .installed } })

end Sys2Proof.Machine
end

