-- ==== Sys2Proof/Machine/Vet.lean ====
section
/-! DEFINITION. Vet slices, findings, muzzling, holding safe, re-placement and maintenance (R257, R258, R335, R435-R467). -/
namespace Sys2Proof.Machine

/-- A pack's vet record. -/
def State.vetPack (s : State) (p : Nat) : VetPack := tabGet .reset s.vet.packs p
/-- The state with one pack's vet record changed. -/
def State.modVet (s : State) (p : Nat) (f : VetPack → VetPack) : State :=
  { s with vet := { s.vet with packs := tabMod .reset s.vet.packs p f } }

/-- Beats a slice must be able to count on (R440). -/
def sliceWindow : Nat := 33064

/-- Beats of a slice at a frequency step (R436). -/
def sliceBeats (step : Nat) : Nat := 1280 + ceilDiv (27264 * 5) (20 - step)

/-- Whether the next scheduled or merge entry of a core's L output is nominal at least a slice ahead; there is none in a
finished step or an idle table (R440). -/
def Output.clearAhead (o : Output) (now : Time) : Bool :=
  if o.table.idle || !o.running then true
  else
    let n := o.table.entries
    let place := o.period * n + o.head
    match (List.range (o.table.periods * n)).find? (fun q => decide (place ≤ q) && decide (eKind (o.table.entry (q % n)) ≤ 1)) with
    | none => true
    | some q =>
      let t := o.launchAt + BitVec.ofNat 64 (q / n * o.table.beats + eOffset (o.table.entry (q % n)))
      decide ((sliceWindow : Int) ≤ howlDiff t now)

/-- The tests of R440 on a logical core of a running program. -/
def State.idleLong (s : State) (c : Nat) : Bool :=
  let k := s.core c
  let p := s.pack (packOf c)
  k.streams.all (fun e => e.2.st ≠ .ready) && k.ops.isEmpty && k.mesh.isEmpty && k.meshCount = 0 && k.deferred.isEmpty
  && (k.output .l).clearAhead s.howl
  && (!k.streams.all (fun e => e.2.st = .parkedLaunch || e.2.st = .uninstalled)
      || (match p.queue with | [] => false | d :: _ => decide ((sliceWindow : Int) ≤ howlDiff d.launch s.howl)))

/-- Whether a loaded image has a packet path or fetch path through a logical core's router (R442). -/
def State.routerUsed (s : State) (c : Nat) : Bool :=
  s.progs.any (fun e => e.2.packs ≠ 0 &&
    (let m := s.image e.2.imageAddr e.1
     m.cores.any (fun k => (coreHops m k).any (fun h => h.core = c))))

/-- The router that a slice of a unit disturbs: its logical core's, or the Retriever's. -/
def State.unitRouter (s : State) (p u : Nat) : Option Nat :=
  if u < 68 then s.heldBy (nth 0 (packPhys p) u) else some (retrRouter p)

/-- The slice a unit of a pack would run now: its next one, and slice 0 in place of 56-63 while a loaded image uses its router
(R441, R442). -/
def State.sliceOf (s : State) (p u : Nat) : Nat :=
  let n := if u < 68 then (s.phys (nth 0 (packPhys p) u)).nextSlice else (s.vetPack p).retrSlice
  if u < 68 && decide (56 ≤ n) && (match s.unitRouter p u with | some c => s.routerUsed c | none => false) then 0 else n

/-- Whether a pack takes run-time slices now: powered, enabled, not held, reset, torn down or re-placed (R441, R445, R456, R465). -/
def State.vetRuns (s : State) (p : Nat) : Bool :=
  s.power.rails && s.setting 0x3030 1 1 = 1 && (s.vetPack p).active.isNone && (s.replAt p).isNone
  && ((s.pack p).state = .empty || (s.pack p).state = .installed || (s.pack p).state = .running) && (s.pack p).teardown.isNone

/-- Whether a unit of a pack may take its slice now (R440, R441, R445). -/
def State.unitReady (s : State) (p u : Nat) : Bool :=
  if u < 68 && (s.phys (nth 0 (packPhys p) u)).muzzled then false
  else if (s.pack p).state ≠ .running then true
  else if u < 68 then (match s.unitRouter p u with | some c => !(s.usedCores p).contains c || s.idleLong c | none => true)
  else
    let r := (s.pack p).retr
    r.pairs.isEmpty && r.sampling.isNone && r.ready.isEmpty && r.reqs.isEmpty
    && ((s.core (retrRouter p)).output .l).clearAhead s.howl

/-- Part 2 of a slice: the partition's state is written to the save area, with fresh check bits. No port reads its bytes but the slice itself, so
the model keeps none (R232, R436; log entry 78). -/
def Core.saveState (k : Core) : Core := k.zeroise saveBase (spadBytes - saveBase)

/-- VET_SLICE_START: the pack's next unit in turn whose tests pass starts its slice; `condOk` is whether its clock and supply
are within the limits of R443: a unit outside them is passed over (R436, R440-R445). -/
def execVetSliceStart (pack : PackId) (condOk : Bool) (s : State) : Host.Outcome State Fault Refusal :=
  let p := pack.val
  if !s.vetRuns p then .next s
  else
    let t := (s.vetPack p).turn
    match ((List.range 69).map (fun i => (t + i) % 69)).find? (s.unitReady p) with
    | none => .next s
    | some u =>
      if !condOk then .next (s.modVet p (fun v => { v with turn := (u + 1) % 69 })) else
      let n := s.sliceOf p u
      let s := s.modVet p (fun v => { v with active := some { unit := u, slice := n, startedAt := s.clock }, turn := (u + 1) % 69 })
      match (if u < 68 then s.unitRouter p u else none) with
      | some c =>
        let s := s.modCore c (fun k => { k with vetting := true })
        .next (if (s.progOf p).isSome then s.modCore c Core.saveState else s)
      | none => .next s

/-- A pack's slice ends and its core is restored (R436, R445). -/
def endSlice (p : Nat) (a : Slice) (s : State) : State :=
  let s := s.modVet p (fun v => { v with active := none })
  match (if a.unit < 68 then s.unitRouter p a.unit else none) with
  | some c => restoreSlice p c s
  | none => s

/-- The entry of a spare row of a bank (R255). -/
def PhysCore.entry (k : PhysCore) (bank spare : Nat) : BitVec 16 := tabGet 0 k.repair (4 * bank + spare)
/-- VALID of a repair entry. -/
def repValid (e : BitVec 16) : Bool := bitAt e 15
/-- FUSED of a repair entry. -/
def repFused (e : BitVec 16) : Bool := bitAt e 14
/-- ROW of a repair entry. -/
def repRow (e : BitVec 16) : Nat := bitsOf e 0 7

/-- What a march failure of a row does to the repair entries: a repair or re-repair, or none where the core must be muzzled
(R255, R257, R448). -/
def PhysCore.repairRow (k : PhysCore) (bank row : Nat) : Option PhysCore :=
  let spares := List.range 4
  let held := spares.find? (fun i => repValid (k.entry bank i) && repRow (k.entry bank i) = row)
  let fused := match held with | some i => repFused (k.entry bank i) | none => false
  let k1 := match held with
    | some i => { k with repair := tabSet 0 k.repair (4 * bank + i) (BitVec.ofNat 16 (0x8000 + 127)) }
    | none => k
  match spares.find? (fun i => !repValid (k1.entry bank i)) with
  | none => none
  | some i => if fused then none else some { k1 with repair := tabSet 0 k1.repair (4 * bank + i) (BitVec.ofNat 16 (0x8000 + row)) }

/-- Words of a bank that hold an error, in the rows below `rows` (R233). -/
def Core.bankErrs (k : Core) (bank rows : Nat) : List Nat := (k.spadErr.map (fun e => e.1)).filter (fun w => w % 64 = bank && decide (w / 2048 < rows))

/-- One word read with correction through a port and written back with fresh check bits: the march's row buffer, and the copy to a spare
row (R246-R248, R257, R439). -/
def marchWord (c port w : Nat) (s : State) : State :=
  let k := s.core c
  let bits := tabGet 0 k.spadErr w
  let fresh (s : State) : State := s.modCore c (fun k => { k with spadErr := tabErase k.spadErr w })
  match eccOutcome (k.isDecTed (8 * w)) bits s.nonce with
  | .clean => s
  | .corrected => fresh (eccCorrected c port (8 * w) bits s)
  | .uncorrectable => eccUncorrectable c port (8 * w) false (s.drawn (k.isDecTed (8 * w)) bits)
  | .miscorrected =>
    let f := s.fresh
    fresh (eccCorrected c port (8 * w) bits (f.2.modCore c (fun k => { k with spad := memWrite k.spad (8 * w) (leBytes 8 f.1.toNat) })))
  | .silent =>
    let f := s.fresh
    fresh (f.2.modCore c (fun k => { k with spad := memWrite k.spad (8 * w) (leBytes 8 f.1.toNat) }))

/-- A bank set to zero: the march of a pack without a program (R445). -/
def Core.zeroBank (k : Core) (bank : Nat) : Core :=
  { k with spad := k.spad.filter (fun e => e.1 / 8 % 64 ≠ bank), spadErr := k.spadErr.filter (fun e => e.1 % 64 ≠ bank) }

/-- One word of the march in a pack without a program: an uncorrectable one is counted and fails its row (R248). -/
def emptyMarchWord (c : Nat) (a : List Nat × State) (w : Nat) : List Nat × State :=
  let s := a.2
  let bits := tabGet 0 (s.core c).spadErr w
  match eccOutcome ((s.core c).isDecTed (8 * w)) bits s.nonce with
  | .uncorrectable => (a.1 ++ [w / 2048], (s.drawn ((s.core c).isDecTed (8 * w)) bits).bumpCore c 0x53 1)
  | _ => (a.1, marchWord c 9 w s)

/-- What the march of bank `bank` does to the scratchpad of the core, and the rows that fail it by an uncorrectable word (R248, R439,
R445). -/
def marchBank (p : Nat) (c : Option Nat) (bank : Nat) (s : State) : List Nat × State :=
  match c with
  | none => ([], s)
  | some c =>
    if (s.progOf p).isNone then
      let r := ((s.core c).bankErrs bank 96).foldl (emptyMarchWord c) ([], s)
      (r.1.eraseDups, r.2.modCore c (fun k => k.zeroBank bank))
    else ([], ((s.core c).bankErrs bank 94).foldl (fun s w => marchWord c 9 w s) s)

/-- The Groomer copies a row to its spare, each word corrected; one it cannot correct is handled as R248 gives (R257). -/
def copyRow (c bank row : Nat) (s : State) : State :=
  (((s.core c).bankErrs bank 96).filter (fun w => w / 2048 = row)).foldl (fun s w =>
    match eccOutcome ((s.core c).isDecTed (8 * w)) (tabGet 0 (s.core c).spadErr w) s.nonce with
    | .uncorrectable => groomBad c w s
    | _ => marchWord c 8 w s) s

/-- The vet code of a finding on a slice that muzzles or holds, R449. A row failure that no spare absorbs is 0xC8. -/
def Finding.code (f : Finding) (slice : Nat) : Nat :=
  match f with
  | .pass => 0
  | .marchFail _ => 0xC8
  | .analogue part => 0xC0 + part.val
  | .lbist => if slice < 56 then 0xC5 else 0xC6
  | .loopback => 0xC7
  | .retriever => 0xC9
  | .supply => 0xCA

/-- Whether a finding holds the pack safe (R448). -/
def Finding.holdsSafe : Finding → Bool
  | .loopback => true | .retriever => true | .supply => true
  | .pass => false | .marchFail _ => false | .analogue _ => false | .lbist => false

/-- A program stops for a vet finding: its streams stop and its packs Bark the job. Answers whether the Bark was the first (R453). -/
def stopProgram (code g : Nat) (s : State) : Bool × State :=
  let packs := s.progPacks g
  let s := packs.foldl (fun s p => stopPack p s) s
  let s := { s with vet := { s.vet with repl := s.vet.repl.filter (fun r => r.prog ≠ g) } }
  (s.barkIsFirst (s.prog g).ofJob, originateBark (s.prog g).ofJob code s)

/-- The indices of every ledgered Collar of a program whose bitmap bit is 1 are re-issued, whatever their owner (R110, R457). -/
def reissueAll (c k : Nat) (s : State) : State :=
  let d := ((s.core c).collar k).ledger
  (List.range (ledgerLimit d)).foldl (fun s i =>
    let x := s.core c
    let e := x.ownerEntry d i
    if x.ledgerBit d i then
      (s.modCore c (fun y => y.setOwner d i (at_ 24 ((ownerGen e + 1) % 256) + at_ 16 1 + e % 65536))).bumpCore c 0x09 1
    else s) s

/-- The used cores of a program. -/
def State.usedOf (s : State) (g : Nat) : List Nat := (s.progPacks g).flatMap (fun p => s.usedCores p)

/-- The ledgered Collars of a program act on a re-placement (R457). -/
def reissueProg (g : Nat) (s : State) : State :=
  (s.usedOf g).foldl (fun s c => ((s.core c).collars.filter (fun e => e.2.ledgered && e.2.configured)).foldl (fun s e => reissueAll c e.1 s) s) s

/-- Hosts of the logical cores of a program's packs, each plus 1. -/
def State.hostTab (s : State) (g : Nat) : Tab Nat :=
  ((s.progPacks g).flatMap packCores).foldl (fun t c => tabSet 0 t c (match s.hostOf c with | some n => n + 1 | none => 0)) []

/-- The cores of a re-placement that change host (R453). -/
def State.shiftedOf (s : State) (r : Replace) : List Nat :=
  (s.usedOf r.prog).filter (fun c => (match s.hostOf c with | some n => n + 1 | none => 0) ≠ tabGet 0 r.old c)

/-- Order 1 of re-placement: issue held, tags bumped, ledgers re-issued; `old` are the hosts before the muzzle. A program
already in re-placement joins with a later failure (R456, R457, R460). -/
def replaceHold (g code : Nat) (step : Word) (old : Tab Nat) (s : State) : State :=
  let s := s.modProg g (fun x => { x with held := true })
  let s := (s.progPacks g).foldl (fun s p => (packCores p).foldl (fun s c => s.modCore c Core.bumpRequests) s) s
  let s := reissueProg g s
  let s := (s.progPacks g).foldl (fun s p => s.modPack p (fun k => { k with posted := false, goAt := none })) s
  match s.replOf g with
  | some r =>
    let r' : Replace := { r with failAt := s.howl, code := code, phase := if r.phase = .drain then .drain else .shift }
    { s with vet := { s.vet with repl := s.vet.repl.map (fun x => if x.prog = g then r' else x) } }
  | none =>
    { s with vet := { s.vet with repl := s.vet.repl ++ [{ prog := g, phase := .drain, failAt := s.howl, step := step, code := code, old := old, moved := [] }] } }

/-- The step a program is in (R456). -/
def State.stepOf (s : State) (g : Nat) : Word := (s.pack ((s.progPacks g).headD 0)).step

/-- Re-placement of a program begins; a multi-device job is told by REWIND (R456, R459). -/
def startReplace (g code : Nat) (old : Tab Nat) (s : State) : State :=
  let step := match s.replOf g with | some r => r.step | none => s.stepOf g
  let s := replaceHold g code step old s
  if (s.prog g).multi then floodCtrl none (.rewind s.device step) s else s

/-- Whether the module re-places a program under the map it now has: running, gated and compatible (R334, R453). -/
def State.replaceable (s : State) (g : Nat) : Bool :=
  let packs := s.progPacks g
  packs.all (fun p => (s.pack p).state = .running && (s.pack p).stepGated)
  && (s.checkHeel (s.image (s.prog g).imageAddr g)).isNone

/-- What a muzzle did to the programs, LAST_MUZZLE's OUTCOME (R467), and whether a Bark of it was the first of a job. -/
structure Judged where
  stopped : Bool
  replaced : Bool
  first : Bool
  st : State

/-- Loaded programs in ascending slot that are not being torn down. -/
def State.loadedProgs (s : State) : List Nat := (List.range 16).filter (fun g => (s.prog g).packs ≠ 0 && !(s.prog g).barked)

/-- The home Shepherds of a program act on the muzzle of a core's host: its claimed indices are marked for re-issue (R110). -/
def reissueOwned (g core : Nat) (s : State) : State :=
  (s.usedOf g).foldl (fun s c => ((s.core c).collars.filter (fun e => e.2.ledgered && e.2.configured)).foldl (fun s e => reissueClaims c e.1 core s) s) s

/-- One loaded program whose used cores may change host is judged (R335, R453). `old` is the state before the muzzle, and `core` what the muzzled
core hosted: its claims are re-issued also where the program is not re-placed (R110), where R457 acts on every claim. -/
def judgeProgram (old : State) (code : Nat) (core : Option Nat) (j : Judged) (g : Nat) : Judged :=
  let s := j.st
  if (s.prog g).packs = 0 || (s.prog g).barked || !(s.usedOf g).any (fun c => old.hostOf c ≠ s.hostOf c) then j
  else if !(s.prog g).launched then { j with st := startTeardown g code s }
  else if s.replaceable g then { j with replaced := true, st := startReplace g code (old.hostTab g) s }
  else
    let r := stopProgram code g (match core with | some c => reissueOwned g c s | none => s)
    { j with stopped := true, first := j.first || r.1, st := r.2 }

/-- A muzzle-map change on the target packs of a load between the start of its check 0x0A01, when the check takes its snapshot of the map, and
its first launch ends the load with 0x0A02. Whether a check that passes its other checks has come to 0x0A01 is a free value. `old` is the
state before the change (R332, R335; log entry 44). -/
def endLoadBy (p : Nat) (old s : State) : State :=
  if s.load.state = .checking && fieldOf s.load.packs p 1 = 1 && !s.load.checkOnly && (old.pedigree s.load.image).isNone then
    let f := s.fresh
    if bitAt f.1 0 then loadFails (failAt 0x0A02 0 0 0 false 0) f.2 else f.2
  else if (s.load.state = .installing || s.load.state = .installed) && fieldOf s.load.packs p 1 = 1 && !s.load.checkOnly then
    let g := s.load.prog
    loadFails (failAt 0x0A02 0 0 0 false 0) (startTeardown g 0 s)
  else s

/-- One fault record of a vet finding: class 4 where a program stopped, else 0 (R469, R470). -/
def vetRecord (code p core : Nat) (stopped first : Bool) (s : State) : State :=
  let n := s.faults.seq.toNat
  let s := writeFaultRecord code (if stopped then 4 else 0) p core 0 s
  if first then setBarked n s else s

/-- The pack is degraded once a half-row of it has lost two cores (R461). -/
def noteDegraded (n : Nat) (s : State) : State :=
  if 2 ≤ s.muzzledIn (n / 34) (decide (17 ≤ n % 34)) then s.modVet (physPack n) (fun v => { v with degraded := true }) else s

/-- LAST_MUZZLE (R467). -/
def lastMuzzleWord (code slice outcome n : Nat) : BitVec 32 :=
  BitVec.ofNat 32 (at_ 24 code + at_ 18 slice + at_ 16 outcome + at_ 10 (n % 34) + at_ 5 (n / 34))

/-- A physical core recorded as muzzled, in flash, before anything else (R450, R472). -/
def recordMuzzle (n code slice : Nat) (s : State) : State :=
  let s := s.modPhys n (fun k => { k with muzzled := true, reason := code, slice := slice })
  let s := noteDegraded n { s with vet := { s.vet with mapSeq := s.vet.mapSeq + 1, lastTime := s.howl } }
  (s.bump 0x501B 3 1).alert 2

/-- Muzzle a physical core: the record, the load it ends, and the judgement of every loaded program (R450, R451, R453, R461, R467).
The record of the fault is written before the Barks that it causes. A program ended before its first launch counts as stopped in OUTCOME (log
entry 80). -/
def muzzleCore (n code slice : Nat) (old : State) (s : State) : State :=
  let held := s.heldBy n
  let s := recordMuzzle n code slice s
  let t := endLoadBy (physPack n) old s
  let ended := (s.load.state = .installing || s.load.state = .installed) && t.load.state ≠ s.load.state
  let s := t
  let will := s.loadedProgs.any (fun g => (s.usedOf g).any (fun c => old.hostOf c ≠ s.hostOf c) && (s.prog g).launched && !s.replaceable g)
  let seq := s.faults.seq.toNat
  let s := vetRecord code (physPack n) (held.getD 0) will false s
  let j := s.loadedProgs.foldl (judgeProgram old code held) { stopped := ended, replaced := false, first := false, st := s }
  let s := if j.first then setBarked seq j.st else j.st
  { s with vet := { s.vet with last := lastMuzzleWord code slice (if j.stopped then 2 else if j.replaced then 0 else 1) n } }

/-- Hold a pack safe: its program's job Barks, its cores and Retriever are held in reset (R449, R462). -/
def holdSafe (p code : Nat) (s : State) : State :=
  let g := s.progOf p
  let stops := match g with | some g => decide (!(s.prog g).barked) | none => false
  let s := s.modVet p (fun v => { v with held := true, reason := code })
  let seq := s.faults.seq.toNat
  let s := vetRecord code p 0 stops false s
  let s := match g with
    | some g => if stops then (let r := stopProgram code g s; if r.1 then setBarked seq r.2 else r.2) else s
    | none => s
  let s := (packCores p).foldl (fun s c => s.modCore c (fun k => { k with inReset := true })) s
  let s := s.modPack p (fun k => { k with retr := { k.retr with stopped := true } })
  if g.isNone then refreshDev (s.modPack p (fun k => { k with state := .heldSafe })) else s

/-- A finding of a slice of a unit leads to its outcome (R448). `n` is the physical core of the unit. -/
def applyFinding (p n slice : Nat) (f : Finding) (s : State) : State :=
  let old := s
  match f with
  | .pass => s
  | .marchFail row => match (s.phys n).repairRow slice row.val with
    | some k =>
      let s := match s.heldBy n with | some c => copyRow c slice row.val s | none => s
      (s.modPhys n (fun _ => k)).bump 0x501B 7 1
    | none => muzzleCore n 0xC8 slice old s
  | f => if f.holdsSafe then holdSafe p (f.code slice) s else muzzleCore n (f.code slice) slice old s

/-- A unit's slice is completed: its number, the pack's count, and the rotation of slices 0-55 (R441, R465). -/
def noteSlice (p : Nat) (a : Slice) (s : State) : State :=
  let next := (a.slice + 1) % 64
  if a.unit < 68 then
    let n := nth 0 (packPhys p) a.unit
    let s := s.modPhys n (fun k => { k with nextSlice := next, done := k.done ||| 2 ^ a.slice })
    let live := (packPhys p).filter (fun n => !(s.phys n).muzzled)
    if live.all (fun n => fieldOf (s.phys n).done 0 56 = lowMask 56) then
      (live.foldl (fun s n => s.modPhys n (fun k => { k with done := 0 })) s).modVet p (fun v => { v with rotation := s.howl })
    else s
  else s.modVet p (fun v => { v with retrSlice := next })

/-- A slice ends on a unit with a finding: the march, the count, the outcome of each row that failed by an uncorrectable word and of the finding
(R248, R436, R439, R448, R465). -/
def sliceResult (p : Nat) (a : Slice) (f : Finding) (s : State) : State :=
  let c := if a.unit < 68 then s.unitRouter p a.unit else none
  let s := endSlice p a s
  let m := marchBank p c a.slice s
  let s := noteSlice p a (m.2.bump (0x1800 + p) 0x43 1)
  let s := if f = .pass && m.1.isEmpty then s else s.bump 0x501B 2 1
  let n := nth 0 (packPhys p) a.unit
  let s := m.1.foldl (fun s r => if (s.phys n).muzzled then s else applyFinding p n a.slice (.marchFail (Fin.ofNat 96 r)) s) s
  if (!f.holdsSafe && (s.phys n).muzzled) || m.1.any (fun r => f = .marchFail (Fin.ofNat 96 r)) then s else applyFinding p n a.slice f s

/-- Whether a finding can come of a slice of a unit: a Retriever's slice finds its own failure or the supply monitor's (R435, R448). -/
def Finding.fits (f : Finding) (unit slice : Nat) : Bool :=
  match f with
  | .pass => true
  | .supply => true
  | .retriever => decide (68 ≤ unit)
  | .loopback => decide (unit < 68) && decide (56 ≤ slice)
  | .marchFail _ => decide (unit < 68)
  | .analogue _ => decide (unit < 68)
  | .lbist => decide (unit < 68)

/-- Whether a march failure lies in a row that the march of the pack covers: rows 94 and 95 only without a program (R436, R445). -/
def State.marched (s : State) (p : Nat) (f : Finding) : Bool :=
  match f with
  | .marchFail row => (s.progOf p).isNone || decide (row.val < 94)
  | .pass => true | .supply => true | .retriever => true | .loopback => true | .analogue _ => true | .lbist => true

/-- VET_SLICE_RESULT: the slice has run its beats and ends with what it found (R436, R448). -/
def execVetSliceResult (pack : PackId) (finding : Finding) (s : State) : Host.Outcome State Fault Refusal :=
  let p := pack.val
  match (s.vetPack p).active with
  | none => .next s
  | some a =>
    if s.clock < a.startedAt + sliceBeats (s.pack p).freq || !(finding.fits a.unit a.slice && s.marched p finding) then .next s
    else .next (sliceResult p a finding s)

/-- VET_SLICE_ABANDON: a clock or supply condition failed (R443). -/
def execVetSliceAbandon (pack : PackId) (s : State) : Host.Outcome State Fault Refusal := .next (abandonSlice pack.val s)

/-- Packets of a program that its routers discard: scheduled, merge and Collar packets (R456, R479). -/
def Core.dropScheduled (k : Core) : Core :=
  let keep (p : Pkt) : Bool := p.isFetch || (p.isSvc && p.hdr.ptype ≠ 0x05)
  let k := Dir.all.foldl (fun k d =>
    let i := k.input d
    k.setInput d { i with link := i.link.filter keep, sched := [], svc := i.svc.filter (fun a => keep a.pkt), stuck := false }) k
  { k with lq := k.lq.filter keep, lout := k.lout.filter keep }

/-- An output back at entry 0 of period 0, waiting for the replay (R456). -/
def Output.rewound (o : Output) : Output := if o.table.idle then o else { o with head := 0, period := 0, running := false, slipped := false }

/-- A Bowl at its snapshot pointer; a data-class Bowl is empty there, and one that has closed stays closed (R316, R454, R456). -/
def Bowl.restored (now snap : Bowl) : Bowl :=
  if bSvc now then now else { now with wp := snap.rp, wpNext := snap.rp, rp := snap.rp, rpOld := 0, rpAt := 0 }

/-- A core takes its launch snapshot back (R454, R456). -/
def Core.restore (k : Core) (x : Snapshot) : Core :=
  { k with
    streams := x.streams
    collars := k.collars.map (fun e => if e.2.ledgered then e else
      (let y := tabGet Collar.none x.collars e.1
       (e.1, { e.2 with value := y.value, ovf := y.ovf })))
    bowls := k.bowls.map (fun e => (e.1, e.2.restored (tabGet Bowl.none x.bowls e.1)))
    dc := x.dc, checked := x.checked }

/-- A core at order 3: its operations of the step are gone, its tables rewound; replies of the current generation still arrive (R379,
R456). -/
def Core.clearStep (k : Core) : Core :=
  ({ k.dropScheduled with ops := [], mesh := [], deferred := [], postedReady := false }).mapOutputs Output.rewound

/-- The snapshot of a core. -/
def State.snapOf (s : State) (c : Nat) : Snapshot := tabGet .none s.vet.snaps c

/-- The phase of a program's re-placement set. -/
def setPhase (g : Nat) (ph : ReplacePhase) (s : State) : State :=
  { s with vet := { s.vet with repl := s.vet.repl.map (fun x => if x.prog = g then { x with phase := ph } else x) } }

/-- The re-placement of a program has come to its replay: its cores may post step-ready again. -/
def replaceReady (g : Nat) (s : State) : State :=
  let s := setPhase g .ready s
  ({ s with vet := { s.vet with repl := s.vet.repl.map (fun x => if x.prog = g then { x with moved := [] } else x) } } : State).modProg g
    (fun x => { x with held := false })

/-- Beats of the drain window (R456, R479). -/
def drainBeats : Nat := 41250

/-- A Retriever at order 3: the logits, commands and samples of the step being replayed are gone, those of earlier steps stay (R353, R456). -/
def Retriever.clearStep (r : Retriever) (seq : Nat) : Retriever :=
  { r with
    pairs := r.pairs.filter (fun x => x.seq ≠ seq)
    acted := r.acted.map (fun e => (e.1, e.2.filter (fun q => q ≠ seq)))
    finished := r.finished.map (fun e => (e.1, e.2.filter (fun q => q ≠ seq)))
    sampling := match r.sampling with | some x => if x.seq = seq then none else some x | none => none
    ready := r.ready.filter (fun x => x.seq ≠ seq) }

/-- REPLACEMENT_DRAIN_END: order 3 on the re-placement of a pack's program; the shift follows where a core changes host (R456). -/
def execReplacementDrainEnd (pack : PackId) (s : State) : Host.Outcome State Fault Refusal :=
  match s.replAt pack.val with
  | none => .next s
  | some r =>
    if r.phase ≠ .drain || (s.prog r.prog).barked || !howlGe s.howl (r.failAt + BitVec.ofNat 64 drainBeats) then .next s
    else
      let moved := s.shiftedOf r
      let s := ((s.progPacks r.prog).flatMap packCores).foldl (fun s c => s.modCore c Core.clearStep) s
      let s := ((s.usedOf r.prog).filter (fun c => !moved.contains c)).foldl (fun s c => s.modCore c (fun k => k.restore (s.snapOf c))) s
      let s := (s.progPacks r.prog).foldl (fun s p => s.modPack p (fun k => { k with
        posted := false, goAt := none, retr := k.retr.clearStep (bitsOf r.step 0 16) })) s
      .next (if moved.isEmpty then replaceReady r.prog s else setPhase r.prog .shift s)

/-- The logical core a physical core held under the hosts of a re-placement. -/
def Replace.tenant (r : Replace) (host : Nat) : Option Nat := (r.old.find? (fun e => e.2 = host + 1)).map (fun e => e.1)

/-- The ledger bytes a core homes (R104). -/
def Core.ledgerSpans (k : Core) : List (Nat × Nat) :=
  (k.collars.filter (fun e => e.2.ledgered && e.2.configured)).map (fun e => (ledgerBase e.2.ledger, ledgerBytes e.2.ledger))

/-- The ledgers a shifted core homes, read on the old host with correction, and whether all could be read (R246-R248, R456, R460; log entry
78). -/
def readLedgers (c : Nat) (s : State) : List (Nat × List Byte) × Bool × State :=
  ((s.core c).ledgerSpans).foldl (fun (a : List (Nat × List Byte) × Bool × State) r =>
    let x := readWords c 9 r.1 r.2 a.2.2
    (a.1 ++ [(r.1, x.2)], a.2.1 && x.1.badWords.isEmpty, x.1.st)) ([], true, s)

/-- A shifted core on its new host: the scratchpad and accumulators there are those of the host's former tenant, its snapshot
and its own ledgers come along, and Collars keep their ledgered values (R456, R457). -/
def State.movedCore (s : State) (r : Replace) (ledgers : List (Nat × List Byte)) (c : Nat) : Core :=
  let k := s.core c
  let t : Core := match s.hostOf c with
    | some h => (match r.tenant h with | some x => s.core x | none => Core.reset)
    | none => Core.reset
  let k' := ledgers.foldl (fun (x : Core) l => x.store_ l.1 l.2)
    { k with spad := t.spad, spadErr := t.spadErr, acc := t.acc, accClass := t.accClass, rewriteQ := [] }
  { k'.restore (s.snapOf c) with fence := k.fence }

/-- A re-placement is abandoned and its program stops (R453, R460). -/
def abandonReplace (r : Replace) (p : Nat) (s : State) : State :=
  if (s.prog r.prog).barked then s
  else
    let seq := s.faults.seq.toNat
    let x := stopProgram r.code r.prog (vetRecord r.code p 0 true false s)
    if x.1 then setBarked seq x.2 else x.2

/-- The copy of every shifted core: each with what its ledgers hold, and whether all ledgers could be read (R456, R460). -/
def readMoved (moved : List Nat) (s : State) : List (Nat × List (Nat × List Byte)) × Bool × State :=
  moved.foldl (fun (a : List (Nat × List (Nat × List Byte)) × Bool × State) c =>
    let x := readLedgers c a.2.2
    (a.1 ++ [(c, x.1)], a.2.1 && x.2.1, x.2.2)) ([], true, s)

/-- REPLACEMENT_SHIFT_DONE: the multiplexers are set and snapshots and ledgers copied. `ok` is whether every snapshot of a shifted core could
be read; where one, or a ledger, could not, the program stops (R452, R456, R460). -/
def execReplacementShiftDone (pack : PackId) (ok : Bool) (s : State) : Host.Outcome State Fault Refusal :=
  match s.replAt pack.val with
  | none => .next s
  | some r =>
    if r.phase ≠ .shift || (s.prog r.prog).barked then .next s
    else if !ok then .next (abandonReplace r pack.val s)
    else
      let moved := s.shiftedOf r
      let rd := readMoved moved s
      let s := rd.2.2
      if !rd.2.1 then .next (abandonReplace r pack.val s) else
      let s' := rd.1.foldl (fun t e => t.setCore e.1 (s.movedCore r e.2 e.1)) s
      let r' : Replace := { r with old := s.hostTab r.prog, phase := .reload, moved := (r.moved ++ moved).eraseDups }
      .next { s' with vet := { s'.vet with repl := s'.vet.repl.map (fun x => if x.prog = r.prog then r' else x) } }

/-- What the reload installs in a shifted core: instruction store, routes, tables, configurations and weights of the load image; the
launch snapshot's streams and values stay (R320, R366, R456). -/
def reloadCore (x : CoreImg) (weights : List Byte) (k : Core) : Core :=
  let k := (k.zeroise 0 x.fence).store_ 0 weights
  let k : Core := { k with fence := x.fence, store := tabOfList 0 x.instr, storeErr := [], routes := tabOfList 0 x.routes }
  Dir.all.foldl (fun k d => k.setOutput d { k.output d with table := x.table d }) k

/-- REPLACEMENT_RELOAD_DONE: the shifted cores hold their program again, written while their routers are drained; every participant may post
for the replay (R250, R283, R456). -/
def execReplacementReloadDone (pack : PackId) (s : State) : Host.Outcome State Fault Refusal :=
  match s.replAt pack.val with
  | none => .next s
  | some r =>
    if r.phase ≠ .reload || (s.prog r.prog).barked || !r.moved.all (fun c => (s.core c).routerEmpty) then .next s
    else
      let m := s.image (s.prog r.prog).imageAddr r.prog
      let s := (m.cores.filter (fun x => r.moved.contains x.core)).foldl (fun s x =>
        let w := readWeights m.hdr.base x s
        w.2.modCore x.core (reloadCore x w.1)) s
      .next (replaceReady r.prog s)

/-- The key of a REWIND in the set of first copies, apart from every SUSPECT key (R417, R459). -/
def rewindKey (origin : Nat) (step : Word) : Nat := (2 ^ 40 + origin) * 2 ^ 64 + step.toNat

/-- REWIND on a port: the first copy is re-sent, and the device's part of the job carries out order 1 for the step (R417, R459). -/
def execRewind (port : PortId) (s : State) : Host.Outcome State Fault Refusal :=
  match takeCtrl port.val 9 s with
  | some (h, .rewind origin step, _, s) =>
    if s.job.state ≠ .running || h.epoch ≠ s.job.epoch || origin = s.device then .next s
    else
      let gs := s.multiProgs.filter (fun g => s.stepOf g = step && (s.prog g).launched && (s.replOf g).isNone)
      let key := rewindKey origin step
      if gs.isEmpty && (!s.multiProgs.isEmpty || tabGet false s.job.flooded key) then .next s
      else
        let s := floodCtrl (some port.val) (.rewind origin step) { s with job := { s.job with flooded := tabSet false s.job.flooded key true } }
        .next (gs.foldl (fun s g => replaceHold g 0 step (s.hostTab g) s) s)
  | _ => .next s

/-- MAINT_STATE set. -/
def setMaint (v : Nat) (s : State) : State := { s with vet := { s.vet with maintState := v } }

/-- Packs a maintenance action concerns: those of cores with soft repairs, of muzzled cores, or held safe (R463, R464). -/
def State.maintPacks (s : State) (action : Nat) : List Nat :=
  (List.range 16).filter (fun p =>
    if action = 1 then (packPhys p).any (fun n => (s.phys n).repair.any (fun e => repValid e.2 && !repFused e.2))
    else if action = 2 then (packPhys p).any (fun n => (s.phys n).muzzled)
    else (s.vetPack p).held)

/-- Whether a maintenance action is refused as busy: an action runs, a pack it concerns has a program, or a load is checking or
installing (R464). -/
def State.maintBusy (s : State) (action : Nat) : Bool :=
  s.vet.maintState = 1 || s.load.state = .checking || s.load.state = .installing
  || (s.maintPacks action).any (fun p => (s.pack p).prog.isSome || (s.pack p).teardown.isSome)

/-- FP32 code of 40 V. -/
def f40V : BitVec 32 := 0x42200000

/-- Whether an FP32 code is below another, as numbers. -/
def f32Lt (a b : BitVec 32) : Bool := numLt (decodeNum .fp32 a.toNat) (decodeNum .fp32 b.toNat)

/-- MAINT_COMMAND 1, 2 or 3 (R463, R464). -/
def maintCommand (action : Nat) (s : State) : Nat × State :=
  if s.maintBusy action then (stBusy, if s.vet.maintState = 1 then s else setMaint 3 s)
  else if action = 1 && (f32Lt s.env.now.vin f40V || !s.env.holdupOk) then (stState, setMaint 3 s)
  else (stDone, { s with vet := { s.vet with maintState := 1, maintAction := action } })

/-- FUSE_REPAIRS: MAINT_COMMAND 1 (R463). -/
def execFuseRepairs (s : State) : Host.Outcome State Fault Refusal := .next (s.command (maintCommand 1))
/-- RETEST_MUZZLED: MAINT_COMMAND 2 (R463). -/
def execRetestMuzzled (s : State) : Host.Outcome State Fault Refusal := .next (s.command (maintCommand 2))
/-- RETEST_SAFE_PACKS: MAINT_COMMAND 3 (R463). -/
def execRetestSafePacks (s : State) : Host.Outcome State Fault Refusal := .next (s.command (maintCommand 3))

/-- Every valid soft entry of a core fused (R258, R463). -/
def PhysCore.fuse (k : PhysCore) : PhysCore :=
  { k with repair := k.repair.map (fun e => if repValid e.2 then (e.1, e.2 ||| 0x4000) else e) }

/-- A muzzle cleared by a retest; the pack is degraded after it only for another half-row (R461, R463). -/
def clearMuzzle (s : State) (n : Nat) : State :=
  let s := s.modPhys n (fun k => { k with muzzled := false, reason := 0, slice := 0 })
  let p := physPack n
  let other := (List.range 4).any (fun j => 4 * (p % 8) + j ≠ n / 34 && decide (2 ≤ s.muzzledIn (4 * (p % 8) + j) (decide (8 ≤ p))))
  s.modVet p (fun v => { v with degraded := v.degraded && other })

/-- A held-safe pack released by a retest (R462, R463). -/
def releasePack (s : State) (p : Nat) : State :=
  let s := (packCores p).foldl (fun s c => s.modCore c (fun k => { k with inReset := false })) s
  (s.modVet p (fun v => { v with held := false, reason := 0 })).modPack p (fun k => { k with
    state := .empty, retr := { Retriever.reset with tagGen := k.retr.tagGen, tableErr := k.retr.tableErr } })

/-- MAINT_DONE: the action ends. `ok` is whether it could be carried out, `passed` the cores or packs whose every test passed: physical
cores 34·pr + pc for action 2, packs for action 3 (R450, R463-R465). -/
def execMaintDone (ok : Bool) (passed : List (Fin 1088)) (s : State) : Host.Outcome State Fault Refusal :=
  if s.vet.maintState ≠ 1 then .next s
  else if !ok then .next (setMaint 4 s)
  else
    let s := setMaint 2 s
    let done (n : Nat) (s : State) : State := { s with vet := { s.vet with maintCleared := n } }
    match s.vet.maintAction with
    | 1 => .next { s with vet := { s.vet with phys := s.vet.phys.map (fun e => (e.1, e.2.fuse)) } }
    | 2 =>
      let l := (List.range 1088).filter (fun n => (s.phys n).muzzled && (s.phys n).reason ≠ 0xC8 && (passed.map Fin.val).contains n)
      let s := done l.length (l.foldl clearMuzzle s)
      if l.isEmpty then .next s
      else .next (({ s with vet := { s.vet with mapSeq := s.vet.mapSeq + 1 } } : State).alert 2)
    | _ =>
      let l := (List.range 16).filter (fun p => (s.vetPack p).held && (passed.map Fin.val).contains p)
      .next (done l.length (l.foldl releasePack s))

end Sys2Proof.Machine
end

