-- ==== Sys2Proof/Machine/Resets.lean ====
section
/-! DEFINITION. What resets share: commanded stops, engine resets, the Sniff dump, pack resets, teardown, warm and cold reset, the entry
to Safe, rails off (R112, R243, R371, R477-R492, R531, R611, R613). -/
namespace Sys2Proof.Machine

/-- LAST_RESET (R495). -/
def setLastReset (rung : Nat) (esc : Bool) (cause target : Nat) (s : State) : State :=
  { s with faults := { s.faults with
      lastReset := BitVec.ofNat 32 (at_ 29 rung + at_ 28 (bit01 esc) + at_ 16 (cause % 256) + target % 1024) } }

/-- A commanded stop of the job of the packs' programs: for each job named, the record 0xDA and the Bark (R469, R477). -/
def commandStop (packs : List Nat) (s : State) : State :=
  [true, false].foldl (fun s j =>
    match packs.find? (fun p => match s.progOf p with | some g => (s.prog g).ofJob == j | none => false) with
    | none => s
    | some p =>
      let n := s.faults.seq.toNat
      let first := s.barkIsFirst j
      let s := originateBark j 0xDA (writeFaultRecord 0xDA 4 p 0 0 s)
      if first then setBarked n s else s) s

/-- Every job on the device Barks with a reason: the formed job, and the local job where it has a program (R406, R487, R611).
`record` writes the record of the command. -/
def barkAll (reason : Nat) (record : Bool) (s : State) : State :=
  [true, false].foldl (fun s j =>
    if (if j then s.inJob else !(s.jobProgs false).isEmpty) then
      let n := s.faults.seq.toNat
      let first := s.barkIsFirst j
      let s := if record then writeFaultRecord reason 4 0 0 0 s else s
      let s := originateBark j reason s
      if first && record then setBarked n s else s
    else s) s

/-- Engine codes of a core's reset records. -/
def Engine.code : Engine → Nat
  | .matrix => 0 | .vector => 1 | .drain => 2 | .fetch => 3

/-- Whether an engine holds an instruction in flight: its own, or for the drain engine a matrix instruction's undrained problem (R112, R161). -/
def Engine.holds (e : Engine) (o : EngOp) : Bool :=
  o.engine = e || (e = .drain && o.engine = .matrix && !o.chain.isEmpty && decide (o.drained < o.computed))

/-- An engine that is not idle. -/
def Core.engineBusy (k : Core) (e : Engine) : Bool := k.ops.any e.holds

/-- The engines in the order of their codes. -/
def Engine.all : List Engine := [.matrix, .vector, .drain, .fetch]

/-- Whether an abandoned instruction stands before a deferred POST or COMPLETE in its stream: that operation then never takes effect
(R82, R112). -/
def DeferredOp.cutOff (held : List EngOp) (d : DeferredOp) : Bool := held.any (fun o => o.stream = d.stream && decide (o.seq < d.seq))

/-- Orders 1-5 of an engine reset: its instructions are abandoned and their ranges freed, each of their streams faults with 0x08 at its oldest
abandoned instruction, also one already Faulted (log entry 79), write ranges and the accumulators of a matrix engine hold unspecified
contents, a POST or COMPLETE behind an abandoned instruction is dropped, and a fetch engine's tags change generation (R82, R112, R113). -/
def startEngineReset (c : Nat) (e : Engine) (cause record : Nat) (s : State) : State :=
  let k := s.core c
  let held := k.ops.filter e.holds
  let s := s.modCore c (fun k => { k with
    ops := k.ops.filter (fun o => !e.holds o)
    deferred := k.deferred.filter (fun d => !d.cutOff held)
    reqs := if e = .fetch then k.bumpRequests.reqs else k.reqs
    tagGen := if e = .fetch then k.bumpRequests.tagGen else k.tagGen
    engReset := tabSet false k.engReset e.code true
    engAt := tabSet 0 k.engAt e.code s.clock
    rstCause := cause, rstRecord := record })
  let s := held.foldl (fun s o => (o.ranges.filter (fun r => r.write)).foldl (fun s r => scrambleRange c r.base r.len s) s) s
  let s := if e = .matrix then scrambleAcc c s else s
  let s := (List.range 8).foldl (fun s i =>
    match held.find? (fun o => o.stream = i) with
    | some o => streamFaultAt c i o.pc 0x08 s
    | none => s) s
  raiseRung record 1 s

/-- The state word of a Collar (R96). -/
def Collar.word (x : Collar) : Nat :=
  at_ 42 (bit01 x.configured) + at_ 41 (bit01 x.ledgered) + at_ 40 (bit01 x.ovf) + at_ 32 x.gen.toNat + x.value.toNat

/-- Whether the reader of a Bowl is parked on it (R317). -/
def Core.bowlParked (k : Core) (b : Nat) : Bool := k.streams.any (fun e => e.2.st = .parkedBowl && e.2.waitBowl = b)

/-- The status word of a Bowl (R317). -/
def Core.bowlWord (k : Core) (b : Nat) : Nat :=
  let x := k.bowl b
  at_ 63 (bit01 x.isOpen) + at_ 62 (bit01 (bSvc x)) + at_ 58 (bitsOf x.cfg 20 4) + at_ 55 (bReader x) + at_ 54 (bit01 (k.bowlParked b))
  + at_ 32 (x.wp - x.rp).toNat + at_ 16 x.wp.toNat + x.rp.toNat

/-- SNIFF_WINDOW of a core (R494). -/
def State.sniffWindow (s : State) (c : Nat) : Nat := s.setting (0x1000 + c) 0x90 0x168000

/-- The 256 bytes of a stream in a core slot (R491). -/
def Stream.slotBytes (t : Stream) : List Byte :=
  fitTo 0 256 (leBytes 2 t.pc.toNat ++ leBytes 1 t.st.code ++ [0] ++ leBytes 4 t.fault.toNat
    ++ (List.range 4).flatMap (fun i => leBytes 4 (tabGet 0 t.lc i).toNat)
    ++ [0, 0, 0, 0, 0, 0, 0, 0]
    ++ (List.range 16).flatMap (fun i => leBytes 8 (t.reg i).toNat))

/-- A core slot: what the dump reads of a core through its service window, and what the reads do (R248, R491). -/
def slotOf (c : Nat) (s : State) : List Byte × State :=
  let k := s.core c
  let regs := (List.range 8).flatMap (fun i => (k.stream i).slotBytes)
  let cols := (List.range 16).flatMap (fun i => leBytes 8 (k.collar i).word ++ leBytes 8 (k.collar i).ledger.toNat)
  let stat := (List.range 64).flatMap (fun b => leBytes 8 (k.bowlWord b))
  let cfgs := (List.range 64).flatMap (fun b => leBytes 16 (k.bowl b).cfg.toNat)
  let acc := (List.range 64).foldl (fun (a : List Byte × Nat × State) b =>
    let x := k.bowl b
    if bConf x then
      let r := readWords c 7 (bBase x) (min 0x1000 (40 * bDepth x)) a.2.2
      (a.1 ++ fitTo 0 0x1000 r.2, a.2.1 + r.1.badWords.length, r.1.st)
    else (a.1 ++ List.replicate 0x1000 0, a.2)) ([], 0, s)
  let win := readWords c 7 (s.sniffWindow c) 0x10000 acc.2.2
  let misc := leBytes 4 (s.sniffWindow c) ++ leBytes 4 k.fence ++ leBytes 4 k.lastStreamFault.toNat
    ++ leBytes 4 (acc.2.1 + win.1.badWords.length) ++ leBytes 8 k.lastEcc.toNat
  (fitTo 0 0x800 regs ++ fitTo 0 0x100 cols ++ stat ++ cfgs ++ fitTo 0 0x100 misc ++ acc.1 ++ win.2, win.1.st)

/-- Address of a core slot (R490). -/
def slotAddr (c : Nat) : Nat := sniffBase + 0x100000 + c * 0x51000

/-- Write the slots of cores (R490, R491). -/
def writeSlots (cores : List Nat) (s : State) : State :=
  cores.foldl (fun s c => let r := slotOf c s; dumpWrite (slotAddr c) r.1 r.2) s

/-- CORES of a pack record (R492). -/
def coresMask (p : Nat) (written : List Nat) : Nat :=
  ((packCores p).mapIdx (fun i c => if written.contains c then 2 ^ i else 0)).foldl (· + ·) 0

/-- A pack record (R492). -/
def writePackRecord (d : Dump) (st : Nat) (written : List Nat) (p : Nat) (s : State) : State :=
  dumpWrite (sniffBase + 64 * p)
    (leBytes 4 d.seq.toNat ++ leBytes 1 st ++ leBytes 1 d.reason ++ [0, 0] ++ leBytes 8 d.howl.toNat ++ leBytes 8 (coresMask p written)) s

/-- The logical cores a dump covers: those of its packs that have a host (R491). -/
def Dump.cores (d : Dump) (s : State) : List Nat := ((packsIn d.packs).flatMap packCores).filter (fun c => (s.hostOf c).isSome)

/-- Start a Sniff dump of packs; skipped while stack N0 is not Serving (R489). Answers whether it runs. -/
def takeDump (packs : Nat) (device : Bool) (reason : Nat) (s : State) : Bool × State :=
  if (s.stack 0).state ≠ .serving then
    (false, if s.faults.dumps.isEmpty then { s with faults := { s.faults with sniffState := 4 } } else s)
  else
    let seq := s.faults.sniffSeq + 1
    let d : Dump := { packs := packs, device := device, seq := seq, startedAt := s.clock, howl := s.howl, reason := reason }
    (true, { s with faults := { s.faults with sniffState := 1, sniffSeq := seq, dumps := s.faults.dumps ++ [d] } })

/-- A pack reset begins: every unit of the pack is held in reset (R486). -/
def startPackReset (p cause record : Nat) (esc : Bool) (s : State) : State :=
  let s := abandonSlice p s
  let s := (packCores p).foldl (fun s c => s.modCore c (fun k => { k with inReset := true })) s
  let s := s.modPack p (fun k => { k with
    state := .inReset, resetStarted := some s.clock, resetCause := cause, resetRecord := record, resetEscalated := esc })
  refreshDev (raiseRung record 3 s)

/-- A pack is reset for a fault: at order 6 of its teardown where it has one, else now (R468, R476, R486). -/
def orderReset (cause record p : Nat) (s : State) : State :=
  match (s.pack p).teardown with
  | some t => if t.reset then s else markReset cause record p s
  | none => if (s.pack p).resetStarted.isSome then s else startPackReset p cause record false s

/-- A context is no longer of any image (R338). -/
def dropCtxs (l : List Nat) (s : State) : State := { s with ctxs := s.ctxs.filter (fun e => !l.contains e.1) }

/-- The last pack of a program is torn down: the program leaves the device (R478, R494). -/
def endProgram (g : Nat) (s : State) : State :=
  if (List.range 16).any (fun p => (s.pack p).prog = some g) then s
  else
    let s := dropCtxs (s.prog g).ctxList s
    (s.setProg g .none).bump 0x501C 6 1

/-- Teardown of a pack is complete when orders 5, 6 and 7 have all ended (R478). -/
def finishTeardown (p : Nat) (s : State) : State :=
  match (s.pack p).teardown with
  | none => s
  | some t =>
    if !t.drained || t.dumpOpen || t.zeroScratchOpen || t.zeroHbmOpen || t.resetOpen || t.quarantineOpen then s
    else
      let s := (packCores p).foldl (fun s c => if (s.core c).streams.isEmpty then s else s.modCore c (fun k => { k with streams := [] })) s
      let s := s.modPack p (fun k => { Pack.reset with
        state := if (s.vetPack p).held then .heldSafe else .empty
        freq := k.freq, throttle := k.throttle, relockEnd := k.relockEnd, retr := { Retriever.reset with tagGen := k.retr.tagGen, tableErr := k.retr.tableErr } })
      refreshDev (endProgram t.prog s)

/-- Change the teardown record of a pack. -/
def modTeardown (p : Nat) (f : Teardown → Teardown) (s : State) : State :=
  s.modPack p (fun k => { k with teardown := k.teardown.map f })

/-- The scratchpad part of zeroise on one used core (R480). -/
def Core.zeroiseProg (k : Core) : Core :=
  { (k.zeroise 0 saveBase) with
    fence := 0
    collars := k.collars.map (fun e => (e.1, { e.2 with value := 0, ovf := false, ledgered := false, ledger := 0, configured := false }))
    bowls := [], routes := [], routeSent := [], claimRes := [], dc := [] }

/-- A region that a context names by an address, in every stack of its window (R369). -/
def State.regionIn (s : State) (g : Option Nat) (a n : Nat) : List Nat :=
  match g with
  | none => [a]
  | some g => match (s.prog g).windows.find? (fun w => inWindow [w] a n false) with
    | none => [a]
    | some w => ((List.range 8).filter (fun i => fieldOf w.hbmStacks i 1 == 1)).map (fun i => at_ 37 i + offsetOf a)

/-- Zeroise of a context: its key/value region and its state block, in HBM, in every stack of their windows (R369, R480). -/
def zeroCtx (s : State) (n : Nat) : State :=
  let x := s.ctx n
  let s := (s.regionIn x.owner x.kvBase x.kvLen).foldl (fun s a => zeroiseHbm a x.kvLen s) s
  (s.regionIn x.owner x.stateAddr 64).foldl (fun s a => zeroiseHbm a 64 s) s

/-- The pack's units come out of reset (R486, R484): the state they restart from. Request tags change generation (R481). -/
def Core.released (k : Core) (held : Bool) : Core :=
  { Core.reset with tagGen := bumpTags 64 k.tagGen, howlSkew := k.howlSkew, inReset := held }

/-- Open transfers end at a reset, except KIND 2; the final status notified is open (R531, R533; log entry 3). -/
def endTransfers (s : State) : State :=
  (List.range 4).foldl (fun s t =>
    let x := tabGet Transfer.free s.mgmt.slots t
    if x.id = 0 || x.kind = 2 then s
    else
      let f := s.fresh
      let s := { f.2 with mgmt := { f.2.mgmt with slots := tabErase f.2.mgmt.slots t } }
      notify 3 (leBytes 2 x.id ++ leBytes 1 (f.1.toNat % 256)) s) s

/-- New open-phase keys (R243). -/
def drawKeys (s : State) : State := { s with nonce := s.nonce + 1088, power := { s.power with keyDraw := s.nonce } }

/-- A program slot's contexts are Closed as a device reset tears the program down (R477, R480). -/
def dropProgram (s : State) (g : Nat) : State :=
  if (s.prog g).packs = 0 then s
  else (((s.prog g).ctxList.foldl zeroCtx s).setProg g .none).bump 0x501C 6 1

/-- Every pack after a reset of every unit: held safe where a vet finding holds it (R462, R484). -/
def resetPacks (s : State) : State :=
  { s with
    packs := (List.range 16).foldl (fun t p =>
      let k := s.pack p
      tabSet Pack.reset t p { Pack.reset with freq := s.ownStep p, throttle := k.throttle, state := if (s.vetPack p).held then .heldSafe else .empty }) []
    cores := (List.range 16).foldl (fun t p =>
      if (s.vetPack p).held then (packCores p).foldl (fun t c => tabSet Core.reset t c { Core.reset with inReset := true }) t else t) [] }

/-- The update flow when a per-pack commit is cut: the image stays staged with 0x14 (R578, R614). -/
def Upd.interrupted (u : Upd) : Upd :=
  if u.moving.isSome then { u with state := 4, result := 0x14, moving := none, todo := [] } else u

/-- What every reset of the die clears besides the packs (R484, R487). -/
def resetUnits (s : State) : State :=
  let s := { s with
    progs := [], ctxs := [], heldRing := []
    upd := s.upd.interrupted
    load := { s.load with state := .idle }
    gen := { s.gen with running := false, hostFed := false }
    ring := Ring.empty
    job := { s.job with state := .none, slew := 0, joins := [], readys := [], readySent := false, neighbours := [], reports := [], flooded := [],
                        purgeFrom := none }
    mirror := { s.mirror with state := if s.mirror.state = 1 then 3 else s.mirror.state, inOpen := false }
    host := { s.host with sends := [] }
    vet := { s.vet with
      packs := s.vet.packs.map (fun e => (e.1, { e.2 with active := none }))
      snaps := [], repl := [], kept := [] }
    faults := { s.faults with dumps := [], sniffState := if s.faults.sniffState = 1 then 3 else s.faults.sniffState } }
  resetPacks s

/-- Fabric ports after a reset: those enabled train, the others are disabled (R433, R487). -/
def trainPorts (s : State) : State :=
  { s with ports := (List.range 18).foldl (fun t f =>
      tabSet Port.reset t f { Port.reset with state := if s.setting (0x2400 + f) 2 1 = 1 then .training else .disabled }) [] }

/-- Orders 2 and 3 of warm recovery: every unit is reset, HBM is held in self-refresh, stacks and ports train (R243, R487). -/
def warmUnits (s : State) : State :=
  let cause := if s.faults.recovery = 1 && bitAt s.faults.lastReset 28 then 0xD7 else 0xDA
  let s := (List.range 16).foldl dropProgram s
  let s := drawKeys (trainPorts (resetUnits s))
  let s := { s with hbmStacks := (List.range 8).foldl (fun t i =>
      let k := tabGet Stack.reset s.hbmStacks i
      tabSet Stack.reset t i { k with state := .training, waiting := [], accepted := [], activations := [], turn := 0 }) [] }
  (setLastReset 4 (cause = 0xD7) cause 0 s).bump 0x501C 3 1

/-- A device warm reset begins: the jobs Bark, and the device dump is taken before the units are reset (R487, R489). -/
def startWarm (cause record : Nat) (esc : Bool) (s : State) : State :=
  let s := raiseRung record 4 (endTransfers (barkAll cause (cause = 0xDA) s))
  let s := { s with
    power := { s.power with dev := .service, starting := some .warm, step := 4, doing := 5, stalled := false, ready := false }
    faults := { s.faults with recovery := 1, recoveryAt := s.clock, recoveryRecord := record } }
  let s := setLastReset 4 esc cause 0 s
  if s.setting 0x3070 1 1 = 1 then
    let r := takeDump 0xFFFF true cause s
    if r.1 then r.2 else warmUnits r.2
  else warmUnits s

/-- The core, HBM and fabric rails go off: the die and HBM lose everything (R602, R611, R613). -/
def railsOff (s : State) : State :=
  let s := resetUnits s
  { s with
    hbm := [], hbmKey := 0, hbmStacks := [], ports := [], cores := []
    power := { s.power with rails := false, railsDue := false } }

/-- Whether a settings key is an RW object, which a cold reset or power-off returns to its default (R17): LOAD_IMAGE_ADDR, SNIFF_WINDOW,
VALVE_MANUAL, the Sniff port's objects, and the RWL objects, whose persistence the spec does not give (log entry 32). -/
def rwKey (key : Nat) : Bool :=
  let idx := key / 256
  let sub := key % 256
  (idx = 0x0210 && sub = 1) || (decide (0x1000 ≤ idx) && decide (idx < 0x1400) && sub = 0x90) || (idx = 0x0402 && sub = 7)
  || idx = 0x7000 || idx = 0x7001 || idx = 0x4000 || idx = 0x4001 || idx = 0x0800 || idx = 0x0A10 || (idx = 0x0250 && sub = 7)

/-- RW objects at their defaults (R17, R488). -/
def dropRw (s : State) : State :=
  { s with
    settings := s.settings.filter (fun e => !rwKey e.1)
    gen := .reset
    job := { s.job with coord := 0, extent := 0 }
    mirror := { s.mirror with partner := 0, acceptFrom := 0, acceptBase := 0, acceptLen := 0, src := [], dst := [] } }

/-- Statistics and saturation at their defaults (R493). -/
def clearStats (s : State) : State := { s with stats := [], statsSat := false, statsFirst := 0 }

/-- STATS_CLEAR: every statistics counter of the device is 0, TOKENS_OUT of the loaded contexts with them (R339, R493). -/
def clearCounters (s : State) : State :=
  clearStats (s.ctxs.foldl (fun s e => if e.2.owner.isSome then portWrite (e.2.stateAddr + 16) (leBytes 8 0) s else s) s)

/-- A device cold reset begins: the die and HBM are lost, statistics and RW objects return to their defaults, and start-up runs from
the loading of calibration (R488). -/
def startCold (cause record : Nat) (esc : Bool) (s : State) : State :=
  let s := raiseRung record 5 (endTransfers s)
  let n := s.stat 0x501C 4
  let s := dropRw (clearStats (railsOff s))
  let s := { s with
    progress := []
    vet := { s.vet with packs := s.vet.packs.map (fun e => (e.1, { e.2 with held := false, reason := 0 })) }
    power := { s.power with dev := .service, starting := some .cold, step := 1, doing := 2, stalled := false, ready := false }
    faults := { s.faults with recovery := 2, recoveryAt := s.clock, recoveryRecord := record } }
  (setLastReset 5 esc cause 0 (resetPacks s)).bump 0x501C 4 (n + 1)

/-- DEVICE_RESET 1 and 2 (R494, R604, R614): a start-up or recovery in progress is busy; Safe, and for a warm reset Service at rest,
forbid it. -/
def deviceReset (v : Nat) (s : State) : Nat × State :=
  if s.power.dev = .safe || s.power.dev = .off then (stState, s)
  else if s.power.starting.isSome then (stBusy, s)
  else if v = 1 then (if s.power.dev = .service then (stState, s) else (stDone, startWarm 0xDA noRecord false s))
  else (stDone, startCold 0xDA noRecord false s)

/-- Entry to Safe, orders 1-3 and the valve, and for a falling VIN the rails at once (R611, R614). -/
def enterSafe (cause : Nat) (s : State) : State :=
  let s := { s with power := { s.power with
    dev := .safe, starting := none, ready := false, safeCause := cause, safeAt := s.clock, railsDue := s.power.rails
    valveHold := true } }
  let s := if cause ≤ 4 then s.alert 15 else s
  let s := barkAll 0xDA true s
  let s := (List.range 16).foldl (fun s p => if (s.pack p).prog.isSome then stopPack p s else s) s
  let s := { s with
    env := { s.env with valve := 0x42C80000 }
    upd := s.upd.interrupted
    faults := { s.faults with recovery := if s.faults.recovery = 0 then 0 else 3 } }
  if cause = 3 then railsOff s else s

end Sys2Proof.Machine
end

