-- ==== Sys2Proof/Machine/Watchdogs.lean ====
section
/-! DEFINITION. Watchdogs, the ladder's steps, teardown's steps, Sniff dumps, commanded resets and counters
(STREAM_HANG … SNIFF_COMMAND, ENGINE_RESET_DONE, CORE_RESET_DONE; R112, R114, R468-R494). -/
namespace Sys2Proof.Machine

/-- Whether the watchdogs watch a pack: enabled, and its program neither stopped nor in re-placement (R456, R470, R494). -/
def State.watched (s : State) (p : Nat) : Bool :=
  s.setting 0x3050 5 1 = 1 && (s.replAt p).isNone && !s.isStopping p && (s.progOf p).isSome

/-- A watchdog window in beats (R475, R494). -/
def State.window (s : State) (sub : Nat) : Nat := s.setting 0x3050 sub 1048576

/-- A pack has launched a step it has not finished (R474). -/
def State.stepOpen (s : State) (p : Nat) : Bool := (s.pack p).inStep && !s.packFinished p

/-- A hang's record, Bark and count (R476, R494). -/
def hang (code : Nat) (packs : List Nat) (core stream : Nat) (s : State) : State := reportFault code packs core stream (s.bump 0x501C 1 1)

/-- STREAM_HANG: a parked stream has made no progress for a window (R474-R476). -/
def execStreamHang (core : CoreId) (stream : StreamId) (s : State) : Host.Outcome State Fault Refusal :=
  let c := core.val
  let t := (s.core c).stream stream.val
  let p := packOf c
  if s.watched p && s.stepOpen p && (t.st = .parkedCollar || t.st = .parkedBowl || t.st = .parkedClaim) && decide (max t.lastIssue (s.pack p).watchFrom + s.window 1 ≤ s.clock)
  then .next (hang 0xD3 [p] c stream.val s)
  else .next s

/-- Whether a Ready stream of a core is stalled (R78, R474). -/
def State.readyStalled (s : State) (c : Nat) : Bool :=
  let k := s.core c
  k.streams.any (fun e => e.2.st = .ready && stalls k (issuedOf c e.1 k (tabGet 0 k.store e.2.pc.toNat)))

/-- Where no engine of a core holds an instruction: since when the first stalled Ready stream has been at its instruction (R475). -/
def State.stalledSince (s : State) (c : Nat) : Nat :=
  let k := s.core c
  if k.ops.isEmpty then
    (k.streams.filter (fun e => e.2.st = .ready && stalls k (issuedOf c e.1 k (tabGet 0 k.store e.2.pc.toNat)))).foldl
      (fun a e => min a e.2.lastIssue) s.clock
  else 0

/-- The beat after the last advance of a core's progress counter; 0 before the first. -/
def Core.advancedAt (k : Core) (sub : Nat) : Nat := tabGet 0 k.flitsSince sub

/-- Since when a core has made no progress while watched (R474, R475). -/
def State.coreQuiet (s : State) (c : Nat) : Nat :=
  max (max ((s.core c).advancedAt 0x04) ((s.core c).advancedAt 0x91)) (max (s.pack (packOf c)).watchFrom (s.stalledSince c))

/-- CORE_HANG: a core with work in an engine, or a stalled Ready stream, has made no progress for a window: each engine that holds an
instruction is reset (R474-R476). -/
def execCoreHang (core : CoreId) (s : State) : Host.Outcome State Fault Refusal :=
  let c := core.val
  let p := packOf c
  let k := s.core c
  if s.watched p && (!k.ops.isEmpty || s.readyStalled c) && decide (s.coreQuiet c + s.window 2 ≤ s.clock) then
    let n := s.faults.seq.toNat
    let s := hang 0xD4 [p] c 0 s
    .next (Engine.all.foldl (fun s e => if (s.core c).engineBusy e then startEngineReset c e 0xD4 n s else s) s)
  else .next s

/-- Whether an output holds a present head flit that its downstream side does not accept, since when (R474). -/
def State.outputHeldSince (s : State) (c : Nat) (d : Dir) : Option Time :=
  let k := s.core c
  let o := k.output d
  let w := o.table.entry o.head
  if !(o.running && !o.table.idle && (eKind w = 0 || eKind w = 1)) then none
  else match contributions s.device c k d w with
    | some (x :: t) => if downAccepts c d x.pkt s then none else some ((x :: t).foldl (fun a y => howlMax a y.at_) o.headSince)
    | some [] => none
    | none => none

/-- LINK_HANG: an output has been held for a window: the packs at both ends of the link Bark and are reset (R474-R476). -/
def execLinkHang (core : CoreId) (dir : Dir) (s : State) : Host.Outcome State Fault Refusal :=
  let c := core.val
  match s.outputHeldSince c dir with
  | none => .next s
  | some t =>
    if s.watched (packOf c) && decide ((s.window 3 : Int) ≤ howlDiff s.howl t) && decide (max ((s.core c).advancedAt (0x65 + dir.code)) (s.pack (packOf c)).watchFrom + s.window 3 ≤ s.clock) then
      let n := s.faults.seq.toNat
      let packs := linkPacks c dir
      .next (packs.foldl (fun s p => orderReset 0xD5 n p s) (hang 0xD5 packs c 0 s))
    else .next s

/-- PACK_HANG: a pack in an unfinished step, or whose Retriever holds a completion, has made no progress for a window (R474-R476). -/
def execPackHang (pack : PackId) (s : State) : Host.Outcome State Fault Refusal :=
  let p := pack.val
  if s.watched p && (s.stepOpen p || !(s.pack p).retr.ready.isEmpty) && decide (max (s.pack p).lastProg (s.pack p).watchFrom + s.window 4 ≤ s.clock)
  then .next (hang 0xD6 [p] 0 0 s)
  else .next s

/-- Beats of the bounds of R484: engine, core and pack reset, warm reset of the units, and a cold reset (R606). -/
def rungBound (rung : Nat) : Nat :=
  match rung with
  | 1 => msBeats | 2 => 5 * msBeats | 3 => 50 * msBeats | 4 => 500 * msBeats | _ => 9100 * msBeats

/-- A core reset begins, by escalation only (R484, R485). -/
def startCoreReset (c record : Nat) (s : State) : State :=
  raiseRung record 2 (s.modCore c (fun k => { k with
    coreResetAt := some s.clock, inReset := true, engReset := [], engAt := [], rstCause := 0xD7, rstRecord := record }))

/-- The record of a rung that has not completed: 0xD7, class 5, with the rung it leads to (R471, R485). -/
def escalate (old next pack core : Nat) (s : State) : State :=
  let n := s.faults.seq.toNat
  raiseRung old next (raiseRung n next ((writeFaultRecord 0xD7 5 pack core 0 s).bump 0x501C 5 1))

/-- A reset past its bound that has not completed: fault 0xD7, and the next rung at once (R484, R485, R610). -/
def rungTimeout (target : ResetTarget) (s : State) : State :=
  match target with
  | .engine core e =>
    let c := core.val
    let k := s.core c
    if tabGet false k.engReset e.code && decide (tabGet 0 k.engAt e.code + rungBound 1 ≤ s.clock) then
      startCoreReset c k.rstRecord (escalate k.rstRecord 2 (packOf c) c s)
    else s
  | .core core =>
    let c := core.val
    let k := s.core c
    let p := packOf c
    match k.coreResetAt with
    | some t =>
      if t + rungBound 2 ≤ s.clock then
        let s := escalate k.rstRecord 3 p c s
        let s := s.modCore c (fun k => { k with coreResetAt := none })
        startPackReset p 0xD7 k.rstRecord true (modTeardown p (fun t => { t with reset := true, resetOpen := true, escalated := true, cause := 0xD7 }) s)
      else s
    | none => s
  | .pack pack =>
    let p := pack.val
    match (s.pack p).resetStarted with
    | some t =>
      if t + rungBound 3 ≤ s.clock then
        let r := (s.pack p).resetRecord
        startWarm 0xD7 r true (escalate r 4 p 0 s)
      else s
    | none => s
  | .warm =>
    if s.faults.recovery = 1 && decide (s.faults.recoveryAt + rungBound 4 ≤ s.clock) then
      startCold 0xD7 s.faults.recoveryRecord true (escalate s.faults.recoveryRecord 5 0 0 s)
    else s
  | .cold =>
    if s.faults.recovery = 2 && decide (s.faults.recoveryAt + rungBound 5 ≤ s.clock) then
      enterSafe 5 (escalate s.faults.recoveryRecord 5 0 0 s)
    else s

/-- RUNG_TIMEOUT (R485). -/
def execRungTimeout (target : ResetTarget) (s : State) : Host.Outcome State Fault Refusal := .next (rungTimeout target s)

/-- ENGINE_RESET_DONE: the engine reports idle (R112, R495). -/
def execEngineResetDone (core : CoreId) (engine : Engine) (s : State) : Host.Outcome State Fault Refusal :=
  let c := core.val
  let k := s.core c
  if tabGet false k.engReset engine.code then
    let s := s.modCore c (fun k => { k with engReset := tabErase k.engReset engine.code, engAt := tabErase k.engAt engine.code })
    .next (setLastReset 1 false k.rstCause c (s.bumpCore c 0x0A 1))
  else .next s

/-- CORE_RESET_DONE: the Shepherd, the engines and the mesh port are clear, every stream is Stopped and the accumulators hold free values
(R484, R495; log entry 79). -/
def execCoreResetDone (core : CoreId) (s : State) : Host.Outcome State Fault Refusal :=
  let c := core.val
  let k := s.core c
  match k.coreResetAt with
  | none => .next s
  | some _ =>
    let s := s.modCore c (fun k => { k.resetStreams.bumpRequests with
      coreResetAt := none, inReset := (s.vetPack (packOf c)).held, ops := [], mesh := [], deferred := [] })
    .next (setLastReset 2 true k.rstCause c ((scrambleAcc c s).bump 0x501C 2 1))

/-- A router at the end of the drain window: scheduled, merge and Collar packets are discarded, the idle table runs (R479). -/
def Core.drainEnd (k : Core) (now : Time) : Core := k.dropScheduled.mapOutputs (fun o => o.toIdle now)

/-- The drain window's end on one pack (R478-R480). -/
def drainPack (t : Teardown) (p : Nat) (s : State) : State :=
  let s := (packCores p).foldl (fun s c => s.modCore c (fun k => k.drainEnd s.howl)) s
  let s := (packCores p).foldl (fun s c =>
    Engine.all.foldl (fun s e => if (s.core c).engineBusy e then startEngineReset c e t.cause t.record s else s)
      (s.modCore c (fun k => { k with mesh := [], deferred := [] }))) s
  let s := s.modPack p (fun k => { k with retr := { k.retr with pairs := [], sampling := none, ready := [] } })
  modTeardown p (fun t => { t with drained := true, drainEnd := s.howl }) s

/-- Packs whose teardown is of a program and still in its drain window. -/
def State.drainingPacks (s : State) (g : Nat) : List Nat :=
  (List.range 16).filter (fun p => match (s.pack p).teardown with | some t => t.prog = g && !t.drained | none => false)

/-- A router of a stopped program is drained (R283, R479). -/
def Core.drainedNow (k : Core) : Bool := k.routerEmpty && k.tablesDone

/-- TEARDOWN_DRAIN_END: the window ends on every pack of the program: packets discarded, idle tables, engine resets, then the dump of
the packs to be reset, zeroise and quarantine begin (R478-R482, R489). -/
def execTeardownDrainEnd (pack : PackId) (s : State) : Host.Outcome State Fault Refusal :=
  match (s.pack pack.val).teardown with
  | none => .next s
  | some t =>
    let packs := s.drainingPacks t.prog
    let ended := howlGe s.howl (t.startedAt + BitVec.ofNat 64 drainBeats)
    let empty := (packs.flatMap packCores).all (fun c => (s.core c).drainedNow)
    if t.drained || !(ended || empty) then .next s
    else
      let s := packs.foldl (fun s p => match (s.pack p).teardown with | some t => drainPack t p s | none => s) s
      let due := packs.filter (fun p => match (s.pack p).teardown with | some t => t.reset && (s.pack p).resetStarted.isNone | none => false)
      if due.isEmpty then .next s
      else
        let why := match (s.pack (due.headD 0)).teardown with | some t => t.cause | none => 0
        let r := if s.setting 0x3070 1 1 = 1 then takeDump (due.foldl (fun m p => m + 2 ^ p) 0) false why s else (false, s)
        .next (due.foldl (fun s p =>
          if r.1 then modTeardown p (fun t => { t with dumpOpen := true }) s
          else match (s.pack p).teardown with | some t => startPackReset p t.cause t.record false s | none => s) r.2)

/-- ZEROISE_DONE of a pack: its scratchpad part, whose routes go only once the routers are drained (R283), or with `hbm` the program's part
in HBM (R478, R480). -/
def execZeroiseDone (pack : PackId) (hbm : Bool) (s : State) : Host.Outcome State Fault Refusal :=
  let p := pack.val
  match (s.pack p).teardown with
  | none => .next s
  | some t =>
    if !t.drained then .next s
    else if hbm then
      if !t.zeroHbmOpen then .next s
      else
        let s := (s.prog t.prog).ctxList.foldl zeroCtx s
        let packs := (List.range 16).filter (fun q => match (s.pack q).teardown with | some u => u.prog = t.prog | none => false)
        let s := packs.foldl (fun s q => modTeardown q (fun t => { t with zeroHbmOpen := false }) s) s
        .next (packs.foldl (fun s q => finishTeardown q s) s)
    else if !t.zeroScratchOpen || t.dumpOpen || t.resetOpen || !(s.usedCores p).all (fun c => (s.core c).routerEmpty) then .next s
    else
      let s := (s.usedCores p).foldl (fun s c => s.modCore c Core.zeroiseProg) s
      .next (finishTeardown p (modTeardown p (fun t => { t with zeroScratchOpen := false }) s))

/-- QUARANTINE_END: 2^14 beats after the drain window, 2^18 for a multi-device image (R482). -/
def execQuarantineEnd (pack : PackId) (s : State) : Host.Outcome State Fault Refusal :=
  let p := pack.val
  match (s.pack p).teardown with
  | none => .next s
  | some t =>
    let beats := if (s.prog t.prog).multi then 2 ^ 18 else 2 ^ 14
    if !t.drained || !t.quarantineOpen || !howlGe s.howl (t.drainEnd + BitVec.ofNat 64 beats) then .next s
    else .next (finishTeardown p (modTeardown p (fun t => { t with quarantineOpen := false }) s))

/-- A dump ends with STATE 2 or 3: its slots and records are in the Sniff area, and the resets that waited for it go ahead (R489-R492). -/
def endDump (d : Dump) (st : Nat) (written : List Nat) (s : State) : State :=
  let s := writeSlots written s
  let s := (packsIn d.packs).foldl (fun s p => writePackRecord d st written p s) s
  let s := if d.device then dumpWrite (sniffBase + 0x400) (leBytes 4 d.seq.toNat ++ [0, 0, 0, 0] ++ leBytes 8 d.howl.toNat) s else s
  let rest := s.faults.dumps.filter (fun x => x.seq ≠ d.seq)
  let s := { s with faults := { s.faults with dumps := rest, sniffState := if rest.isEmpty then st else 1 } }
  let s := (s.bump 0x501C 7 1).alert 6
  if d.device then warmUnits s
  else (packsIn d.packs).foldl (fun s p =>
    match (s.pack p).teardown with
    | some t => if t.dumpOpen then startPackReset p t.cause t.record t.escalated (modTeardown p (fun t => { t with dumpOpen := false }) s) else s
    | none => s) s

/-- The dump in progress of a SNIFF_SEQ. -/
def State.dump (s : State) (seq : BitVec 32) : Option Dump := s.faults.dumps.find? (fun d => d.seq = seq)

/-- SNIFF_DUMP_DONE: every slot of the dump is written (R492). -/
def execSniffDumpDone (seq : BitVec 32) (s : State) : Host.Outcome State Fault Refusal :=
  match s.dump seq with
  | none => .next s
  | some d => .next (endDump d 2 (d.cores s) s)

/-- SNIFF_DUMP_TIMEOUT: at 20 ms, or 200 ms for the device, the dump stops with the slots of `written` (R492). -/
def execSniffDumpTimeout (seq : BitVec 32) (written : List CoreId) (s : State) : Host.Outcome State Fault Refusal :=
  match s.dump seq with
  | none => .next s
  | some d =>
    if s.clock < d.startedAt + (if d.device then 200 else 20) * msBeats then .next s
    else .next (endDump d 3 ((d.cores s).filter (fun c => (written.map Fin.val).contains c)) s)

/-- PACK_RESET: a running job Barks, and each named pack is reset, at the end of its teardown where it has a program (R485, R486, R494). -/
def packReset (mask : Nat) (s : State) : Nat × State :=
  let packs := packsIn mask
  let s := commandStop (packs.filter (fun p => match s.progOf p with | some g => !(s.prog g).barked | none => false)) s
  (stDone, packs.foldl (fun s p =>
    match (s.pack p).teardown with
    | some t =>
      if t.reset then s
      else
        let s := modTeardown p (fun t => { t with reset := true, resetOpen := true, cause := 0xDA }) s
        if t.drained then startPackReset p 0xDA t.record false s else s
    | none => if (s.pack p).resetStarted.isSome then s else startPackReset p 0xDA noRecord false s) s)

/-- PACK_RESET (R486). -/
def execPackReset (mask : BitVec 16) (s : State) : Host.Outcome State Fault Refusal := .next (s.command (packReset mask.toNat))

/-- PACK_RESET_DONE: the units of the pack are zeroised and released, its contexts Closed (R462, R480, R481, R486). -/
def execPackResetDone (pack : PackId) (s : State) : Host.Outcome State Fault Refusal :=
  let p := pack.val
  let k := s.pack p
  match k.resetStarted with
  | none => .next s
  | some _ =>
    let held := (s.vetPack p).held
    let s := (packCores p).foldl (fun s c => s.modCore c (fun k => k.released held)) s
    let s := match k.prog with
      | some g => ((s.prog g).ctxList.filter (fun n => n % 16 = p)).foldl (fun s n => setCtxState n 0 s) s
      | none => s
    let s := s.modPack p (fun k => { k with
      state := if k.teardown.isSome then .tearing else if held then .heldSafe else .empty
      resetStarted := none, resetEscalated := false, stopping := false, inStep := false
      retr := { Retriever.reset with tagGen := bumpTags 8 k.retr.tagGen, tableErr := k.retr.tableErr, stopped := held || k.prog.isSome } })
    let s := (setLastReset 3 k.resetEscalated k.resetCause p s).bump (0x1800 + p) 0x51 1
    .next (refreshDev (finishTeardown p (modTeardown p (fun t => { t with resetOpen := false, zeroScratchOpen := false, drained := true, drainEnd := if t.drained then t.drainEnd else s.howl }) s)))

/-- WARM_RESET: DEVICE_RESET 1 (R487). -/
def execWarmReset (s : State) : Host.Outcome State Fault Refusal := .next (s.command (deviceReset 1))
/-- COLD_RESET: DEVICE_RESET 2 (R488). -/
def execColdReset (s : State) : Host.Outcome State Fault Refusal := .next (s.command (deviceReset 2))

/-- The full vet pass: every unit of every pack takes its 64 slices, with findings on the units named (R445, R605). -/
def fullVet (l : List VetFinding) (s : State) : State :=
  let s := l.foldl (fun s x =>
    let n := x.core.val
    let u := if x.retriever then 68 else (packPhys (physPack n)).idxOf n
    if (s.phys n).muzzled || !x.finding.fits u x.slice.val || x.finding = .pass then s
    else applyFinding (physPack n) n x.slice.val x.finding (s.bump 0x501B 2 1)) s
  (List.range 16).foldl (fun s p =>
    let live := (packPhys p).filter (fun n => !(s.phys n).muzzled)
    (s.bump (0x1800 + p) 0x43 (64 * (live.length + 1))).modVet p (fun v => { v with rotation := s.howl })) s

/-- Training of the stacks ends: those named fail, the others serve (R386, R487, R605). -/
def trainStacks (failed : BitVec 8) (s : State) : State :=
  (List.range 8).foldl (fun s i =>
    if bitAt failed i then failStack i s
    else s.modStack i (fun k => { k with state := .serving, tempAtCal := k.temp })) s

/-- Training of the ports ends: those named are down (R608). -/
def failPorts (failed : BitVec 18) (s : State) : State :=
  (List.range 18).foldl (fun s f => if bitAt failed f && (s.port f).state = .training then s.modPort f (fun p => { p with state := .down }) else s) s

/-- Idle is reported (R487, R605). -/
def reportIdle (s : State) : State :=
  { s with
    power := { s.power with dev := .idle, starting := none, step := 8, ready := true }
    faults := { s.faults with recovery := 0 } }

/-- WARM_RECOVERY_DONE: training, the vet pass and zeroise have ended, with the stacks and ports that failed and what the pass found
(R487). -/
def execWarmRecoveryDone (hbmStacks : BitVec 8) (ports : BitVec 18) (found : List VetFinding) (s : State) : Host.Outcome State Fault Refusal :=
  if s.power.starting ≠ some .warm || s.faults.dumps.any (fun d => d.device) then .next s
  else
    let ms := (s.clock - s.faults.recoveryAt) / msBeats
    let s := resetPacks (fullVet found (failPorts ports (trainStacks hbmStacks s)))
    .next (reportIdle { s with faults := { s.faults with warmMs := ms } })

/-- UNLOAD_PACKS: every named pack must have a program; their jobs Bark with 0xDA (R477). -/
def unloadPacks (mask : Nat) (s : State) : Nat × State :=
  let packs := packsIn mask
  if packs.any (fun p => (s.progOf p).isNone) then (stState, s) else (stDone, commandStop packs s)

/-- UNLOAD_PACKS (R477). -/
def execUnloadPacks (mask : BitVec 16) (s : State) : Host.Outcome State Fault Refusal := .next (s.command (unloadPacks mask.toNat))

/-- ALERT_ACK: the bits written are cleared; a change is notified (R472, R533). -/
def alertAck (mask : Nat) (s : State) : Nat × State :=
  let a := s.faults.alerts &&& ~~~(BitVec.ofNat 16 mask)
  let t := { s with faults := { s.faults with alerts := a } }
  (stDone, if a = s.faults.alerts then s else notify 1 (leBytes 2 a.toNat) t)

/-- ALERT_ACK (R472). -/
def execAlertAck (mask : BitVec 16) (s : State) : Host.Outcome State Fault Refusal := .next (s.command (alertAck mask.toNat))

/-- STATS_CLEAR 1 (R493). -/
def statsClear (s : State) : Nat × State := (stDone, clearCounters s)

/-- STATS_CLEAR: writing 1 clears; writing 0 does nothing (R493). -/
def execStatsClear (value : Bool) (s : State) : Host.Outcome State Fault Refusal := .next (s.command (fun s => if value then statsClear s else (stDone, s)))

/-- SNIFF_COMMAND: a dump of the named packs, refused while one runs (R489, R494). -/
def sniffCommand (mask : Nat) (s : State) : Nat × State :=
  if !s.faults.dumps.isEmpty then (stBusy, s)
  else if mask % 65536 = 0 then (stDone, s)
  else (stDone, (takeDump (mask % 65536) false 0xDA s).2)

/-- SNIFF_COMMAND (R489). -/
def execSniffCommand (mask : BitVec 16) (s : State) : Host.Outcome State Fault Refusal := .next (s.command (sniffCommand mask.toNat))

end Sys2Proof.Machine
end

