-- ==== Sys2Proof/Machine/HostPort.lean ====
section
/-! DEFINITION. The host port: function resets, device power states, BAR2 accesses, service sends and MSI-X (VF_FLR …
SERVICE_SEND_DESC, VF_ENABLE_WRITE, LINK_RECOVERY, MSIX_VECTOR_UNMASK; R496-R517). -/
namespace Sys2Proof.Machine

/-- Whether a function exists: PF0 always, a VF while VF Enable is 1 (R497, R498). -/
def State.fnExists (s : State) (fn : Nat) : Bool := fn = 0 || s.host.vfEnable

/-- The registers of pack `p`'s launch window and contexts cleared (R499, R504). -/
def clearPackRegs (s : State) (p : Nat) : State :=
  let s := { s with host := { s.host with lwGated := tabErase s.host.lwGated p, lwDrops := tabErase s.host.lwDrops p } }
  ((List.range 32).map (fun j => 16 * j + p)).foldl (fun s n =>
    s.modCtx n (fun k => { k with inTail := 0, inSeen := 0, cplHead := 0, headOld := 0, headAt := 0, cplTail := 0, ringErr := 0 })) s

/-- Whether an access that waits at a ring port is function `fn`'s. -/
def heldOf (fn : Nat) (i : Instr) : Bool :=
  match i with
  | .bar2Read f _ _ _ => f.val = fn
  | .bar2Write f _ _ _ => f.val = fn
  | .serviceSendDesc f _ _ _ => f.val = fn
  | _ => false

/-- A function's registers cleared, with its unsent service sends and the accesses that still wait (R499). -/
def clearFn (s : State) (fn : Nat) : State :=
  { s with
    heldRing := s.heldRing.filter (fun i => !heldOf fn i)
    host := { s.host with fns := tabErase s.host.fns fn, sends := s.host.sends.filter (fun x => x.fn ≠ fn) } }

/-- Packs of a list that hold a program which is not already Barked. -/
def State.stoppable (s : State) (packs : List Nat) : List Nat :=
  packs.filter (fun p => match s.progOf p with | some g => !(s.prog g).barked | none => false)

/-- VF_FLR: the program's job on the VF's pack Barks with 0xDA, where there is one, and the VF's registers are cleared (R499). -/
def execVfFlr (vf : VfId) (s : State) : Host.Outcome State Fault Refusal :=
  if !s.fnExists (vf.val + 1) then .next s
  else .next (clearPackRegs (clearFn (commandStop (s.stoppable [vf.val]) s) (vf.val + 1)) vf.val)

/-- PF_RESET: a function-level reset of PF0, or PERST_N: as VF_FLR for every pack, and the registers of PF0 are cleared (R499). -/
def execPfReset (s : State) : Host.Outcome State Fault Refusal :=
  if !s.power.booted then .next s
  else
    let s := commandStop (s.stoppable (List.range 16)) s
    let s := (List.range 17).foldl clearFn ((List.range 16).foldl clearPackRegs s)
    .next { s with host := { s.host with
      vfEnable := false, mbBusy := false, mbDone := false, mbOver := false, mbIrq := false, mbLen := 0, mbReq := [], mbResp := [] } }

/-- D3HOT_ENTRY: the function serves configuration requests only, and holds its messages (R501). -/
def execD3hotEntry (fn : Fin 17) (s : State) : Host.Outcome State Fault Refusal :=
  .next (if s.fnExists fn.val then s.modFn fn.val (fun f => { f with d3hot := true }) else s)

/-- Send the pending message of a vector where nothing holds it (R501, R516). -/
def sendPending (fn : Nat) (s : State) (v : Nat) : State :=
  let f := s.fn fn
  if tabGet false f.pba v && f.msixOn && !f.d3hot && !(tabGet MsixVec.reset f.msix v).masked then
    let s := s.modFn fn (fun f => { f with pba := tabErase f.pba v })
    { s with host := { s.host with sent := s.host.sent ++ [(fn, v)] } }
  else s

/-- D0_RETURN: the function sends its pending messages that are not masked; every register is kept (R501). -/
def execD0Return (fn : Fin 17) (s : State) : Host.Outcome State Fault Refusal :=
  if !s.fnExists fn.val then .next s
  else
    let s := s.modFn fn.val (fun f => { f with d3hot := false })
    .next (((s.fn fn.val).pba.map (fun e => e.1)).foldl (sendPending fn.val) s)

/-- MSIX_VECTOR_UNMASK: the host sets a vector's address and data and clears its mask; a pending message is sent. `enable` is MSI-X
Enable as the host leaves it (R503, R504, R516). -/
def execMsixVectorUnmask (fn : Fin 17) (vector : Fin 528) (enable : Bool) (addr : Word) (data : BitVec 32) (ide : Bool) (s : State) :
    Host.Outcome State Fault Refusal :=
  if !s.fnExists fn.val || (fn.val ≠ 0 && 33 ≤ vector.val) then .next s
  else .next (barWrite fn.val ide (fun s =>
    let s := s.modFn fn.val (fun f => { f with
      msixOn := enable, msix := tabSet MsixVec.reset f.msix vector.val { addr := addr, data := data, masked := false } })
    sendPending fn.val s vector.val) s)

/-- VF_ENABLE_WRITE: VF Enable of PF0 takes the value (R498, R517). -/
def execVfEnableWrite (value : Bool) (s : State) : Host.Outcome State Fault Refusal :=
  .next (if s.power.booted then { s with host := { s.host with vfEnable := value } } else s)

/-- LINK_RECOVERY: the link trains again, to the rate (at most PCIE_MAX_RATE) and width given; 64 and 128 GT/s require Flit mode
(R496, R517). -/
def execLinkRecovery (rate : Fin 8) (width : Fin 17) (flit : Bool) (s : State) : Host.Outcome State Fault Refusal :=
  if !s.power.booted then .next s
  else
    let r := min rate.val (s.setting 0x0240 4 7)
    .next (({ s with host := { s.host with rate := r, width := width.val, flitMode := flit || decide (6 ≤ r) } } : State).bump 0x501D 7 1)

/-- Completion statuses of a host read: 0 successful, 1 Unsupported Request, 4 Completer Abort. -/
def cplStatus (status : Nat) (data : List Byte) (s : State) : State := { s with out := BitVec.ofNat 8 status :: data }

/-- Rules 1 and 2 of R505: the offset lies outside the stack's storage, or outside what a VF may reach. -/
def State.bar2Outside (s : State) (fn a n : Nat) : Bool :=
  decide (stackBytes < offsetOf a + n)
    || (decide (0 < fn) && !(match s.progOf (fn - 1) with | some g => inWindow (s.prog g).windows a n false | none => false))

/-- Rule 3 of R505 on a host write: it reaches the Sniff area, a load image, or a state block, which is read-only to the host (R339). -/
def State.hostReadOnly (s : State) (a n : Nat) : Bool :=
  s.readOnly a n || s.ctxs.any (fun e => e.2.owner.isSome && rangesMeet a n e.2.stateAddr 64)

/-- What R505 answers to an access: done with its bytes, or refused under a rule. -/
inductive Bar2 where
  | done (l : List Byte)
  | refused (rule : Nat)
  | held
  deriving DecidableEq, Repr

/-- The outcome of a ring-port access under rules 4 to 6 of R505. -/
def RingAcc.bar2 : RingAcc → Bar2
  | .done l => .done l
  | .poisoned => .refused 5
  | .notServing => .refused 4
  | .held => .held

/-- A read of HBM under R505. -/
def bar2Read (fn a n : Nat) (s : State) : Bar2 × State :=
  if s.bar2Outside fn a n then (.refused 1, s)
  else let r := ringRead a n s; (r.1.bar2, r.2)

/-- A write of HBM under R505. -/
def bar2Write (fn a : Nat) (d : List Byte) (s : State) : Bar2 × State :=
  if s.bar2Outside fn a d.length then (.refused 1, s)
  else if s.hostReadOnly a d.length then (.refused 3, s)
  else let r := ringWrite a d s; (r.1.bar2, r.2)

/-- BAR2_READ: the completion is left in `out`, its status and then its data. A read that meets a recalibration waits
at the ring port for its end (R384, R501, R505). -/
def execBar2Read (fn : Fin 17) (offset : BitVec 40) (len : Fin 4097) (ide : Bool) (s : State) : Host.Outcome State Fault Refusal :=
  if !s.power.booted || !s.fnExists fn.val then .next s
  else if s.barRefused fn.val ide then .next (cplStatus 1 [] (s.bump 0x501D 1 1))
  else match bar2Read fn.val offset.toNat len.val s with
    | (.done l, s) => .next (cplStatus 0 l s)
    | (.refused rule, s) => .next (cplStatus (if rule ≤ 2 then 1 else 4) [] (s.bump 0x501D 1 1))
    | (.held, s) => .next { s with heldRing := s.heldRing ++ [.bar2Read fn offset len ide] }

/-- BAR2_WRITE: a posted write, discarded and counted where a rule refuses it, and held by a recalibration (R384, R501, R505). -/
def execBar2Write (fn : Fin 17) (offset : BitVec 40) (data : List Byte) (ide : Bool) (s : State) : Host.Outcome State Fault Refusal :=
  if !s.power.booted || !s.fnExists fn.val then .next s
  else if s.barRefused fn.val ide then .next (s.bump 0x501D 1 1)
  else match bar2Write fn.val offset.toNat data s with
    | (.done _, s) => .next s
    | (.refused _, s) => .next (s.bump 0x501D 1 1)
    | (.held, s) => .next { s with heldRing := s.heldRing ++ [.bar2Write fn offset data ide] }

/-- Why a service send is not queued: its descriptor is discarded, or it is refused with reason 0x01, or its source waits. -/
inductive SendRes where
  | overflow
  | refused
  | held
  | queued
  deriving DecidableEq, Repr

/-- Unsent sends of a function, those whose block a recalibrating stack holds among them; function 17 is the management plane. -/
def State.pendingSends (s : State) (fn : Nat) : Nat :=
  (s.host.sends.filter (fun x => x.fn = fn)).length
    + (s.heldRing.filter (fun i => match i with | .serviceSendDesc f _ _ _ => f.val = fn | _ => false)).length

/-- Whether a descriptor is one that R510 discards. -/
def descBad (d : Word) : Bool :=
  let nw := bitsOf d 16 5
  bitsOf d 56 7 ≠ 0 || bitsOf d 21 3 ≠ 0 || (if bitAt d 63 then nw ≠ 0 else nw = 0 || decide (16 < nw))

/-- The windows a function's block source must lie in: its pack's, or for PF0 and the management plane any loaded image's (R510). -/
def State.sendWindows (s : State) (fn : Nat) : List Window :=
  if 1 ≤ fn && fn ≤ 16 then (match s.progOf (fn - 1) with | some g => (s.prog g).windows | none => [])
  else (s.progs.filter (fun e => e.2.packs ≠ 0)).flatMap (fun e => e.2.windows)

/-- The packet of a service send (R270, R271, R510): a tuple of W0 to W[NW − 1], or a block of LEN flits. -/
def svcPkt (fn : Nat) (w : List Word) (d : Word) (payload : List Byte) (s : State) : Pkt :=
  let block := bitAt d 63
  let dev := bitsOf d 32 16
  let core := bitsOf d 0 10
  let nw := bitsOf d 16 5
  let w1 := nth 0 w 1
  { hdr := { Hdr.zero with
      ptype := if block then 0x04 else 0x03, service := true, nw := nw, long := block || decide (4 < nw)
      len := if block then bitsOf w1 0 7 else bit01 (decide (4 < nw)), doff := if block then bitsOf w1 8 15 else 0
      dstDev := dev, dstCore := core, dstBowl := bitsOf d 10 6, gen := bitsOf d 24 8, srcDev := s.device
      epoch := if dev = s.device then s.epochOf core else s.job.epoch.toNat }
    words := if block then [] else fitTo 0 nw w, payload := payload, exit := false, origin := if fn = 17 then 2 else 1 }

/-- A send refused by the ring itself with reason 0x01 (R504, R510, R511). -/
def refuseSend (fn : Nat) (w : List Word) (d : Word) (s : State) : State :=
  let q : RingReq := { hdr := (svcPkt fn w d [] s).hdr, origin := fn + 1, token := bitsOf d 48 8, sentAt := s.howl, flits := 0, mirror := false }
  nackSender q 0x01 s

/-- A service send is queued at the ring and leaves as soon as it can (R400, R510). -/
def queueSend (fn : Nat) (w : List Word) (d : Word) (payload : List Byte) (s : State) : State :=
  let x : SvcSend := { fn := fn, token := bitsOf d 48 8, pkt := svcPkt fn w d payload s }
  drainRing (({ s with host := { s.host with sends := s.host.sends ++ [x] } } : State).bump 0x501D 3 1)

/-- A service send of a function: judged, its block read, and queued (R504, R510, R533). -/
def serviceSend (fn : Nat) (w : List Word) (d : Word) (s : State) : SendRes × State :=
  let local_ := bitsOf d 32 16 = s.device && packOf (bitsOf d 0 10) + 1 = fn
  if 8 ≤ s.pendingSends fn || descBad d then (.overflow, s)
  else if 1 ≤ fn && fn ≤ 16 && !local_ then (.refused, refuseSend fn w d s)
  else if !bitAt d 63 then (.queued, queueSend fn w d [] s)
  else
    let a := bitsOf (nth 0 w 0) 0 40
    let len := bitsOf (nth 0 w 1) 0 7
    if len = 0 || 64 < len || !inWindow (s.sendWindows fn) a (256 * len) false then (.refused, refuseSend fn w d s)
    else match ringRead a (256 * len) s with
      | (.done l, s) => (.queued, queueSend fn w d l s)
      | (.poisoned, s) => (.refused, refuseSend fn w d s)
      | (.notServing, s) => (.refused, refuseSend fn w d s)
      | (.held, _) => (.held, s)

/-- Whether a function's service-send window is its own: PF0's while VF Enable is 0, a VF's while it is 1 (R498). -/
def State.ownsWindow (s : State) (fn : Nat) : Bool := if s.host.vfEnable then fn ≠ 0 else fn = 0

/-- SERVICE_SEND_DESC: the window's words as they stand and DESC; a descriptor discarded sets the overflow flag (R498, R510). -/
def execServiceSendDesc (fn : Fin 17) (words : List Word) (desc : Word) (ide : Bool) (s : State) : Host.Outcome State Fault Refusal :=
  .next (barWrite fn.val ide (fun s =>
    if !s.ownsWindow fn.val then s
    else
      let s := s.modFn fn.val (fun f => { f with
        w := (List.range 16).foldl (fun t i => tabSet 0 t i (nth 0 words i)) [], desc := desc })
      match serviceSend fn.val (fitTo 0 16 words) desc s with
      | (.overflow, s) => (s.modFn fn.val (fun f => { f with overflow := true })).bump 0x501D 4 1
      | (.refused, s) => s
      | (.held, s) => { s with heldRing := s.heldRing ++ [.serviceSendDesc fn words desc ide] }
      | (.queued, s) => s) s)

/-- A held access taken up again: a stack that still recalibrates holds it again (R384). -/
def resumeAccess (s : State) (i : Instr) : State :=
  let run (r : Host.Outcome State Fault Refusal) : State :=
    match r with
    | .next t => { t with out := s.out ++ t.out }
    | .fault _ => s
    | .refused _ => s
  let t := { s with out := [] }
  match i with
  | .bar2Read fn offset len ide => run (execBar2Read fn offset len ide t)
  | .bar2Write fn offset data ide => run (execBar2Write fn offset data ide t)
  | .serviceSendDesc fn words desc ide => run (execServiceSendDesc fn words desc ide t)
  | _ => s

/-- RECALIBRATION_DONE: the stack serves again, first what waited at its ring port, in order; `out` is what the reads among them return
(R384). -/
def execRecalibrationDone (stack : StackId) (s : State) : Host.Outcome State Fault Refusal :=
  let st := stack.val
  if (s.stack st).state = .recalibrating then
    let s := (s.modStack st (fun k => { k with state := .serving, tempAtCal := k.temp })).bump (0x2000 + st) 0x0A 1
    .next (s.heldRing.foldl resumeAccess { s with heldRing := [], out := [] })
  else .next s

end Sys2Proof.Machine
end

