-- ==== Sys2Proof/Machine/MirrorEngine.lean ====
section
/-! DEFINITION. The mirror engine and its partner's side (R429-R433). The form of its requests is the model's (log entry 28). -/
namespace Sys2Proof.Machine

/-- Address of a mirror range word (R433). -/
def rangeAddr (w : Word) : Nat := bitsOf w 0 40
/-- Bytes of a source range; 0 marks an unused entry (R433). -/
def rangeBytes (w : Word) : Nat := 4096 * bitsOf w 40 24

/-- Total bytes of a pass (R430). -/
def Mirror.total (m : Mirror) : Nat := ((List.range 16).map (fun i => rangeBytes (tabGet 0 m.src i))).sum

/-- FAILURE_DOMAIN (R429). -/
def State.domain (s : State) : Nat := s.setting 0x0220 8 0

/-- A mirror request: 0 OPEN with the domain and byte count, 1 a write with its address and length, 2 COMMIT (R430). -/
def mirrorPkt (s : State) (op a b : Nat) (data : List Byte) : Pkt :=
  let n := ceilDiv data.length 256
  { hdr := { Hdr.zero with
      ptype := if data.isEmpty then 0x03 else 0x04, service := true, mcast := true, nw := 4, long := decide (0 < n), len := n, dstDev := s.mirror.partner.toNat, srcDev := s.device
      epoch := s.job.epoch.toNat }
    words := [BitVec.ofNat 64 op, BitVec.ofNat 64 s.mirror.seq.toNat, BitVec.ofNat 64 a, BitVec.ofNat 64 b]
    payload := fitTo 0 (256 * n) data, exit := false, origin := 0 }

/-- Send a mirror request: it waits in the ring for its reply space, or reaches this device's own ring (R400, R430). -/
def sendMirror (p : Pkt) (s : State) : State :=
  let r : RingPkt := { pkt := p, since := s.howl, fromPort := 18, cls1 := false }
  if p.hdr.dstDev = s.device then
    let q : RingReq := { hdr := p.hdr, origin := 0, token := 0, sentAt := s.howl, flits := 0, mirror := true }
    { s with ring := { s.ring with deliver := s.ring.deliver ++ [r], awaiting := s.ring.awaiting ++ [q] } }
  else drainRing { s with ring := { s.ring with requests := s.ring.requests ++ [r] } }

/-- MIRROR_COMMAND 1 (R430): status and state. -/
def mirrorStart (s : State) : Nat × State :=
  if s.mirror.state = 1 then (stBusy, s)
  else if s.job.state ≠ .running || !devIn s.job.extent.toNat s.mirror.partner.toNat then (stState, s)
  else
    let s := { s with mirror := { s.mirror with state := 1, seq := s.mirror.seq + 1, phase := 0, range := 0, offset := 0, bytes := s.mirror.total } }
    (stDone, sendMirror (mirrorPkt s 0 s.domain s.mirror.bytes []) s)

/-- MIRROR_START (R430). -/
def execMirrorStart (s : State) : Host.Outcome State Fault Refusal := .next (s.command mirrorStart)

/-- End a running pass with MIRROR_STATE 3. -/
def mirrorFails (s : State) : State := { s with mirror := { s.mirror with state := if s.mirror.state = 1 then 3 else s.mirror.state } }

/-- MIRROR_COMMAND 2 (R430). -/
def mirrorAbort (s : State) : Nat × State := (stDone, mirrorFails s)
/-- MIRROR_ABORT (R430). -/
def execMirrorAbort (s : State) : Host.Outcome State Fault Refusal := .next (s.command mirrorAbort)

/-- The first range at or after a place that has bytes left, with the offset there. -/
def Mirror.nextChunk (m : Mirror) : Option (Nat × Nat) :=
  if m.offset < rangeBytes (tabGet 0 m.src m.range) then some (m.range, m.offset)
  else ((List.range 16).find? (fun i => decide (m.range < i) && decide (0 < rangeBytes (tabGet 0 m.src i)))).map (fun i => (i, 0))

/-- The engine sends its next write of at most 16 KiB, or COMMIT; none while a recalibrating stack holds the read (R430). A
source line that cannot be read ends the pass (log entry 28). -/
def mirrorNext (s : State) : Option State :=
  let m := s.mirror
  match m.nextChunk with
  | none => some (sendMirror (mirrorPkt s 2 0 0 []) { s with mirror := { m with phase := 2 } })
  | some (i, off) =>
    let n := min 16384 (rangeBytes (tabGet 0 m.src i) - off)
    match ringRead (rangeAddr (tabGet 0 m.src i) + off) n s with
    | (.done d, s) =>
      let s := ({ s with mirror := { s.mirror with phase := 1, range := i, offset := off + n } } : State).bump 0x501A 7 n
      some (sendMirror (mirrorPkt s 1 (rangeAddr (tabGet 0 m.dst i) + off) n d) s)
    | (.poisoned, s) => some (mirrorFails s)
    | (.notServing, s) => some (mirrorFails s)
    | (.held, _) => none

/-- MIRROR_ANSWER: the pass continues, commits or ends (R430). -/
def execMirrorAnswer (s : State) : Host.Outcome State Fault Refusal :=
  match s.ring.deliver.find? (fun r => r.pkt.hdr.isMirrorAns) with
  | none => .next s
  | some r =>
    let t := { s with ring := { s.ring with
      deliver := s.ring.deliver.erase r
      awaiting := match s.ring.awaiting.find? (fun q => q.mirror) with | some q => s.ring.awaiting.erase q | none => s.ring.awaiting } }
    if s.mirror.state ≠ 1 || nth 0 r.pkt.words 2 ≠ s.mirror.seq.setWidth 64 then .next t
    else if nth 0 r.pkt.words 1 ≠ 0 then .next (mirrorFails t)
    else if s.mirror.phase = 2 then .next { t with mirror := { t.mirror with state := 2 } }
    else match mirrorNext t with
      | some u => .next u
      | none => .next s

/-- The answer to a mirror request: 0 accepted, 1 refused. -/
def answerMirror (r : RingPkt) (status : Nat) (s : State) : State :=
  let p : Pkt :=
    { hdr := { Hdr.zero with ptype := 0x0D, service := true, mcast := true, nw := 3, dstDev := r.pkt.hdr.srcDev, srcDev := s.device, epoch := r.pkt.hdr.epoch }
      words := [nth 0 r.pkt.words 0, BitVec.ofNat 64 status, nth 0 r.pkt.words 1], payload := [], exit := false, origin := 0 }
  drainRing { s with ring := { s.ring with replies := s.ring.replies ++ [{ pkt := p, since := s.howl, fromPort := 18, cls1 := false }] } }

/-- The pass record of R431. -/
def passRecord (s : State) (src seq state bytes : Nat) : List Byte :=
  leBytes 4 seq ++ leBytes 1 state ++ leBytes 1 0 ++ leBytes 2 src ++ leBytes 4 s.job.epoch.toNat ++ leBytes 4 0 ++ leBytes 8 bytes
  ++ leBytes 8 s.howl.toNat ++ List.replicate 32 0

/-- Write in the accept window and answer; a place that is read-only, or a stack that cannot take the write,
refuses, a recalibrating one holds the request (R320, R366). -/
def mirrorStore (r : RingPkt) (a : Nat) (d : List Byte) (f : State → State) (s : State) : State :=
  let t := { s with ring := { s.ring with deliver := s.ring.deliver.erase r } }
  if s.readOnly a d.length then answerMirror r 1 t
  else match ringWrite a d t with
  | (.done _, t) => answerMirror r 0 (f t)
  | (.poisoned, t) => answerMirror r 1 t
  | (.notServing, t) => answerMirror r 1 t
  | (.held, _) => s

/-- Handle the first mirror request of an operation at the ring, refusing one that fails its test (R432). -/
def mirrorServe (op : Nat) (ok : RingPkt → Bool) (run : RingPkt → State → State) (s : State) : State :=
  match s.ring.deliver.find? (fun r => r.pkt.hdr.isMirrorReq && nth 0 r.pkt.words 0 = BitVec.ofNat 64 op) with
  | none => s
  | some r => if ok r then run r s else answerMirror r 1 { s with ring := { s.ring with deliver := s.ring.deliver.erase r } }

/-- Whether a request comes from the source this device accepts into a window (R432). -/
def State.mirrorFrom (s : State) (r : RingPkt) : Bool :=
  r.pkt.hdr.srcDev = s.mirror.acceptFrom.toNat && decide (0 < s.mirror.acceptLen.toNat)

/-- Whether a request belongs to the pass this device has open. -/
def State.mirrorOpenFor (s : State) (r : RingPkt) : Bool :=
  s.mirrorFrom r && s.mirror.inOpen && nth 0 r.pkt.words 1 = s.mirror.inSeq.setWidth 64

/-- MIRROR_OPEN: the request is checked, and the pass record written with STATE 1 (R429-R432). -/
def execMirrorOpen (s : State) : Host.Outcome State Fault Refusal :=
  .next (mirrorServe 0 (fun r => s.mirrorFrom r && decide ((nth 0 r.pkt.words 2).toNat ≠ s.domain)) (fun r s =>
    let seq := bitsOf (nth 0 r.pkt.words 1) 0 32
    let bytes := (nth 0 r.pkt.words 3).toNat
    mirrorStore r s.mirror.acceptBase.toNat (passRecord s r.pkt.hdr.srcDev seq 1 bytes)
      (fun s => { s with mirror := { s.mirror with inSeq := BitVec.ofNat 32 seq, inOpen := true, inBytes := bytes } }) s) s)

/-- MIRROR_WRITE: a write inside the accept window beyond its record (R430, R432). -/
def execMirrorWrite (s : State) : Host.Outcome State Fault Refusal :=
  let lo := s.mirror.acceptBase.toNat + 64
  let hi := s.mirror.acceptBase.toNat + s.mirror.acceptLen.toNat
  .next (mirrorServe 1 (fun r =>
      let a := (nth 0 r.pkt.words 2).toNat
      let n := (nth 0 r.pkt.words 3).toNat
      s.mirrorOpenFor r && decide (lo ≤ a) && decide (a + n ≤ hi) && decide (n ≤ r.pkt.payload.length))
    (fun r s => mirrorStore r (nth 0 r.pkt.words 2).toNat (r.pkt.payload.take (nth 0 r.pkt.words 3).toNat) id s) s)

/-- MIRROR_COMMIT: the pass record is rewritten with STATE 2 (R430, R431). -/
def execMirrorCommit (s : State) : Host.Outcome State Fault Refusal :=
  .next (mirrorServe 2 (fun r => s.mirrorOpenFor r) (fun r s =>
    mirrorStore r s.mirror.acceptBase.toNat (passRecord s r.pkt.hdr.srcDev s.mirror.inSeq.toNat 2 s.mirror.inBytes)
      (fun s => { s with mirror := { s.mirror with inOpen := false } }) s) s)

end Sys2Proof.Machine
end

