-- ==== Sys2Proof/Machine/Dict.lean ====
section
/-! DEFINITION. The object dictionary's map: every object's index, subindex, type, access, size and kind (R535-R558 and the object
tables of the chapters R543 names). -/
namespace Sys2Proof.Machine

/-- TYPE codes of R526. -/
inductive OType where
  | bool | u8 | u16 | u32 | u64 | i32 | f32 | time | str | octets
  deriving DecidableEq, Repr

/-- The code of a type (R526). -/
def OType.code : OType → Nat
  | .bool => 1 | .u8 => 2 | .u16 => 3 | .u32 => 4 | .u64 => 5 | .i32 => 6 | .f32 => 7 | .time => 8 | .str => 9 | .octets => 10

/-- Bytes of a type of fixed size; 0 for STR and OCTETS (R526). -/
def OType.bytes : OType → Nat
  | .bool => 1 | .u8 => 1 | .u16 => 2 | .u32 => 4 | .u64 => 8 | .i32 => 4 | .f32 => 4 | .time => 8 | .str => 0 | .octets => 0

/-- Access codes (R17). -/
inductive OAcc where
  | ro | rw | wo | rwp | rwl
  deriving DecidableEq, Repr

/-- The code DESCRIBE gives an access (R524). -/
def OAcc.code : OAcc → Nat
  | .ro => 0 | .rw => 1 | .wo => 2 | .rwp => 3 | .rwl => 4

/-- Where an object's value comes from: a statistics or progress counter, a sum of counters, a settings value with its default and range,
an F32 settings value with the codes of its default and range, or a rule of its own. -/
inductive OSrc where
  | stat
  | progress
  | total (base count sub : Nat)
  | num (dflt lo hi : Nat)
  | float (dflt lo hi : BitVec 32)
  | own
  deriving DecidableEq, Repr

/-- A row of the map: `count` indices from `first`, `subs` subindices from `sub`. -/
structure ORow where
  first : Nat
  count : Nat
  sub : Nat
  subs : Nat
  typ : OType
  acc : OAcc
  size : Nat
  src : OSrc
  deriving DecidableEq, Repr

/-- One object of a fixed size. -/
def row1 (idx sub : Nat) (typ : OType) (acc : OAcc) (src : OSrc) : ORow :=
  { first := idx, count := 1, sub := sub, subs := 1, typ := typ, acc := acc, size := typ.bytes, src := src }
/-- One object of bytes or text. -/
def rowB (idx sub : Nat) (typ : OType) (acc : OAcc) (size : Nat) : ORow :=
  { first := idx, count := 1, sub := sub, subs := 1, typ := typ, acc := acc, size := size, src := .own }
/-- A block of objects over several indices. -/
def rowN (first count sub subs : Nat) (typ : OType) (acc : OAcc) (src : OSrc) : ORow :=
  { first := first, count := count, sub := sub, subs := subs, typ := typ, acc := acc, size := typ.bytes, src := src }
/-- A per-core object. -/
def rowC (sub : Nat) (typ : OType) (src : OSrc) : ORow := rowN 0x1000 1024 sub 1 typ .ro src
/-- A per-pack object. -/
def rowP (sub : Nat) (typ : OType) (acc : OAcc) (src : OSrc) : ORow := rowN 0x1800 16 sub 1 typ acc src
/-- `n` statistics counters of an index from a subindex. -/
def rowS (idx sub n : Nat) : ORow := rowN idx 1 sub n .u64 .ro .stat
/-- A sum of a counter over the cores. -/
def rowT (idx sub of_ : Nat) : ORow := row1 idx sub .u64 .ro (.total 0x1000 1024 of_)

/-- Identity, lifecycle and persistence (R546). -/
def rowsLife : List ORow :=
  [rowB 0x0100 1 .str .ro 21, rowB 0x0100 2 .str .ro 13, rowB 0x0100 3 .str .ro 13, row1 0x0100 4 .u8 .ro .own,
   rowB 0x0100 5 .str .ro 12, row1 0x0100 6 .u32 .ro .own, rowB 0x0100 7 .octets .ro 16, row1 0x0100 8 .u8 .ro .own,
   rowB 0x0100 9 .str .rwp 64, rowB 0x0100 0x0A .str .rwp 64,
   row1 0x0200 1 .u8 .ro .own, row1 0x0200 2 .u8 .ro .own, row1 0x0200 3 .bool .ro .own, row1 0x0200 4 .u8 .wo .own,
   row1 0x0200 5 .u32 .ro .own, row1 0x0200 6 .u32 .ro .own, row1 0x0200 7 .u32 .ro .own, row1 0x0200 8 .u8 .ro .own,
   rowB 0x0201 1 .octets .ro 32, row1 0x0201 2 .u16 .ro .own, row1 0x0201 3 .u8 .wo .own, row1 0x0201 4 .u32 .ro .own,
   row1 0x0202 1 .u8 .ro .own, row1 0x0202 2 .u8 .wo .own]

/-- Load, launch generator, job, Bark and mirror (R328, R347, R433). -/
def rowsJob : List ORow :=
  [row1 0x0210 1 .u64 .rw .own, row1 0x0210 2 .u8 .wo .own, row1 0x0210 3 .u8 .ro .own, row1 0x0210 4 .u64 .ro .own,
   row1 0x0210 5 .time .ro .own,
   row1 0x0212 1 .u16 .rw .own, row1 0x0212 2 .u8 .rw .own, row1 0x0212 3 .u32 .rw .own, row1 0x0212 4 .time .rw .own,
   row1 0x0212 5 .u8 .wo .own, row1 0x0212 6 .u64 .ro .own,
   row1 0x0220 1 .u16 .rw .own, row1 0x0220 2 .u16 .rw .own, row1 0x0220 3 .u8 .wo .own, row1 0x0220 4 .u8 .ro .own,
   row1 0x0220 5 .u32 .ro .own, row1 0x0220 6 .u8 .ro .own, row1 0x0220 7 .u16 .ro .own, row1 0x0220 8 .u16 .rwp (.num 0 0 0xFFFF),
   row1 0x0220 9 .u16 .ro .own, row1 0x0220 0x0A .u16 .ro .own,
   row1 0x0221 1 .bool .rwp (.num 1 0 1), row1 0x0221 2 .bool .wo .own, row1 0x0221 3 .u64 .ro .own, row1 0x0221 4 .time .ro .own,
   row1 0x0222 1 .u16 .rw .own, row1 0x0222 2 .u8 .wo .own, row1 0x0222 3 .u8 .ro .own, row1 0x0222 4 .u32 .ro .own,
   row1 0x0222 5 .u16 .rw .own, row1 0x0222 6 .u64 .rw .own, row1 0x0222 7 .u64 .rw .own,
   rowN 0x0223 1 0x01 16 .u64 .rw .own, rowN 0x0223 1 0x11 16 .u64 .rw .own]

/-- Resets, PCIe, the management port and its transfer slots (R494, R517, R534). -/
def rowsPorts : List ORow :=
  [row1 0x0230 1 .u16 .wo .own, row1 0x0230 2 .u8 .wo .own, row1 0x0230 3 .u16 .wo .own, row1 0x0230 4 .u8 .ro .own,
   row1 0x0230 5 .u32 .ro .own, row1 0x0230 6 .u32 .ro .own,
   row1 0x0240 1 .u8 .ro .own, row1 0x0240 2 .u8 .ro .own, row1 0x0240 3 .bool .ro .own, row1 0x0240 4 .u8 .rwp (.num 7 1 7),
   row1 0x0240 5 .bool .ro .own,
   rowB 0x0250 1 .octets .ro 6, row1 0x0250 2 .u8 .ro .own, row1 0x0250 3 .bool .rwp (.num 1 0 1), row1 0x0250 4 .u8 .rwp (.num 32 1 32),
   row1 0x0250 5 .u8 .rwp (.num 32 1 255), row1 0x0250 6 .u8 .rwp (.num 0 0 255), row1 0x0250 7 .bool .rwl (.num 1 0 1),
   rowB 0x0250 8 .octets .ro 18, row1 0x0250 9 .u8 .ro .own,
   rowN 0x0251 4 1 1 .u16 .ro .own, rowN 0x0251 4 2 1 .u8 .ro .own, rowN 0x0251 4 3 1 .u32 .ro .own, rowN 0x0251 4 4 2 .u64 .ro .own]

/-- FP32 codes of the ranges of R547: 0.5, 1, 1.5, 20, 80, 100, 105, 330, 900, 1800 and 10000. -/
def fHalf : BitVec 32 := 0x3F000000
/-- FP32 code of 1.0. -/
def fOne : BitVec 32 := 0x3F800000
/-- FP32 code of 1.5. -/
def f1p5 : BitVec 32 := 0x3FC00000
/-- FP32 code of 20.0. -/
def f20 : BitVec 32 := 0x41A00000
/-- FP32 code of 80.0. -/
def f80 : BitVec 32 := 0x42A00000
/-- FP32 code of 100.0. -/
def f100 : BitVec 32 := 0x42C80000
/-- FP32 code of 105.0. -/
def f105 : BitVec 32 := 0x42D20000
/-- FP32 code of 330.0. -/
def f330 : BitVec 32 := 0x43A50000
/-- FP32 code of 900.0. -/
def f900 : BitVec 32 := 0x44610000
/-- FP32 code of 1800.0. -/
def f1800 : BitVec 32 := 0x44E10000
/-- FP32 code of 10000.0. -/
def f10000 : BitVec 32 := 0x461C4000

/-- Power, thermal, coolant and calibration (R547, R548). -/
def rowsPower : List ORow :=
  [rowN 0x0400 1 1 4 .f32 .ro .own, row1 0x0400 5 .bool .ro .own, row1 0x0400 6 .f32 .rwp (.float f1800 f900 f1800), row1 0x0400 7 .f32 .ro .own,
   rowN 0x0401 1 1 4 .f32 .ro .own, row1 0x0401 5 .f32 .rwp (.float f100 f80 f105),
   rowN 0x0402 1 1 5 .f32 .ro .own, row1 0x0402 6 .u8 .rwp (.num 0 0 1), row1 0x0402 7 .f32 .rw (.float f100 0 f100),
   row1 0x0402 8 .f32 .rwp (.float f1p5 fHalf f20), row1 0x0402 9 .f32 .rwp (.float f330 fOne f10000), row1 0x0402 0x0A .u8 .rwp (.num 2 1 8),
   row1 0x0403 1 .bool .rwp (.num 1 0 1), row1 0x0403 2 .u16 .rwp (.num 500 0 5000),
   row1 0x0500 1 .u8 .ro .own, row1 0x0500 2 .u32 .ro .own, row1 0x0500 3 .bool .ro .own,
   rowB 0x0501 1 .octets .rwp 512, rowB 0x0502 1 .octets .rwp 64, rowB 0x0503 1 .octets .rwp 17408, rowB 0x0504 1 .octets .rwp 2048,
   rowB 0x0505 1 .octets .rwp 8192]

/-- Howl and time, firmware update, security and attestation (R34, R59, R517, R550, R551). -/
def rowsSec : List ORow :=
  [row1 0x0600 1 .time .ro .own, row1 0x0600 2 .u8 .ro .own, row1 0x0600 3 .time .ro .own, row1 0x0600 4 .u32 .ro .own,
   row1 0x0600 5 .bool .ro .own, rowN 0x0601 1 1 3 .i32 .ro .own,
   row1 0x0602 1 .time .ro .own, row1 0x0602 2 .u32 .ro .own, row1 0x0602 3 .bool .wo .own,
   rowN 0x0800 1 1 3 .u8 .ro .own, row1 0x0800 4 .u8 .wo .own, row1 0x0800 5 .u16 .rwl (.num 0xFFFF 0 0xFFFF),
   row1 0x0801 1 .u8 .ro .own, rowN 0x0801 1 2 4 .u32 .ro .own, rowN 0x0810 16 1 2 .u32 .ro .own,
   rowB 0x0A00 1 .octets .ro 32, rowB 0x0A00 2 .octets .ro 1952, rowB 0x0A00 3 .octets .ro 8192, rowB 0x0A00 4 .octets .ro 32,
   rowB 0x0A01 1 .octets .ro 32, rowB 0x0A01 2 .octets .ro 1952, rowB 0x0A01 3 .octets .wo 5429,
   rowB 0x0A02 1 .octets .wo 32, rowB 0x0A02 2 .octets .ro 16384, rowB 0x0A03 1 .octets .wo 32, rowB 0x0A03 2 .octets .ro 16384,
   row1 0x0A04 1 .u8 .ro .own, rowB 0x0A04 2 .octets .wo 3413, row1 0x0A04 3 .bool .wo .own,
   row1 0x0A10 1 .bool .rwl (.num 0 0 1)]

/-- Per-core objects (R544). -/
def rowsCore : List ORow :=
  [rowC 0x01 .u8 .own, rowC 0x02 .u64 .stat, rowC 0x03 .u32 .own, rowC 0x04 .u64 .progress, rowC 0x05 .u32 .own, rowC 0x06 .u16 .own,
   rowC 0x07 .u64 .stat, rowC 0x08 .u64 .stat, rowC 0x09 .u64 .stat, rowC 0x0A .u64 .stat, rowC 0x0B .u16 .own,
   rowN 0x1000 1024 0x20 5 .u64 .ro .stat, rowN 0x1000 1024 0x30 4 .u64 .ro .stat, rowN 0x1000 1024 0x40 4 .u64 .ro .stat,
   rowC 0x50 .u32 .own, rowC 0x51 .u64 .stat, rowC 0x52 .u64 .stat, rowC 0x53 .u64 .stat, rowC 0x54 .u64 .own, rowC 0x55 .u64 .stat,
   rowC 0x56 .u64 .progress, rowC 0x57 .u64 .stat, rowC 0x58 .u64 .stat,
   { first := 0x1000, count := 1024, sub := 0x59, subs := 1, typ := .octets, acc := .ro, size := 512, src := .own },
   rowN 0x1000 1024 0x60 4 .u64 .ro .stat, rowN 0x1000 1024 0x65 5 .u64 .ro .progress, rowC 0x70 .u64 .own, rowC 0x71 .u64 .own,
   rowN 0x1000 1024 0x72 6 .u64 .ro .stat, rowN 0x1000 1024 0x80 3 .u64 .ro .stat,
   rowN 0x1000 1024 0x90 1 .u32 .rw .own, rowC 0x91 .u64 .progress, rowN 0x1000 1024 0x92 8 .u64 .ro .progress]

/-- Per-pack objects (R545). -/
def rowsPack : List ORow :=
  [rowP 0x01 .u8 .ro .own, rowP 0x02 .u8 .ro .own, rowP 0x03 .u8 .rwp (.num 0 0 15), rowP 0x04 .u8 .ro .own, rowP 0x05 .f32 .ro .own,
   rowP 0x06 .f32 .ro .own, rowP 0x10 .u64 .ro .stat, rowP 0x11 .u8 .ro .own, rowP 0x30 .u64 .ro .stat, rowP 0x31 .u64 .ro .stat,
   rowP 0x32 .time .ro .own, rowP 0x33 .u32 .ro .own, rowP 0x34 .u64 .ro .stat, rowP 0x35 .u64 .ro .stat, rowP 0x36 .u64 .ro .stat,
   rowP 0x40 .u8 .ro .own, rowP 0x41 .u8 .ro .own, rowP 0x42 .time .ro .own, rowP 0x43 .u64 .ro .stat, rowP 0x44 .u64 .ro .stat,
   rowP 0x50 .u64 .ro .progress, rowP 0x51 .u64 .ro .stat]

/-- HBM stacks and fabric ports (R388, R433). -/
def rowsUnits : List ORow :=
  [rowN 0x2000 8 1 1 .u8 .ro .own, rowN 0x2000 8 2 1 .u8 .wo .own, rowN 0x2000 8 3 1 .f32 .ro .own, rowN 0x2000 8 4 5 .u64 .ro .stat,
   rowN 0x2000 8 9 1 .u64 .ro .own, rowN 0x2000 8 0x0A 2 .u64 .ro .stat, rowB 0x2008 1 .octets .ro 8192, rowN 0x2010 8 1 32 .u64 .ro .stat,
   rowN 0x2400 18 1 1 .u8 .ro .own, rowN 0x2400 18 2 1 .bool .rwp (.num 1 0 1), rowN 0x2400 18 3 1 .u16 .ro .own,
   rowN 0x2400 18 4 1 .i32 .ro .own, rowN 0x2400 18 5 1 .u64 .ro .progress, rowN 0x2400 18 6 8 .u64 .ro .stat]

/-- Checking, vet, muzzle, watchdogs, fault log, Sniff dump and debug windows (R187, R259, R294, R465, R494, R552). -/
def rowsCheck : List ORow :=
  [row1 0x3000 1 .u8 .rwp (.num 1 0 4), row1 0x3000 2 .time .ro .own, row1 0x3000 3 .u32 .ro .own,
   row1 0x3010 1 .u32 .rwp (.num 2000 250 60000), row1 0x3020 1 .time .ro .own, row1 0x3020 2 .u64 .ro .own,
   row1 0x3030 1 .bool .rwp (.num 1 0 1), row1 0x3030 2 .u8 .wo .own, row1 0x3030 3 .u8 .ro .own, row1 0x3030 4 .u16 .ro .own,
   rowB 0x3040 1 .octets .ro 256, rowB 0x3040 2 .octets .ro 4352, row1 0x3040 3 .u32 .ro .own, row1 0x3040 4 .time .ro .own,
   row1 0x3040 5 .u32 .ro .own, rowN 0x3050 1 1 4 .u32 .rwp (.num 1048576 16384 1073741824), row1 0x3050 5 .bool .rwp (.num 1 0 1),
   row1 0x3060 1 .u32 .ro .own, rowB 0x3060 2 .octets .ro 1024, row1 0x3060 3 .u16 .ro .own, row1 0x3060 4 .u16 .wo .own,
   row1 0x3070 1 .bool .rwp (.num 1 0 1), row1 0x3070 2 .u16 .wo .own, row1 0x3070 3 .u8 .ro .own, row1 0x3070 4 .u32 .ro .own,
   rowN 0x4000 2 1 1 .u64 .rwl .own,
   { first := 0x4000, count := 2, sub := 2, subs := 1, typ := .octets, acc := .ro, size := 65536, src := .own },
   { first := 0x4000, count := 2, sub := 3, subs := 1, typ := .octets, acc := .wo, size := 65536, src := .own },
   rowN 0x4000 2 4 1 .u32 .ro .own]

/-- Statistics and totals (R59, R116, R149, R187, R259, R294, R318, R328, R363, R388, R433, R465, R494, R517, R534, R547), and the Sniff
port (R556). -/
def rowsStats : List ORow :=
  [row1 0x5000 1 .bool .ro .own, row1 0x5000 2 .u32 .ro .own, row1 0x5000 3 .bool .wo .own,
   rowS 0x5010 1 8, rowS 0x5011 1 1, rowT 0x5011 2 0x07, rowT 0x5011 3 0x08, rowT 0x5011 4 0x09, rowT 0x5011 5 0x0A,
   rowT 0x5012 1 0x30, rowT 0x5012 2 0x31, rowT 0x5012 3 0x32, rowT 0x5012 4 0x33,
   rowT 0x5013 1 0x40, rowT 0x5013 2 0x41, rowT 0x5013 3 0x42, rowT 0x5013 4 0x43,
   rowT 0x5014 1 0x51, rowT 0x5014 2 0x52, rowT 0x5014 3 0x53, rowT 0x5014 4 0x55, rowS 0x5014 5 1, row1 0x5014 6 .u16 .ro .own,
   rowS 0x5015 1 1, rowT 0x5015 2 0x60, rowT 0x5015 3 0x61, rowS 0x5015 4 1,
   rowT 0x5016 1 0x72, rowT 0x5016 2 0x73, rowT 0x5016 3 0x74, rowT 0x5016 4 0x75, rowT 0x5016 5 0x76,
   rowS 0x5017 1 2, row1 0x5018 1 .u64 .ro (.total 0x1800 16 0x30), row1 0x5018 2 .u64 .ro (.total 0x1800 16 0x31),
   row1 0x5018 3 .u64 .ro (.total 0x1800 16 0x35),
   row1 0x5019 1 .u64 .ro (.total 0x2000 8 4), row1 0x5019 2 .u64 .ro (.total 0x2000 8 5), row1 0x5019 3 .u64 .ro (.total 0x2000 8 6),
   rowT 0x5019 4 0x82, rowS 0x501A 1 7, row1 0x501B 1 .u64 .ro (.total 0x1800 16 0x43), rowS 0x501B 2 3, row1 0x501B 5 .u32 .ro (.num 0 0 0),
   rowS 0x501B 6 2, rowS 0x501C 1 7, rowS 0x501D 1 7, rowS 0x501E 1 6, rowS 0x501F 1 3,
   row1 0x7000 1 .bool .rw .own, row1 0x7000 2 .u8 .rw (.num 8 4 255), rowN 0x7001 1 1 16 .u32 .rw .own]

/-- The whole map (R543). -/
def dictRows : List ORow :=
  rowsLife ++ rowsJob ++ rowsPorts ++ rowsPower ++ rowsSec ++ rowsCore ++ rowsPack ++ rowsUnits ++ rowsCheck ++ rowsStats

/-- Whether a row covers an index. -/
def ORow.covers (r : ORow) (idx : Nat) : Bool := decide (r.first ≤ idx) && decide (idx < r.first + r.count)

/-- The highest subindex of an index; none where the map has no such index (R535). -/
def numSubs (idx : Nat) : Option Nat :=
  let l := dictRows.filter (fun r => r.covers idx)
  if l.isEmpty then none else some (l.foldl (fun m r => max m (r.sub + r.subs - 1)) 0)

/-- The object an index and subindex name; subindex 0 is NUM_SUBS (R535). -/
def dictObj (idx sub : Nat) : Option ORow :=
  if sub = 0 then (numSubs idx).map (fun _ => row1 idx 0 .u8 .ro .own)
  else dictRows.find? (fun r => r.covers idx && decide (r.sub ≤ sub) && decide (sub < r.sub + r.subs))

/-- The region of the map an index lies in, by map order (R541, R543). -/
def regionOf (idx : Nat) : Nat :=
  if idx < 0x0200 then 0 else if idx < 0x0400 then 1 else if idx < 0x0500 then 2 else if idx < 0x0600 then 3 else if idx < 0x0800 then 4
  else if idx < 0x0A00 then 5 else if idx < 0x1000 then 6 else if idx < 0x1800 then 7 else if idx < 0x2000 then 8 else if idx < 0x2400 then 9
  else if idx < 0x3000 then 10 else if idx < 0x4000 then 11 else if idx < 0x5000 then 12 else if idx < 0x7000 then 13 else 14

/-- Whether a settings key is an RWP object of a set of regions. -/
def rwpKey (regions : Nat → Bool) (key : Nat) : Bool :=
  regions (regionOf (key / 256)) && (match dictObj (key / 256) (key % 256) with | some r => r.acc = .rwp | none => false)

/-- Every RWP object of a set of regions at its default (R541, R546). -/
def dropRwp (regions : Nat → Bool) (s : State) : State :=
  { s with
    settings := s.settings.filter (fun e => !rwpKey regions e.1)
    mgmt := { s.mgmt with blobs := if regions 0 then [] else s.mgmt.blobs } }

end Sys2Proof.Machine
end

