-- ==== Sys2Proof/Machine/PowerStates.lean ====
section
/-! DEFINITION. Start-up, power states, calibration loading and verified boot (POWER_ON … STARTUP_STEP_DONE, STATE_SERVICE, STATE_IDLE,
SAFE_ENTRY …; R541, R562, R563, R595-R614). -/
namespace Sys2Proof.Machine

/-- Beats in a second (R8). -/
def secBeats : Nat := 825000000

/-- Sizes of the five calibration objects (R548). -/
def calSize : Nat → Nat
  | 0 => 512 | 1 => 64 | 2 => 17408 | 3 => 2048 | _ => 8192

/-- An entry of SENSOR_CAL or ISENSE_CAL with GAIN 1.0 and OFFSET 0 (R596). -/
def unitGain : List Byte := leBytes 4 0x3F800000 ++ leBytes 4 0

/-- An ISLAND_TRIM entry's reset value (R597). -/
def unitTrim : List Byte := leBytes 16 (at_ 48 0x80 + at_ 40 0x80 + 40)

/-- A calibration object's bytes as the module keeps them: reserved bits are ignored (R6), so ISLAND_TRIM [63:56] and the reserved bytes and
lanes of SERDES_EQ hold 0 (R597, R598), and reserved entries of SENSOR_CAL hold GAIN 1.0 and OFFSET 0 (R596). -/
def calibKept (i : Nat) (l : List Byte) : List Byte :=
  l.mapIdx (fun k b =>
    match i with
    | 0 => if k < 248 then b else unitGain.getD (k % 8) 0
    | 2 => if k % 16 = 7 then 0 else b
    | 3 => if 1408 ≤ k || 12 ≤ k % 16 then 0 else b
    | _ => b)

/-- Generic defaults of a calibration object (R596-R599). -/
def genericObj : Nat → List Byte
  | 0 => (List.replicate 64 unitGain).flatten
  | 1 => (List.replicate 8 unitGain).flatten
  | 2 => (List.replicate 1088 unitTrim).flatten
  | i => calibKept i (fitTo 0 (calSize i) (Config.genericCal i))

/-- The generic defaults (R600). -/
def genericSet : CalSet := { origin := 2, written := 0, objs := (List.range 5).map (fun i => (i, genericObj i)) }

/-- A calibration object's bytes. -/
def CalSet.obj (c : CalSet) (i : Nat) : List Byte := fitTo 0 (calSize i) (tabGet [] c.objs i)

/-- The calibration record without its CRC: bytes 0 to 28,287 (R595). -/
def calRecord (c : CalSet) (layout : Nat) : List Byte :=
  strBytes "DVMCAL01" ++ leBytes 2 layout ++ leBytes 1 c.origin ++ leBytes 1 c.written ++ leBytes 4 28292
    ++ fitTo 0 12 (Config.manufacture 5) ++ List.replicate 36 0 ++ (List.range 5).flatMap c.obj

/-- CAL_CRC: the CRC of the record in flash (R548, R595). -/
def State.calCrc (s : State) : Nat :=
  if s.calib.good then crc32 (calRecord s.calib.flash (nth 0 s.power.layoutVersions 3)) else s.calib.badCrc.toNat

/-- A free fault code: the spec names no code for the record (log entry 3). -/
def freeRecord (s : State) : State := let f := s.fresh; writeFaultRecord (f.1.toNat % 256) 0 0 0 0 f.2

/-- The calibration set is loaded (R600, R601): the record, or generic defaults where its checks fail or its region was reset. -/
def loadCal (s : State) : State :=
  if s.calib.good then
    let lost := s.calib.flash.written ≠ 0x1F
    let s := { s with calib := { s.calib with inUse := s.calib.flash }, env := { s.env with calLost := lost } }
    if lost then s.alert 13 else s
  else
    (freeRecord { s with calib := { s.calib with inUse := genericSet }, env := { s.env with calLost := true } }).alert 13

/-- A component's commit record. -/
def State.fwComp (s : State) (c : Nat) : FwComp := tabGet .reset s.upd.comps c
/-- The state with a component's commit record changed. -/
def State.modComp (s : State) (c : Nat) (f : FwComp → FwComp) : State :=
  { s with upd := { s.upd with comps := tabMod .reset s.upd.comps c f } }
/-- A slot of a component. -/
def FwComp.fwSlot (c : FwComp) (i : Nat) : FwSlot := tabGet .empty c.slots i
/-- A component with a slot changed. -/
def FwComp.modSlot (c : FwComp) (i : Nat) (f : FwSlot → FwSlot) : FwComp := { c with slots := tabMod .empty c.slots i f }

/-- The public keys that verify a component: the vendor root's, or for component 5 the owner's (R574). -/
def State.signerKeys (s : State) (comp : Nat) : List Byte × List Byte :=
  if comp = 5 then (s.sec.edPub, s.sec.mlPub) else (Config.vendorEd, Config.vendorMl)

/-- Whether a dual signature verifies: both halves (R559). -/
def dualOk (keys : List Byte × List Byte) (msg sig : List Byte) : Bool :=
  Config.verifyEd25519 keys.1 msg (sig.take 64) && Config.verifyMlDsa keys.2 msg (sig.drop 64)

/-- Whether a slot verifies: valid, at or above the floor, signed, its body whole (R562, R563). -/
def State.slotVerifies (s : State) (bad : List (Fin 6 × Bool)) (comp i : Nat) : Bool :=
  let c := s.fwComp comp
  let x := c.fwSlot i
  x.valid && decide (c.floor ≤ x.secVer) && !bad.any (fun b => b.1.val = comp && bit01 b.2 = i)
    && (x.header.isEmpty || (dualOk (s.signerKeys comp) x.header x.sig && Config.sha512 x.body = x.digest))

/-- Mark a slot of the management firmware invalid and take the other (R562, R577). -/
def FwComp.fallBack (c : FwComp) : FwComp :=
  { (c.modSlot c.active (fun x => { x with valid := false })) with active := 1 - c.active, trial := false }

/-- A trial boot that is not confirmed is reverted: the previous slot is active, the result 0x13 (R562, R577). -/
def revertTrial (s : State) : State :=
  let s := s.modComp 1 FwComp.fallBack
  { s with upd := { s.upd with state := 7, result := 0x13, tried := false, trialSince := 0 } }

/-- The boot ROM chooses the slot to run: none where neither verifies (R562). -/
def bootRom (bad : List (Fin 6 × Bool)) (s : State) : Bool × State :=
  let s := if (s.fwComp 1).trial && s.upd.tried then revertTrial s else s
  let c := s.fwComp 1
  if s.slotVerifies bad 1 c.active then
    (true, if c.trial then { s with upd := { s.upd with tried := true } } else s)
  else
    let s := if c.trial then revertTrial s else s.modComp 1 FwComp.fallBack
    let a := (s.fwComp 1).active
    if s.slotVerifies bad 1 a then (true, s) else (false, s.modComp 1 (fun c => c.modSlot a (fun x => { x with valid := false })))

/-- Regions whose stored layout version differs from the firmware's (R541). -/
def State.layoutDiff (s : State) : List Nat :=
  let v := ((s.fwComp 1).fwSlot (s.fwComp 1).active).version
  (List.range 15).filter (fun i => nth 0 s.power.layoutVersions i ≠ Config.layoutVersion v i)

/-- The management controller boots: NODE_ID is sampled and layout versions are checked; a calibration record of another layout fails its
checks (R519, R541, R546, R600). -/
def bootController (nodeId : Nat) (s : State) : State :=
  let l := s.layoutDiff
  let v := ((s.fwComp 1).fwSlot (s.fwComp 1).active).version
  let calib := if l.contains 3 then { s.calib with good := false, badCrc := BitVec.ofNat 32 s.calCrc } else s.calib
  let s := dropRwp (fun r => l.contains r && r ≠ 3) s
  { s with
    calib := calib
    power := { s.power with
      booted := true, romService := false, cycles := s.power.cycles + 1, bootAt := s.clock, nodeId := nodeId
      layoutMask := (l.map (fun i => 2 ^ i)).sum
      layoutVersions := (List.range 15).map (Config.layoutVersion v) } }

/-- The slot a pack runs of components 2 and 5 falls back to the other where its own does not verify (R563). -/
def FwComp.packFallBack (c : FwComp) (p : Nat) : FwComp :=
  match tabGet 0 c.packSlot p with
  | 0 => c
  | n + 1 => { c with packSlot := tabSet 0 c.packSlot p (1 - n + 1) }

/-- Verify a per-pack component for every pack; none where a pack's component fails in both slots (R563). -/
def verifyPacks (bad : List (Fin 6 × Bool)) (comp : Nat) (s : State) : Option State :=
  (List.range 16).foldl (fun r p => match r with
    | none => none
    | some s =>
      match tabGet 0 (s.fwComp comp).packSlot p with
      | 0 => some s
      | n + 1 =>
        if s.slotVerifies bad comp n then some s
        else if s.slotVerifies bad comp (1 - n) then some (s.modComp comp (fun c => c.packFallBack p))
        else none) (some s)

/-- Verify a component with one active slot (R563). -/
def verifyActive (bad : List (Fin 6 × Bool)) (comp : Nat) (s : State) : Option State :=
  let a := (s.fwComp comp).active
  if s.slotVerifies bad comp a then some s
  else if s.slotVerifies bad comp (1 - a) then some (s.modComp comp (fun c => { c with active := 1 - a }))
  else none

/-- Start-up stops: ALERT_N is asserted and the module stays in Service (R563, R608). -/
def stall (s : State) : State := { s with power := { s.power with stalled := true } }

/-- A start-up step is complete and the next begins (R605). -/
def stepDone (n : Nat) (s : State) : State := { s with power := { s.power with step := n, doing := n + 1, stalled := false } }

/-- Step 3: the rails, the Howl, the keys, microcode and Retriever tables, and the islands' frequency steps; while HOLDUP_OK is low every pack is
clocked down (R29, R243, R371, R584, R605, R607). -/
def startRails (s : State) : State :=
  let power := s.power.starting = some .power
  let s := drawKeys { s with
    howl := if power then 0 else s.howl
    hbmKey := Config.trueRandom s.nonce
    nonce := s.nonce + 1
    power := { s.power with rails := true, howlOn := true, refLocked := s.power.refLocked || s.power.refOk } }
  let s := resetPacks s
  if s.env.holdupOk then s else clockDown (List.range 16) s

/-- Every stack and every enabled port begins its training (R605). -/
def startTraining (s : State) : State :=
  let s := trainPorts s
  { s with hbmStacks := (List.range 8).foldl (fun t i => tabSet Stack.reset t i { Stack.reset with state := .training, temp := (s.stack i).temp }) [] }

/-- What the completion of a start-up step does (R605, R608). -/
def startStep (f : StartFindings) (s : State) : State :=
  match s.power.doing with
  | 0 => stepDone 0 s
  | 1 =>
    let r := bootRom f.badSlots s
    if r.1 then stepDone 1 (bootController f.nodeId.val r.2)
    else { r.2 with power := { r.2.power with booted := true, romService := true } }
  | 2 => stepDone 2 (loadCal s)
  | 3 => match verifyPacks f.badSlots 2 s with
    | none => stall s
    | some s => match verifyPacks f.badSlots 5 s with
      | none => stall s
      | some s => stepDone 3 (startRails s)
  | 4 => startTraining (stepDone 4 s)
  | 5 => match verifyActive f.badSlots 3 s with
    | none => stall s
    | some s => match verifyActive f.badSlots 4 s with
      | none => stall s
      | some s => stepDone 5 (failPorts f.ports (trainStacks f.hbmStacks s))
  | 6 =>
    let m := s.vet.mapSeq
    let s := fullVet f.vet s
    stepDone 6 { s with power := { s.power with mapChanged := s.vet.mapSeq ≠ m } }
  | 7 => stepDone 7 (resetPacks s)
  | _ =>
    let c := s.power.mapChanged
    let s := reportIdle s
    if c then s.alert 2 else s

/-- STARTUP_STEP_DONE: the step in progress of a power-on, a cold reset or a shutdown's end completes (R605). The recovery service of
the boot ROM is in no step (R562, R608). -/
def execStartupStepDone (findings : StartFindings) (s : State) : Host.Outcome State Fault Refusal :=
  match if s.power.romService then none else s.power.starting with
  | none => .next s
  | some .warm => .next s
  | some .power => .next (startStep findings s)
  | some .cold => .next (startStep findings s)

/-- A physical core's record in flash: its muzzle and its repair entries (R258, R450, R542). -/
def PhysCore.stored (k : PhysCore) : PhysCore := { PhysCore.reset with muzzled := k.muzzled, reason := k.reason, slice := k.slice, repair := k.repair }

/-- The update flow as flash keeps it: a per-pack commit that was interrupted stays staged with 0x14 (R531, R575, R578, R584). -/
def Upd.stored (u : Upd) : Upd :=
  if u.state = 3 && u.comp ≠ 1 then { u with state := 4, result := 0x14, moving := none, todo := [] } else { u with moving := none, todo := [] }

/-- KIND 2 transfers, which management flash keeps (R531, R542). -/
def storedSlots (t : Tab Transfer) : Tab Transfer := t.filter (fun e => e.2.kind = 2)

/-- Everything but management flash and the pins is lost; the commands that wait are the senders' (R17, R531, R539, R542, R549, R602). `vin` is whether VIN stays applied. -/
def powerLoss (s : State) : State :=
  { State.reset with
    clock := s.clock, nonce := s.nonce, pending := s.pending
    settings := s.settings.filter (fun e => rwpKey (fun _ => true) e.1)
    mgmt := { Mgmt.reset with slots := storedSlots s.mgmt.slots, lastId := s.mgmt.lastId, blobs := s.mgmt.blobs }
    calib := { s.calib with inUse := { origin := 2, written := 0, objs := [] } }
    sec := { Sec.reset with owner := s.sec.owner, edPub := s.sec.edPub, mlPub := s.sec.mlPub, epoch := s.sec.epoch, sessSeq := s.sec.sessSeq }
    upd := s.upd.stored
    vet := { Vet.reset with phys := (s.vet.phys.map (fun e => (e.1, e.2.stored))).filter (fun e => e.2 ≠ .reset) }
    job := { Job.reset with epoch := s.job.epoch }
    env := { Env.reset with holdupOk := s.env.holdupOk, holdupSince := s.env.holdupSince }
    power := { Power.reset with
      cycles := s.power.cycles, hours := s.power.hours + (if s.power.dev = .off then 0 else s.clock - s.power.vinAt), vinAt := s.clock
      flashWrites := s.power.flashWrites, layoutVersions := s.power.layoutVersions, refOk := s.power.refOk } }

/-- Start-up begins at step 0 (R604, R605). -/
def powerUp (s : State) : State :=
  { s with power := { s.power with dev := .service, starting := some .power, step := 0, doing := 0, vinAt := s.clock } }

/-- The module restarts as at power-on (R577, R604). -/
def restart (s : State) : State := powerUp (powerLoss s)

/-- POWER_ON: VIN rises past 37.0 V (R604). -/
def execPowerOn (s : State) : Host.Outcome State Fault Refusal := .next (if s.power.dev = .off then powerUp s else s)

/-- POWER_OFF: VIN falls below 35.0 V (R604). -/
def execPowerOff (s : State) : Host.Outcome State Fault Refusal := .next (if s.power.dev = .off then s else powerLoss s)

/-- MOD_RESET_ASSERT: an assertion of at least 10 µs and its release (R604, R621, R622). -/
def execModResetAssert (s : State) : Host.Outcome State Fault Refusal := .next (if s.power.dev = .off then s else restart s)

/-- POWER_ON_HOURS (R546). -/
def State.hoursNow (s : State) : Nat :=
  (s.power.hours + (if s.power.dev = .off then 0 else s.clock - s.power.vinAt)) / (3600 * secBeats)

/-- The number of an F32 code. -/
def f32Num (c : BitVec 32) : Num := decodeNum .fp32 c.toNat
/-- An F32 code of a number that an integer ratio gives exactly or nearly: `m`·2^e rounded. -/
def f32Of (x : Num) : BitVec 32 := BitVec.ofNat 32 (f32Bits x)
/-- An integer as a number. -/
def natNum (n : Nat) : Num := .fin false n 0

/-- T_DIE_LIMIT as the controller applies it, with an offset in °C: 5 °C lower while CAL_LOST is 1 (R587, R600). -/
def State.dieLimit (s : State) (plus : Int) : Num :=
  addF32 (f32Num (BitVec.ofNat 32 (s.setting 0x0401 5 f100.toNat))) (numOfInt (plus - (if s.env.calLost then 5 else 0)))

/-- Whether any reading of a list is at least a limit. -/
def anyAtLeast (l : List (BitVec 32)) (x : Num) : Bool := l.any (fun t => !(f32Num t).isNan && !numLt (f32Num t) x)

/-- Since when a reading has been 0 while the valve is open; none while it is not (R589, R591). -/
def State.stopSince (s : State) (reading : BitVec 32) (since : Option Nat) : Option Nat :=
  if numEq (f32Num reading) Num.zero && numLt Num.zero (f32Num s.env.valve) then some (since.getD s.clock) else none

/-- Whether flow is lost: no FLOW_PULSE edge for 3 s with the valve open, which is FLOW, the pulses of the last 1 s, at 0 for 2 s (R589,
R591). -/
def State.flowLost (s : State) : Bool := s.env.flowStopSince.any (fun t => decide (t + 2 * secBeats ≤ s.clock))

/-- Whether a cause of Safe that sensors report persists: an island at T_DIE_LIMIT + 15 °C, a stack at 105 °C, VIN below 36 V, or flow
lost with an island at T_DIE_LIMIT (R590, R610). -/
def State.safeCausePersists (s : State) : Bool :=
  let r := s.env.now
  anyAtLeast r.packTemp (s.dieLimit 15) || anyAtLeast r.stackTemp (natNum 105) || numLt (f32Num r.vin) (natNum 36)
    || (s.flowLost && anyAtLeast r.packTemp (s.dieLimit 0))

/-- Whether something that forbids a shutdown runs (R604). -/
def State.shutdownBusy (s : State) : Bool :=
  s.load.state = .checking || s.load.state = .installing || s.upd.state = 3 || !s.faults.dumps.isEmpty || s.mirror.state = 1
    || s.vet.maintState = 1

/-- Service at rest: the rails off and STARTUP_STEP 1 (R602, R612, R613). -/
def toService (s : State) : State :=
  { (railsOff s) with power := { (railsOff s).power with dev := .service, starting := none, step := 1, ready := false } }

/-- Whether Safe may be left (R612). -/
def State.mayLeaveSafe (s : State) : Bool :=
  let r := s.env.now
  decide (s.power.safeAt + 10 * secBeats ≤ s.clock) && !numLt (f32Num r.vin) (natNum 38) && !numLt (natNum 46) (f32Num r.vin)
    && s.env.holdupOk && !numLt (f32Num r.flow) (f32Num (BitVec.ofNat 32 (s.setting 0x0402 8 f1p5.toNat)))
    && !(f32Num r.tCoolIn).isNan && !numLt (f32Num r.tCoolIn) (natNum 10) && !numLt (natNum 45) (f32Num r.tCoolIn)
    && s.power.safeCause ≠ 5

/-- STATE_COMMAND 1 (R604, R612, R613, R628). -/
def stateService (s : State) : Nat × State :=
  match s.power.dev with
  | .off => (stState, s)
  | .service => if s.power.starting.isSome then (stBusy, s) else (stDone, s)
  | .idle =>
    if s.shutdownBusy then (stBusy, s)
    else
      let s := tapYield s
      let s := if s.job.state = .none then s else (jobLeave s).2
      (stDone, toService s)
  | .run => (stState, s)
  | .safe => if s.mayLeaveSafe then (stDone, tapYield (toService s)) else (stState, s)

/-- STATE_COMMAND 2 (R604, R628). -/
def stateIdle (s : State) : Nat × State :=
  match s.power.dev with
  | .off => (stState, s)
  | .service =>
    if s.power.starting.isSome then (stBusy, s)
    else if s.safeCausePersists then (stState, s)
    else
      let s := tapYield s
      (stDone, { s with power := { s.power with starting := some .cold, step := 1, doing := 2, stalled := false } })
  | .idle => (stDone, s)
  | .run => (stDone, s)
  | .safe => (stState, s)

/-- STATE_SERVICE (R613). -/
def execStateService (s : State) : Host.Outcome State Fault Refusal := .next (s.command stateService)
/-- STATE_IDLE (R604). -/
def execStateIdle (s : State) : Host.Outcome State Fault Refusal := .next (s.command stateIdle)

/-- A cause of Safe, by its code (R610). -/
def execSafeEntry (cause : Fin 6) (s : State) : Host.Outcome State Fault Refusal :=
  if cause.val = 0 || s.power.dev = .off || s.power.dev = .safe || !s.power.booted then .next s
  else .next (enterSafe cause.val s)

/-- SAFE_RAILS_OFF: 2^16 beats after Safe entry (R611). -/
def execSafeRailsOff (s : State) : Host.Outcome State Fault Refusal :=
  if s.power.dev = .safe && s.power.railsDue && decide (s.power.safeAt + 2 ^ 16 ≤ s.clock) then .next (railsOff s) else .next s

/-- VALVE_HOLD_END: 60 s after Safe entry (R611). -/
def execValveHoldEnd (s : State) : Host.Outcome State Fault Refusal :=
  if s.power.valveHold && decide (s.power.safeAt + 60 * secBeats ≤ s.clock) then
    .next { s with power := { s.power with valveHold := false } }
  else .next s

end Sys2Proof.Machine
end

