-- ==== Sys2Proof/Machine/Envelope.lean ====
section
/-! DEFINITION. The envelope controller: sensors, throttling, the coolant valve, the hold-up bank (THERMAL_MODEL_UPDATE …
HOLDUP_RESTORE, FLOW_LOW; R580-R594). -/
namespace Sys2Proof.Machine

/-- A setting held as an F32 code. -/
def State.fsetting (s : State) (idx sub : Nat) (dflt : BitVec 32) : Num := f32Num (BitVec.ofNat 32 (s.setting idx sub dflt.toNat))

/-- Whether a code is NaN. -/
def f32Nan (c : BitVec 32) : Bool := (f32Num c).isNan

/-- NaN as the sensor objects read it (R547). -/
def nanCode : BitVec 32 := 0x7FC00000

/-- The whole microjoules of `x` watts over 1 ms: the floor of 1000·x, 0 for no number (R547). -/
def microJoules (c : BitVec 32) : Nat :=
  match mulExact (f32Num c) (natNum 1000) with
  | .fin false m e => if 0 ≤ e then m * 2 ^ e.toNat else m / 2 ^ (-e).toNat
  | .fin true _ _ => 0
  | .inf _ => 0
  | .nan => 0

/-- Whether FLOW is below FLOW_MIN (R593). -/
def State.flowLow (s : State) : Bool := numLt (f32Num s.env.now.flow) (s.fsetting 0x0402 8 f1p5)

/-- A thermistor reading outside −20–120 °C reads NaN (R591). -/
def thermistor (c : BitVec 32) : BitVec 32 := if numLt (f32Num c) (numOfInt (-20)) || numLt (natNum 120) (f32Num c) then nanCode else c

/-- Readings as the sensor objects give them (R591). -/
def Readings.seen (r : Readings) : Readings := { r with tCoolIn := thermistor r.tCoolIn, tCoolOut := thermistor r.tCoolOut }

/-- Whether a condition for an emergency clock-down of a pack shows in the readings: its hottest island 8 °C over the limit, or for every pack
a stack at 95 °C, input power over 2,200 W, VIN below 38 V, flow lost, or HOLDUP_OK low (R589). -/
def State.clockdownCond (s : State) (p : Nat) : Bool :=
  let r := s.env.now
  anyAtLeast [nth 0 r.packTemp p] (s.dieLimit 8) || anyAtLeast r.stackTemp (natNum 95) || numLt (natNum 2200) (f32Num r.pin)
    || numLt (f32Num r.vin) (natNum 38) || s.flowLost || !s.env.holdupOk

/-- The clock-downs in force as the readings leave them: a pack's ends when its condition has been clear for 100 ms (R588). -/
def settleClockdown (s : State) : State :=
  let since : Tab Nat := (List.range 16).foldl (fun t p => if s.clockdownCond p then tabSet 0 t p s.clock else t) s.env.clearSince
  let kept := (List.range 16).filter (fun p => fieldOf s.env.clockdown p 1 = 1 && decide (s.clock < tabGet 0 since p + 100 * msBeats))
  { s with env := { s.env with clearSince := since, clockdown := (kept.map (fun p => 2 ^ p)).sum } }

/-- The alert bits whose conditions the readings show (R594). -/
def State.envAlerts (s : State) : List Nat :=
  let r := s.env.now
  (if numLt (f32Num r.vin) (natNum 38) || numLt (natNum 46) (f32Num r.vin) then [8] else [])
    ++ (if s.env.holdupOk then [] else [9]) ++ (if s.flowLow then [10] else []) ++ (if s.env.calLost then [13] else [])
    ++ (if f32Nan r.tCoolIn || f32Nan r.tCoolOut || s.env.pumpStopSince.any (fun t => decide (t + 3 * secBeats ≤ s.clock)) then [14] else [])

/-- Since when each pack has been 5 °C below its limit: the beat plus 1, 0 while it is not (R587). -/
def State.coolTab (s : State) : Tab Nat :=
  (List.range 16).foldl (fun t p =>
    let x := f32Num (nth 0 s.env.now.packTemp p)
    let cool := numLt x (s.dieLimit (-5))
    tabSet 0 t p (if !cool then 0 else if tabGet 0 s.env.coolSince p = 0 then s.clock + 1 else tabGet 0 s.env.coolSince p)) []

/-- A digest of the launch queues as the forecast reads them (R582; log entry 18). -/
def State.queueDigest (s : State) : Nat :=
  (List.range 16).foldl (fun a p =>
    let k := s.pack p
    (a * 2 ^ 64 + (match k.queue with | [] => 0 | d :: _ => d.launch.toNat)) * 8 + k.state.code) (s.howl.toNat)

/-- THERMAL_MODEL_UPDATE: readings are taken, the model's nodes, I_env, PIN_PEAK, ENERGY_J and the alerts follow (R547, R581, R585, R588, R591, R593,
R594). -/
def execThermalModelUpdate (readings : Readings) (s : State) : Host.Outcome State Fault Refusal :=
  if !s.power.booted then .next s
  else
    let r := readings.seen
    let tin := if f32Nan r.tCoolIn then f32Of (natNum 45) else r.tCoolIn
    let e := s.env
    let node (i : Nat) (x : BitVec 32) : BitVec 32 := Config.thermalNode i x r.pin tin r.tCoolOut r.flow
    let uj := e.energy + microJoules r.pin
    let s := { s with
      hbmStacks := (List.range 8).foldl (fun t i => tabMod Stack.reset t i (fun k => { k with temp := nth 0 r.stackTemp i })) s.hbmStacks
      env := { e with
        now := r, die := node 0 e.die, plate := node 1 e.plate, coolant := node 2 e.coolant
        ienv := Config.envelopeCurrent e.ienv (Config.forecastPower s.queueDigest) r.iin
        pinPeak := if f32Lt e.pinPeak r.pin then r.pin else e.pinPeak
        energy := uj % 1000000
        flowStopSince := s.stopSince r.flow e.flowStopSince, pumpStopSince := s.stopSince r.pumpRpm e.pumpStopSince } }
    let s := settleClockdown { s with env := { s.env with
      coolSince := s.coolTab
      flowLowSince := if s.flowLow then some (e.flowLowSince.getD s.clock) else none
      flowCut := e.flowCut && s.flowLow } }
    .next (s.envAlerts.foldl State.alert (s.bump 0x501F 3 (uj / 1000000)))

/-- The sustained power limit in force: POWER_LIMIT, or 900 W while flow has been low for 2 s (R593). -/
def State.powerLimit (s : State) : Num :=
  let l := s.fsetting 0x0400 6 f1800
  if s.env.flowCut && numLt (natNum 900) l then natNum 900 else l

/-- The pack of a list whose measure is largest; the lowest number of several. -/
def bestPack (l : List Nat) (lt : Nat → Nat → Bool) : Option Nat :=
  l.foldl (fun r p => match r with | none => some p | some q => some (if lt q p then p else q)) none

/-- A pack's throttle step set; a pack without a program follows at once (R37, R587). -/
def setThrottle (p n : Nat) (s : State) : State := freqIdle p (s.modPack p (fun k => { k with throttle := n }))

/-- A raise of a throttle step by 1, at most to 15 (R587). -/
def raiseThrottle (p : Nat) (s : State) : State :=
  let n := (s.pack p).throttle
  if 15 ≤ n then s else ((setThrottle p (n + 1) s).bump 0x501F 1 1).alert 11

/-- THROTTLE_RAISE: of a hot pack, or with none named of the running pack of highest power while input power exceeds the limit; each at
most every 10 ms (R587). -/
def execThrottleRaise (pack : Option PackId) (s : State) : Host.Outcome State Fault Refusal :=
  match pack with
  | some q =>
    let p := q.val
    if anyAtLeast [nth 0 s.env.now.packTemp p] (s.dieLimit 0) && decide (tabGet 0 s.env.raisedAt p ≤ s.clock) then
      .next (raiseThrottle p { s with env := { s.env with raisedAt := tabSet 0 s.env.raisedAt p (s.clock + 10 * msBeats) } })
    else .next s
  | none =>
    if numLt s.powerLimit (f32Num s.env.now.pinAvg) && decide (s.env.powerRaisedAt ≤ s.clock) then
      match bestPack ((List.range 16).filter (fun p => (s.pack p).state = .running))
          (fun q p => f32Lt (nth 0 s.env.now.packPower q) (nth 0 s.env.now.packPower p)) with
      | none => .next s
      | some p => .next (raiseThrottle p { s with env := { s.env with powerRaisedAt := s.clock + 10 * msBeats } })
    else .next s

/-- THROTTLE_LOWER: of a pack cool for 100 ms, every 100 ms, or with none named of the pack of highest throttle step while input power is
below 0.95 of the limit, every 1 s; not while an emergency clock-down of the pack is in force (R587, R588). -/
def execThrottleLower (pack : Option PackId) (s : State) : Host.Outcome State Fault Refusal :=
  let free (p : Nat) : Bool := fieldOf s.env.clockdown p 1 = 0 && decide (0 < (s.pack p).throttle)
  match pack with
  | some q =>
    let p := q.val
    let t := tabGet 0 s.env.coolSince p
    if free p && t ≠ 0 && decide (t - 1 + 100 * msBeats ≤ s.clock) then
      .next (setThrottle p ((s.pack p).throttle - 1) { s with env := { s.env with coolSince := tabSet 0 s.env.coolSince p (s.clock + 1) } })
    else .next s
  | none =>
    if numLt (mulExact (natNum 100) (f32Num s.env.now.pinAvg)) (mulExact (natNum 95) s.powerLimit) && decide (s.env.powerLowAt + secBeats ≤ s.clock) then
      match bestPack ((List.range 16).filter free) (fun q p => decide ((s.pack q).throttle < (s.pack p).throttle)) with
      | none => .next s
      | some p => .next (setThrottle p ((s.pack p).throttle - 1) { s with env := { s.env with powerLowAt := s.clock } })
    else .next s

/-- A number held to an interval (R592). -/
def clampNum (x lo hi : Num) : Num := if numLt x lo then lo else if numLt hi x then hi else x

/-- The automatic duty and the integral of R592; every operation rounds to F32. -/
def valveDuty (s : State) : Num × Num :=
  let ahead := s.setting 0x0403 2 500 * msBeats
  let p := if s.setting 0x0403 1 1 = 1 then f32Num (Config.forecastPower (s.queueDigest * 2 ^ 40 + ahead)) else f32Num s.env.now.pinAvg
  let limit := s.fsetting 0x0400 6 f1800
  let ff := divNum (mulF32 (natNum 100) p) limit
  let err := subF32 (f32Num s.env.die) (subF32 (s.fsetting 0x0401 5 f100) (natNum 10))
  let i := clampNum (addF32 (f32Num s.env.integral) (mulF32 (.fin false 1 (-1)) err)) (numOfInt (-40)) (natNum 40)
  (clampNum (addF32 (addF32 ff (mulF32 (natNum 4) err)) i) (natNum 20) (natNum 100), i)

/-- VALVE_UPDATE: every 10 ms the duty is computed anew; 100 % while an emergency clock-down is in force, and for 60 s after Safe entry
(R592, R611). -/
def execValveUpdate (s : State) : Host.Outcome State Fault Refusal :=
  if !s.power.booted || s.power.valveHold then .next s
  else
    let auto := s.setting 0x0402 6 0 = 0
    let d := valveDuty s
    let duty := if s.env.clockdown ≠ 0 then f100 else if auto then f32Of d.1 else BitVec.ofNat 32 (s.setting 0x0402 7 f100.toNat)
    .next { s with env := { s.env with valve := duty, integral := if auto then f32Of d.2 else s.env.integral } }

/-- IIN_EXCESS: IIN exceeds I_env by more than 4 A for 100 µs: every pack is clocked down, and I_env is the measured IIN (R583). -/
def execIinExcess (iin : BitVec 32) (s : State) : Host.Outcome State Fault Refusal :=
  if !s.power.booted || !numLt (addF32 (f32Num s.env.ienv) (natNum 4)) (f32Num iin) then .next s
  else .next (clockDown (List.range 16) { s with env := { s.env with ienv := iin, now := { s.env.now with iin := iin } } })

/-- FLOW_LOW: FLOW has been below FLOW_MIN for 2 s (R593). -/
def execFlowLow (s : State) : Host.Outcome State Fault Refusal :=
  match s.env.flowLowSince with
  | none => .next s
  | some t => .next (if t + 2 * secBeats ≤ s.clock then { s with env := { s.env with flowCut := true } } else s)

end Sys2Proof.Machine
end

