-- ==== Sys2Proof/Machine/Security.lean ====
section
/-! DEFINITION. Ownership, sessions, debug unlock and attestation (LOCK, UNLOCK, SESSION_TIMEOUT, DEBUG_UNLOCK, DEBUG_LOCK, DEBUG_EXPIRY,
ATTEST_NONCE, DOE_REQUEST, ATTEST_REPORT_DONE; R540, R559-R572). -/
namespace Sys2Proof.Machine

/-- A little-endian field of a byte list. -/
def fld (l : List Byte) (off n : Nat) : Nat := leValue ((l.drop off).take n)
/-- Bytes of a list from an offset. -/
def bytesAt (l : List Byte) (off n : Nat) : List Byte := (l.drop off).take n
/-- Whether every byte of a field is 0. -/
def zeroAt (l : List Byte) (off n : Nat) : Bool := (bytesAt l off n).all (fun b => b = 0)

/-- The path code of a requester: 0 management port, 1 mailbox. -/
def Requester.path (r : Requester) : Nat := bit01 r.mailbox

/-- Whether a session is the one a request names and comes from (R566). -/
def Session.isOf (x : Session) (r : Requester) : Bool :=
  x.number = r.session && x.path = r.path && (r.mailbox || (x.addr = r.addr && x.port = r.port))

/-- Whether a request is in an open owner session (R566). -/
def State.inSession (s : State) (r : Requester) : Bool := r.session ≠ 0 && s.sec.sessions.any (fun x => x.isOf r)

/-- The session of a request is used (R566). -/
def touchSession (r : Requester) (s : State) : State :=
  if s.inSession r then
    { s with sec := { s.sec with sessions := s.sec.sessions.map (fun x => if x.isOf r then { x with lastUse := s.clock } else x) } }
  else s

/-- Whether an RWL write or a DBG_WRITE is accepted (R540). -/
def State.rwlOk (s : State) (r : Requester) : Bool :=
  match s.sec.owner with
  | .unowned => true
  | .owned => true
  | .locked => s.inSession r

/-- LOCK_COMMAND 1 and 2 (R540, R564). -/
def lockCommand (lock : Bool) (r : Requester) (s : State) : Nat × State :=
  match s.sec.owner with
  | .unowned => (stState, s)
  | .owned => if !s.inSession r then (stLock, s) else if lock then (stDone, { s with sec := { s.sec with owner := .locked } }) else (stState, s)
  | .locked => if !s.inSession r then (stLock, s) else if lock then (stState, s) else (stDone, { s with sec := { s.sec with owner := .owned } })

/-- LOCK (R564). -/
def execLock (from_ : Requester) (s : State) : Host.Outcome State Fault Refusal := .next ((touchSession from_ s).command (lockCommand true from_))
/-- UNLOCK (R564). -/
def execUnlock (from_ : Requester) (s : State) : Host.Outcome State Fault Refusal := .next ((touchSession from_ s).command (lockCommand false from_))

/-- SESSION_TIMEOUT: every session without a request for 600 s closes (R566). -/
def execSessionTimeout (s : State) : Host.Outcome State Fault Refusal :=
  .next { s with sec := { s.sec with sessions := s.sec.sessions.filter (fun x => decide (s.clock < x.lastUse + 600 * secBeats)) } }

/-- Whether any pack has a program loaded. -/
def State.anyProgram (s : State) : Bool := (List.range 16).any (fun p => (s.progOf p).isSome)

/-- A session opened; a fifth closes the one used least recently (R566). -/
def openSession (x : Session) (l : List Session) : List Session :=
  let l := l.filter (fun y => y.number ≠ x.number)
  let old := l.foldl (fun m y => min m y.lastUse) (l.headD x).lastUse
  (if l.length < 4 then l else l.eraseIdx (l.findIdx (fun y => y.lastUse = old))) ++ [x]

/-- The first code of a list whose test holds; 0 for none (R572, R576). -/
def firstCode (l : List (Bool × Nat)) : Nat :=
  match l.find? (fun x => x.1) with
  | some x => x.2
  | none => 0

/-- Why an owner message is refused, 0 for none, by ascending code (R564, R565, R572). -/
def State.ownerRefusal (s : State) (m : List Byte) : Nat :=
  let kind := fld m 8 1
  let path := fld m 9 1
  let opens := kind = 3
  let claim := kind = 1
  let form := bytesAt m 0 8 ≠ strBytes "DVMOWNR1" || !(decide (1 ≤ kind) && decide (kind ≤ 4)) || !zeroAt m 10 2 || !zeroAt m 46 2 || !zeroAt m 64 8
    || (if opens then decide (1 < path) else path ≠ 0) || (!opens && !zeroAt m 32 8)
    || (if opens || kind = 4 then zeroAt m 40 4 else !zeroAt m 40 4)
    || (!(opens && path = 0) && (!zeroAt m 44 2 || !zeroAt m 48 16)) || (!claim && !zeroAt m 72 1984)
  let want := if claim then s.sec.epoch + 1 else s.sec.epoch
  let keys := if claim then (bytesAt m 72 32, bytesAt m 104 1952) else (s.sec.edPub, s.sec.mlPub)
  let state := match s.sec.owner with
    | .unowned => !claim
    | .owned => claim || (kind = 2 && s.anyProgram)
    | .locked => claim || kind = 2
  firstCode [(form, 0x20), (bytesAt m 16 16 ≠ fitTo 0 16 (Config.manufacture 7), 0x21),
    (BitVec.ofNat 32 (fld m 12 4) ≠ want || (opens && decide (fld m 32 8 ≤ s.sec.sessSeq.toNat)), 0x22),
    (!dualOk keys (bytesAt m 0 2056) (m.drop 2056), 0x23), (state, 0x24)]

/-- An owner message judged and acted on: its reason code and the state (R564-R566). -/
def ownerMessage (m : List Byte) (s : State) : Nat × State :=
  let e := s.ownerRefusal m
  if e ≠ 0 then (e, s)
  else
    let x := s.sec
    let number := fld m 40 4
    let y : Sec :=
      if fld m 8 1 = 1 then
        { x with owner := .owned, edPub := bytesAt m 72 32, mlPub := bytesAt m 104 1952, epoch := x.epoch + 1, sessSeq := 0 }
      else if fld m 8 1 = 2 then { x with owner := .unowned, edPub := [], mlPub := [], sessions := [] }
      else if fld m 8 1 = 3 then
        { x with
          sessSeq := BitVec.ofNat 64 (fld m 32 8)
          sessions := openSession { number := number, path := fld m 9 1, addr := leValue (bytesAt m 48 16).reverse, port := fld m 44 2, lastUse := s.clock } x.sessions }
      else { x with sessions := x.sessions.filter (fun y => y.number ≠ number) }
    (0, { s with sec := y })

/-- Why an unlock token is refused, 0 for none (R567, R568, R572). -/
def State.tokenRefusal (s : State) (r : Requester) (m : List Byte) : Nat :=
  firstCode [(bytesAt m 0 8 ≠ strBytes "DVMDBGU1" || !zeroAt m 32 8, 0x20), (bytesAt m 8 16 ≠ fitTo 0 16 (Config.manufacture 7), 0x21),
    (BitVec.ofNat 32 (fld m 24 4) ≠ s.sec.epoch || decide (fld m 28 4 ≤ s.hoursNow), 0x22),
    (!dualOk (Config.vendorEd, Config.vendorMl) (bytesAt m 0 40) (m.drop 40), 0x23), (s.sec.owner ≠ .unowned && !s.inSession r, 0x24)]

/-- A token written to DEBUG_UNLOCK: its reason code and the state (R568). -/
def debugUnlock (m : List Byte) (r : Requester) (s : State) : Nat × State :=
  let e := s.tokenRefusal r m
  if e ≠ 0 then (e, s)
  else (0, { s with sec := { s.sec with debug := true, debugSinceBoot := true, debugUntil := fld m 28 4 } })

/-- DEBUG_UNLOCK: a token of 3,413 B; a refusal answers 0x0D with its reason (R526, R567, R568, R572). -/
def execDebugUnlock (token : List Byte) (from_ : Requester) (s : State) : Host.Outcome State Fault Refusal :=
  let s := touchSession from_ s
  if !s.power.booted || s.power.romService then .next s
  else if token.length ≠ 3413 then .next (State.answer (stType, s))
  else
    let r := debugUnlock token from_ s
    .next (if r.1 = 0 then State.answer (stDone, r.2) else { r.2 with out := [BitVec.ofNat 8 stRefused, BitVec.ofNat 8 r.1] })

/-- DEBUG_STATE becomes 0: the Sniff port is off in the same beat, and EXTEST, CLAMP and HIGHZ end (R558, R568, R628). -/
def debugOff (s : State) : State :=
  tapYield { s with sec := { s.sec with debug := false }, settings := tabErase s.settings (statKey 0x7000 1) }

/-- DEBUG_LOCK: writing 1 (R568). -/
def execDebugLock (value : Bool) (s : State) : Host.Outcome State Fault Refusal :=
  .next (s.command (fun s => (stDone, if value then debugOff s else s)))

/-- DEBUG_EXPIRY: POWER_ON_HOURS has reached UNTIL_HOURS (R568). -/
def execDebugExpiry (s : State) : Host.Outcome State Fault Refusal :=
  .next (if s.sec.debug && decide (s.sec.debugUntil ≤ s.hoursNow) then debugOff s else s)

/-- A key identifier (R560). -/
def keyId (ed ml : List Byte) : List Byte := (Config.sha512 (ed ++ ml)).take 32

/-- Packs that use a slot of a per-pack component (R570, R575). -/
def FwComp.packsOn (c : FwComp) (i : Nat) : Nat := ((List.range 16).map (fun p => if tabGet 0 c.packSlot p = i + 1 then 2 ^ p else 0)).sum

/-- A measurement record (R570). -/
def measure (comp slot state : Nat) (version : BitVec 32) (secVer floor : Nat) (digest : List Byte) (packs first count : Nat) : List Byte :=
  leBytes 1 comp ++ leBytes 1 slot ++ leBytes 1 state ++ [0] ++ leBytes 4 version.toNat ++ leBytes 2 secVer ++ leBytes 2 floor
    ++ [0, 0, 0, 0] ++ fitTo 0 64 digest ++ leBytes 2 packs ++ leBytes 2 first ++ leBytes 2 count ++ List.replicate 10 0

/-- Records of a component's valid slots (R570). -/
def State.measureComp (s : State) (c : Nat) : List (List Byte) :=
  let k := s.fwComp c
  ((List.range 2).filter (fun i => (k.fwSlot i).valid)).map (fun i =>
    let x := k.fwSlot i
    let perPack := c = 2 || c = 5
    let active := if perPack then k.packsOn i ≠ 0 else k.active = i
    let staged := s.upd.state = 4 && s.upd.comp = c && s.upd.slot = i
    measure c i (if staged then 2 else if active then 0 else 1) x.version x.secVer k.floor x.digest (if perPack then k.packsOn i else 0) 0 0)

/-- Records of the loaded images (R570). -/
def State.measureImages (s : State) : List (List Byte) :=
  (s.progs.filter (fun e => e.2.packs ≠ 0)).map (fun e =>
    measure 7 0 0 0 0 0 (s.imgDigest e.2.imageAddr) e.2.packs e.2.ctxFirst e.2.ctxCount)

/-- The report of a path over its nonce, signed (R559, R569). -/
def State.attestReport (s : State) (path : Nat) (a : Attest) : List Byte :=
  let m := [measure 6 0 0 (BitVec.ofNat 32 (Config.romVersion 0)) (Config.romVersion 1) (Config.romVersion 2) Config.romDigest 0 0 0]
    ++ (List.range 5).flatMap (fun i => s.measureComp (i + 1)) ++ s.measureImages
  let body := strBytes "DVMATST1" ++ leBytes 2 1 ++ leBytes 1 path ++ [0] ++ leBytes 4 (128 + 96 * m.length) ++ fitTo 0 32 a.nonce
    ++ fitTo 0 16 (Config.manufacture 7) ++ leBytes 8 a.startHowl.toNat ++ leBytes 1 s.sec.owner.code ++ leBytes 1 (bit01 s.sec.debug)
    ++ leBytes 1 (bit01 s.sec.debugSinceBoot) ++ leBytes 1 s.calib.inUse.origin ++ leBytes 4 s.sec.epoch.toNat
    ++ (if s.sec.owner = .unowned then List.replicate 32 0 else fitTo 0 32 (keyId s.sec.edPub s.sec.mlPub))
    ++ leBytes 4 s.calCrc ++ leBytes 2 m.length ++ List.replicate 10 0 ++ m.flatten
  body ++ fitTo 0 3373 (Config.signDevice body)

/-- A nonce starts a path's report; the other paths are unaffected (R569). -/
def startAttest (path : Nat) (nonce : List Byte) (s : State) : State :=
  { s with sec := { s.sec with
    attest := tabSet Attest.none s.sec.attest path { nonce := nonce, startHowl := s.howl, pending := true, report := [] } } }

/-- ATTEST_NONCE: 32 B on a path, true for the mailbox (R551, R569). -/
def execAttestNonce (mailbox : Bool) (nonce : List Byte) (s : State) : Host.Outcome State Fault Refusal :=
  .next (s.command (fun s => if nonce.length ≠ 32 then (stType, s) else (stDone, startAttest (bit01 mailbox) nonce s)))

/-- DOE_REQUEST: the nonce of a DOE request starts the report of PATH 2 (R571). -/
def execDoeRequest (nonce : BitVec 256) (s : State) : Host.Outcome State Fault Refusal :=
  .next (if s.power.booted && !s.power.romService then startAttest 2 (leBytes 32 nonce.toNat) s else s)

/-- ATTEST_REPORT_DONE: a path's report is complete; the DOE report is its response, left in `out` (R569, R571). -/
def execAttestReportDone (path : Fin 3) (s : State) : Host.Outcome State Fault Refusal :=
  let a := tabGet Attest.none s.sec.attest path.val
  if !a.pending then .next s
  else
    let r := s.attestReport path.val a
    let s := { s with sec := { s.sec with attest := tabSet Attest.none s.sec.attest path.val { a with pending := false, report := r } } }
    .next (if path.val = 2 then { s with out := r } else s)

end Sys2Proof.Machine
end

