-- ==== Sys2Proof/Machine/Update.lean ====
section
/-! DEFINITION. Firmware update and the hold-up bank (UPDATE_COMMIT, UPDATE_ABANDON, PACK_COMMIT_DONE, TRIAL_CONFIRM, TRIAL_TIMEOUT,
HOLDUP_LOSS, HOLDUP_RESTORE; R572-R579, R584). -/
namespace Sys2Proof.Machine

/-- Whether a component moves pack by pack (R574). -/
def perPack (comp : Nat) : Bool := comp = 2 || comp = 5

/-- UPDATE_PACKS (R550). -/
def State.updatePacks (s : State) : List Nat := packsIn (s.setting 0x0800 5 0xFFFF)

/-- Packs a component targets (R574). -/
def State.targetPacks (s : State) (comp : Nat) : List Nat := if perPack comp then s.updatePacks else List.range 16

/-- The conditions of R579 on a component, by ascending code; 0 for none. The recovery service of the boot ROM has none. -/
def State.updateBlocked (s : State) (comp : Nat) : List (Bool × Nat) :=
  let l := s.targetPacks comp
  if s.power.romService then []
  else
    [(l.any (fun p => (s.progOf p).isSome || (s.pack p).teardown.isSome)
        || (comp = 3 && (s.job.state = .forming || s.job.state = .running)), 0x09),
     (f32Lt s.env.now.vin f40V || !s.env.holdupOk, 0x0A), (s.flowLow, 0x0B),
     (s.power.dev = .safe || (s.power.starting.isSome && !s.power.stalled) || s.faults.recovery = 1 || s.faults.recovery = 2
        || (perPack comp && l.any (fun p => (s.vetPack p).held)), 0x0C)]

/-- Whether an update step needs an owner session that the request is not in (R576). -/
def State.updateLocked (s : State) (r : Requester) : Bool := s.sec.owner = .locked && !s.inSession r

/-- The slot an image of a component goes to: the inactive one, or for a per-pack component one that no pack uses; none where both are in
use (R576, R578). -/
def State.freeSlot (s : State) (comp : Nat) : Option Nat :=
  let c := s.fwComp comp
  if perPack comp then (if c.packsOn 0 = 0 then some 0 else if c.packsOn 1 = 0 then some 1 else none) else some (1 - c.active)

/-- Version of the running management firmware. -/
def State.mgmtVersion (s : State) : BitVec 32 := ((s.fwComp 1).fwSlot (s.fwComp 1).active).version

/-- Why the header of an image of a transfer length is refused; 0 for none (R572, R573, R576). -/
def State.headerRefusal (s : State) (r : Requester) (h : List Byte) (length : Nat) : Nat :=
  let comp := fld h 11 1
  let body := fld h 24 8
  firstCode ([(bytesAt h 0 8 ≠ strBytes "DVMFWIM1" || fld h 8 2 ≠ 1 || !zeroAt h 37 11 || !zeroAt h 112 144 || decide (2 ≤ fld h 22 2), 0x01),
    (fld h 12 4 ≠ 0x1088 || fld h 10 1 ≠ 0xB1, 0x02),
    (comp = 0 || decide (5 < comp) || fld h 36 1 ≠ bit01 (comp = 5) || (s.power.romService && comp ≠ 1), 0x03),
    (decide (fld h 20 2 < (s.fwComp comp).floor), 0x06),
    (length ≠ 4096 + body || body = 0 || decide (2 ^ 42 - 4096 < body), 0x07), (s.updateLocked r, 0x0D),
    (comp = 5 && s.sec.owner = .unowned, 0x0E), (decide (s.mgmtVersion.toNat < fld h 32 4) && !s.power.romService, 0x0F)]
    ++ s.updateBlocked comp ++ [((s.freeSlot comp).isNone, 0x12)])

/-- A slot of the component being received marked invalid (R576). -/
def dropStaged (s : State) : State := s.modComp s.upd.comp (fun c => c.modSlot s.upd.slot (fun _ => .empty))

/-- UPDATE_STATE and UPDATE_RESULT set. -/
def setUpdate (st result : Nat) (s : State) : State := { s with upd := { s.upd with state := st, result := result } }

/-- A refusal at steps 2 to 4: UPDATE_STATE 6, the reason, and the slot invalid (R576). `own` is whether the header had been accepted. -/
def refuseUpdate (own : Bool) (code : Nat) (s : State) : State := setUpdate 6 code (if own then dropStaged s else s)

/-- A header is accepted: a staged image is abandoned with 0x11, and the component's slot receives (R576). -/
def acceptHeader (h : List Byte) (s : State) : State :=
  let comp := fld h 11 1
  let s := if s.upd.state = 4 then setUpdate 1 0x11 (dropStaged s) else setUpdate 1 s.upd.result s
  dropStaged { s with upd := { s.upd with comp := comp, slot := (s.freeSlot comp).getD 0, header := h } }

/-- Why the signatures of an image are refused when its first four blocks are in; 0 for none (R573, R576). -/
def State.imageRefusal (s : State) (b : List Byte) : Nat :=
  let keys := s.signerKeys s.upd.comp
  let h := b.take 256
  firstCode [(!Config.verifyEd25519 keys.1 h (bytesAt b 256 64), 0x04), (!Config.verifyMlDsa keys.2 h (bytesAt b 320 3309), 0x05),
    (!zeroAt b 3629 467, 0x07)]

/-- The image is whole: its digest is checked and it is staged (R576). The reason of a refusal, 0 for none. In the recovery service its
slot is the one the next boot tries (R562). -/
def stageImage (b : List Byte) (s : State) : Nat × State :=
  let h := s.upd.header
  if Config.sha512 (b.drop 4096) ≠ bytesAt h 48 64 then (0x08, refuseUpdate true 0x08 s)
  else
    let x : FwSlot :=
      { valid := true, version := BitVec.ofNat 32 (fld h 16 4), secVer := fld h 20 2, raise := fld h 22 1 % 2 = 1, digest := bytesAt h 48 64
        body := b.drop 4096, header := h, sig := bytesAt b 256 3373 }
    (0, setUpdate 4 0 (s.modComp s.upd.comp (fun c => c.modSlot s.upd.slot (fun _ => x))))

/-- After a commit the floor rises where the image asks, and slots below it that nothing uses are invalid (R577). -/
def raiseFloor (comp : Nat) (s : State) : State :=
  s.modComp comp (fun c =>
    let x := c.fwSlot s.upd.slot
    if !x.raise then c
    else
      let f := max c.floor x.secVer
      let c := { c with floor := f }
      (List.range 2).foldl (fun c i =>
        if (c.fwSlot i).secVer < f && !(if perPack comp then c.packsOn i ≠ 0 else c.active = i) then c.modSlot i (fun x => { x with valid := false })
        else c) c)

/-- The next pack of a per-pack commit enters pack reset; with none left the commit is done (R578). -/
def nextMove (s : State) : State :=
  match s.upd.todo with
  | [] =>
    let s := setUpdate 5 0 { s with upd := { s.upd with moving := none } }
    if (s.fwComp s.upd.comp).packsOn (1 - s.upd.slot) = 0 then raiseFloor s.upd.comp s else s
  | p :: t =>
    let s := (packCores p).foldl (fun s c => s.modCore c (fun k => { k with inReset := true })) (abandonSlice p s)
    { (s.modPack p (fun k => { k with state := .inReset })) with upd := { s.upd with moving := some p, todo := t } }

/-- Why a commit is refused; 0 for none (R576, R579). -/
def State.commitRefusal (s : State) (r : Requester) : Nat :=
  let l := s.updateBlocked s.upd.comp ++ [(s.updateLocked r, 0x0D)]
  firstCode l

/-- UPDATE_COMMAND 1: the staged image is committed as its component requires; `flash` is whether its commit record is written (R572,
R574-R579). -/
def updateCommit (r : Requester) (flash : Bool) (s : State) : Nat × State :=
  if s.upd.state ≠ 4 then (if s.upd.state = 3 then stBusy else stState, s)
  else
    let e := s.commitRefusal r
    let c := s.upd.comp
    if e ≠ 0 then (stState, { s with upd := { s.upd with result := e } })
    else if !flash then (stFlash, setUpdate 7 0x10 s)
    else if c = 1 then
      let s := s.modComp 1 (fun k => { k with active := s.upd.slot, trial := true })
      (stDone, restart { s with upd := { s.upd with state := 3, tried := false, trialSince := s.clock } })
    else if perPack c then
      let l := s.updatePacks.filter (fun p => tabGet 0 (s.fwComp c).packSlot p ≠ s.upd.slot + 1)
      (stDone, nextMove (setUpdate 3 s.upd.result { s with upd := { s.upd with todo := l } }))
    else
      let s := raiseFloor c (s.modComp c (fun k => { k with active := s.upd.slot }))
      let s := if c = 3 && s.power.rails then trainPorts s else s
      (stDone, setUpdate 5 0 s)

/-- UPDATE_COMMIT (R576). -/
def execUpdateCommit (from_ : Requester) (flash : Bool) (s : State) : Host.Outcome State Fault Refusal :=
  .next ((touchSession from_ s).command (updateCommit from_ flash))

/-- UPDATE_COMMAND 2: the staged image is abandoned with 0x11 (R572, R576). -/
def updateAbandon (r : Requester) (s : State) : Nat × State :=
  if s.upd.state ≠ 4 then (if s.upd.state = 3 then stBusy else stState, s)
  else if s.updateLocked r then (stState, { s with upd := { s.upd with result := 0x0D } })
  else (stDone, setUpdate 0 0x11 (dropStaged s))

/-- UPDATE_ABANDON (R576). -/
def execUpdateAbandon (from_ : Requester) (s : State) : Host.Outcome State Fault Refusal :=
  .next ((touchSession from_ s).command (updateAbandon from_))

/-- A pack of a commit is released with its units as after a reset, held safe where a finding holds it (R462, R578). -/
def releaseMoved (p : Nat) (s : State) : State :=
  let held := (s.vetPack p).held
  let s := (packCores p).foldl (fun s c => s.modCore c (fun k => k.released held)) s
  s.modPack p (fun k => { k with
    state := if held then .heldSafe else .empty, retr := { Retriever.reset with
      tagGen := bumpTags 8 k.retr.tagGen, stopped := held, tableErr := if s.upd.comp = 5 then [] else k.retr.tableErr } })

/-- The slices of a pack's cores after new microcode, with what they found (R445, R578). -/
def packVet (p : Nat) (l : List VetFinding) (s : State) : State :=
  let s := l.foldl (fun s x =>
    let n := x.core.val
    let u := (packPhys p).idxOf n
    if physPack n ≠ p || x.retriever || (s.phys n).muzzled || !x.finding.fits u x.slice.val || x.finding = .pass then s
    else applyFinding p n x.slice.val x.finding (s.bump 0x501B 2 1)) s
  s.bump (0x1800 + p) 0x43 (64 * ((packPhys p).filter (fun n => !(s.phys n).muzzled)).length)

/-- PACK_COMMIT_DONE: the pack in reset is on the new slot, after its slices for component 2; it is released and the next begins (R578). -/
def execPackCommitDone (found : List VetFinding) (s : State) : Host.Outcome State Fault Refusal :=
  match s.upd.moving with
  | none => .next s
  | some p =>
    let s := if s.upd.comp = 2 then packVet p found s else s
    let s := s.modComp s.upd.comp (fun c => { c with packSlot := tabSet 0 c.packSlot p (s.upd.slot + 1) })
    .next (nextMove (releaseMoved p s))

/-- TRIAL_CONFIRM: the new management firmware serves the port; the floor may rise (R577, R584). -/
def execTrialConfirm (s : State) : Host.Outcome State Fault Refusal :=
  let c := s.fwComp 1
  if !(c.trial && s.upd.tried && s.power.booted && !s.power.romService && s.env.holdupOk) then .next s
  else
    let s := s.modComp 1 (fun c => { c with trial := false })
    .next (raiseFloor 1 (setUpdate 5 0 { s with upd := { s.upd with slot := c.active, tried := false } }))

/-- TRIAL_TIMEOUT: 30 s without confirmation, HOLDUP_OK high: the boot ROM reverts to the previous slot, with 0x13 (R577, R584). -/
def execTrialTimeout (s : State) : Host.Outcome State Fault Refusal :=
  if (s.fwComp 1).trial && s.upd.tried && s.env.holdupOk && decide (s.upd.trialSince + 30 * secBeats ≤ s.clock) then .next (restart (revertTrial s))
  else .next s

/-- HOLDUP_LOSS: every pack is clocked down, no flash write starts, a per-pack commit stops with its image staged and 0x14, fusing stops,
and the alert is set (R584). -/
def execHoldupLoss (s : State) : Host.Outcome State Fault Refusal :=
  if !s.env.holdupOk then .next s
  else
    let s := { s with env := { s.env with holdupOk := false, holdupSince := s.clock } }
    if !s.power.booted then .next s
    else
      let s := clockDown (List.range 16) s
      let s := match s.upd.moving with
        | none => s
        | some p => setUpdate 4 0x14 (releaseMoved p { s with upd := { s.upd with moving := none, todo := [] } })
      let s := if s.vet.maintState = 1 && s.vet.maintAction = 1 then setMaint 4 s else s
      .next (s.alert 9)

/-- HOLDUP_RESTORE: HOLDUP_OK has been high again for 100 ms; the trial's 30 s count on (R584). -/
def execHoldupRestore (s : State) : Host.Outcome State Fault Refusal :=
  if s.env.holdupOk then .next s
  else .next { s with
    env := { s.env with holdupOk := true }
    upd := { s.upd with trialSince := s.upd.trialSince + (s.clock - s.env.holdupSince) } }

end Sys2Proof.Machine
end

