-- ==== Sys2Proof/Machine/ObjRead.lean ====
section
/-! DEFINITION. Reads of the object dictionary: every object's value, the debug windows, and the reads with an effect (DBG_DATA_READ,
PIN_PEAK_READ; R17, R535-R558 and the object tables of the other chapters). -/
namespace Sys2Proof.Machine

/-- What the dictionary answers to one object: a value, a status with the first bytes of a body, nothing yet because the object waits, or
nothing at all because a power loss or reset cut the flash write. -/
inductive ObjRes where
  | ok (value : List Byte)
  | err (status : Nat) (body : List Byte)
  | wait
  | lost
  deriving DecidableEq, Repr

/-- The hottest valid reading of a list; 0 for no readings, NaN where none is valid (R547). -/
def hottest (l : List (BitVec 32)) : BitVec 32 :=
  l.foldl (fun m t => if f32Nan m then t else if f32Nan t then m else if numLt (f32Num m) (f32Num t) then t else m) (l.headD 0)

/-- Name objects: VENDOR, PRODUCT, PART_NUMBER, SERIAL, MODULE_UID and the labels (R546). -/
def State.nameOf (s : State) (sub : Nat) : List Byte :=
  match sub with
  | 1 => strBytes "Valtoell Microsystems"
  | 2 => strBytes "Dvormas D1088"
  | 3 => strBytes "DVM-1088-640A"
  | 5 => fitTo 0 12 (Config.manufacture 5)
  | 7 => fitTo 0 16 (Config.manufacture 7)
  | n => tabGet [] s.mgmt.blobs (statKey 0x0100 n)

/-- Version of a slot as its object reads it; 0 when invalid (R550). -/
def FwSlot.seen (x : FwSlot) : Nat := if x.valid then x.version.toNat else 0

/-- Version that a pack runs of a per-pack component; 0 when none (R550). -/
def State.packVersion (s : State) (comp p : Nat) : Nat :=
  match tabGet 0 (s.fwComp comp).packSlot p with
  | 0 => 0
  | n + 1 => ((s.fwComp comp).fwSlot n).version.toNat

/-- STREAM_STATES of a core (R75, R116); 0 with no host (R544). -/
def State.streamStates (s : State) (c : Nat) : Nat :=
  if (s.hostOf c).isNone then 0 else ((List.range 8).map (fun i => at_ (4 * i) ((s.core c).stream i).st.code)).sum

/-- COLLAR_OVF_MASK of a core (R116); 0 with no host (R544). -/
def State.ovfMask (s : State) (c : Nat) : Nat :=
  if (s.hostOf c).isNone then 0 else ((List.range 16).map (fun i => at_ i (bit01 ((s.core c).collar i).ovf))).sum

/-- CORE_HOST of a core (R544). -/
def State.coreHost (s : State) (c : Nat) : Nat :=
  match s.hostOf c with
  | some n => at_ 6 (n / 34) + n % 34
  | none => 0xFFFF

/-- REPAIR_MAP of a core: the entries of its host (R255, R259). -/
def State.repairMap (s : State) (c : Nat) : List Byte :=
  match s.hostOf c with
  | some n => (List.range 256).flatMap (fun i => leBytes 2 (tabGet 0 (s.phys n).repair i).toNat)
  | none => List.replicate 512 0

/-- A Bowl mask of a core: bit b for Bowl b (R318). -/
def State.bowlMask (s : State) (c : Nat) (f : Bowl → Bool) : Nat :=
  ((List.range 64).map (fun b => at_ b (bit01 (f ((s.core c).bowl b))))).sum

/-- Effective checking level of a pack, as of its last step boundary; 0 without a program (R183, R187). -/
def State.packCheckLevel (s : State) (p : Nat) : Nat := if (s.progOf p).isSome then (s.pack p).level else 0

/-- An entry of HEEL_SHIFT_MAP (R451). -/
def State.heelEntry (s : State) (h : Nat) : Nat :=
  let east := h % 2 = 1
  at_ 17 (s.muzzledIn (h / 2) east) + (((halfCols east).mapIdx (fun k pc => at_ k (bit01 (s.phys (physAt pc (h / 2))).muzzled))).sum)

/-- A record of PHYS_CORE_MAP (R466). -/
def State.physRecord (s : State) (n : Nat) : Nat :=
  let k := s.phys n
  if k.muzzled then at_ 24 (k.reason % 256) + at_ 18 (k.slice % 64) + at_ 16 2 + 0x3FF
  else match s.heldBy n with
    | some c => c
    | none => at_ 16 1 + 0x3FF

/-- A byte of DISTANCE_TABLE (R382). -/
def distanceOf (c stack : Nat) : Nat :=
  let f := fetchCol c stack
  2 * ((if f ≤ colOf c then colOf c - f else f - colOf c) + (if stack < 4 then rowOf c else 31 - rowOf c))

/-- SOFT_REPAIRS: valid, unfused entries of the device (R259). -/
def State.softRepairs (s : State) : Nat :=
  (s.vet.phys.map (fun e => (e.2.repair.filter (fun r => repValid r.2 && !repFused r.2)).length)).sum

/-- The transfer in a slot. -/
def State.transfer (s : State) (t : Nat) : Transfer := tabGet .free s.mgmt.slots t

/-- Numbers of the identity, lifecycle, load, job, reset, PCIe and management port objects (R328, R347, R433, R494, R517, R534, R546). -/
def State.lowNum (s : State) (idx sub : Nat) : Nat :=
  match idx, sub with
  | 0x0100, 4 => 0xB1
  | 0x0100, 6 => leValue ((Config.manufacture 6).take 4)
  | 0x0100, 8 => leValue ((Config.manufacture 8).take 1)
  | 0x0200, 1 => s.power.dev.code
  | 0x0200, 2 => s.power.step
  | 0x0200, 3 => bit01 s.power.ready
  | 0x0200, 5 => (s.clock - s.power.bootAt) / secBeats
  | 0x0200, 6 => s.power.cycles
  | 0x0200, 7 => s.hoursNow
  | 0x0200, 8 => s.power.safeCause
  | 0x0201, 2 => s.power.layoutMask
  | 0x0201, 4 => s.power.flashWrites
  | 0x0202, 1 => s.sec.owner.code
  | 0x0210, 1 => s.imageAddr
  | 0x0210, 3 => s.load.state.code
  | 0x0210, 4 => s.load.result.toNat
  | 0x0210, 5 => s.load.resultTime.toNat
  | 0x0212, 1 => s.gen.packs.toNat
  | 0x0212, 2 => bit01 s.gen.gated
  | 0x0212, 3 => s.gen.period.toNat
  | 0x0212, 4 => s.gen.first.toNat
  | 0x0212, 6 => s.gen.nextStep.toNat
  | 0x0220, 1 => s.job.coord.toNat
  | 0x0220, 2 => s.job.extent.toNat
  | 0x0220, 4 => s.job.state.code
  | 0x0220, 5 => s.job.epoch.toNat
  | 0x0220, 6 => s.job.startResult
  | 0x0220, 7 => s.job.parent.toNat
  | 0x0220, 9 => s.job.lastDead.toNat
  | 0x0220, 0x0A => s.job.deadCount.toNat
  | 0x0221, 3 => s.job.lastBark.toNat
  | 0x0221, 4 => s.job.lastBarkTime.toNat
  | 0x0222, 1 => s.mirror.partner.toNat
  | 0x0222, 3 => s.mirror.state
  | 0x0222, 4 => s.mirror.seq.toNat
  | 0x0222, 5 => s.mirror.acceptFrom.toNat
  | 0x0222, 6 => s.mirror.acceptBase.toNat
  | 0x0222, 7 => s.mirror.acceptLen.toNat
  | 0x0223, n => if n ≤ 16 then (tabGet 0 s.mirror.src (n - 1)).toNat else (tabGet 0 s.mirror.dst (n - 17)).toNat
  | 0x0230, 4 => s.faults.recovery
  | 0x0230, 5 => s.faults.lastReset.toNat
  | 0x0230, 6 => s.faults.warmMs
  | 0x0240, 1 => s.host.rate
  | 0x0240, 2 => s.host.width
  | 0x0240, 3 => bit01 s.host.flitMode
  | 0x0240, 5 => bit01 s.host.vfEnable
  | 0x0250, 2 => s.power.nodeId
  | 0x0250, 9 => s.mgmt.subMask
  | i, 1 => (s.transfer (i - 0x0251)).id
  | i, 2 => let t := s.transfer (i - 0x0251); if t.id = 0 then 0 else if t.upload then 2 else 1
  | i, 3 => (s.transfer (i - 0x0251)).next
  | i, 4 => (s.transfer (i - 0x0251)).length
  | i, _ => let t := s.transfer (i - 0x0251); at_ 56 t.kind + t.target % 2 ^ 40

/-- Numbers of the power, calibration, Howl, update and security objects (R34, R59, R547-R551). -/
def State.midNum (s : State) (idx sub : Nat) : Nat :=
  let r := s.env.now
  match idx, sub with
  | 0x0400, 1 => r.vin.toNat
  | 0x0400, 2 => r.iin.toNat
  | 0x0400, 3 => r.pin.toNat
  | 0x0400, 4 => s.env.pinPeak.toNat
  | 0x0400, 5 => bit01 s.env.holdupOk
  | 0x0400, 7 => f20.toNat
  | 0x0401, 1 => (hottest r.packTemp).toNat
  | 0x0401, 2 => (hottest (r.packTemp.take 8)).toNat
  | 0x0401, 3 => (hottest (r.packTemp.drop 8)).toNat
  | 0x0401, 4 => s.env.plate.toNat
  | 0x0402, 1 => r.tCoolIn.toNat
  | 0x0402, 2 => r.tCoolOut.toNat
  | 0x0402, 3 => r.flow.toNat
  | 0x0402, 4 => r.pumpRpm.toNat
  | 0x0402, 5 => s.env.valve.toNat
  | 0x0500, 1 => s.calib.inUse.origin
  | 0x0500, 2 => s.calCrc
  | 0x0500, 3 => bit01 s.env.calLost
  | 0x0600, 1 => s.howl.toNat
  | 0x0600, 2 => s.howlState
  | 0x0600, 3 => s.power.ppsCapture.toNat
  | 0x0600, 4 => s.power.ppsCount.toNat
  | 0x0600, 5 => bit01 s.power.refOk
  | 0x0601, 1 => s.job.offset.toNat
  | 0x0601, 2 => s.job.offsetPeak.toNat
  | 0x0601, 3 => s.job.slew.toNat
  | 0x0602, 1 => s.slipTime.toNat
  | 0x0602, 2 => s.slipPlace.toNat
  | 0x0800, 1 => s.upd.state
  | 0x0800, 2 => s.upd.result
  | 0x0800, 3 => s.upd.comp
  | 0x0801, 1 => (s.fwComp 1).active
  | 0x0801, 2 => ((s.fwComp 1).fwSlot 0).seen
  | 0x0801, 3 => ((s.fwComp 1).fwSlot 1).seen
  | 0x0801, n => ((s.fwComp (n - 1)).fwSlot (s.fwComp (n - 1)).active).version.toNat
  | 0x0A04, 1 => bit01 s.sec.debug
  | i, 1 => s.packVersion 2 (i - 0x0810)
  | i, _ => s.packVersion 5 (i - 0x0810)

/-- Numbers of the per-core objects (R116, R259, R318, R494, R544). -/
def State.coreNum (s : State) (c sub : Nat) : Nat :=
  match sub with
  | 0x01 => s.ownStep (packOf c)
  | 0x03 => s.streamStates c
  | 0x05 => (s.core c).lastStreamFault.toNat
  | 0x06 => s.ovfMask c
  | 0x0B => s.coreHost c
  | 0x50 => (s.core c).fence
  | 0x54 => (s.core c).lastEcc.toNat
  | 0x70 => s.bowlMask c (fun b => b.isOpen)
  | 0x71 => ((List.range 64).map (fun b => at_ b (bit01 ((s.core c).bowlParked b)))).sum
  | _ => s.sniffWindow c

/-- Numbers of the per-pack objects (R187, R363, R465, R545). -/
def State.packNum (s : State) (p sub : Nat) : Nat :=
  match sub with
  | 0x01 => (s.pack p).state.code
  | 0x02 => s.ownStep p
  | 0x04 => (s.pack p).throttle
  | 0x05 => (nth 0 s.env.now.packPower p).toNat
  | 0x06 => (nth 0 s.env.now.packTemp p).toNat
  | 0x11 => s.packCheckLevel p
  | 0x32 => s.setting (0x1800 + p) 0x32 0
  | 0x33 => s.setting (0x1800 + p) 0x33 0
  | 0x40 => if (s.vetPack p).held then 2 else bit01 (s.vetPack p).degraded
  | 0x41 => (s.vetPack p).reason
  | _ => (s.vetPack p).rotation.toNat

/-- Numbers of the stack and port objects (R388, R433). -/
def State.unitNum (s : State) (idx sub : Nat) : Nat :=
  if idx < 0x2400 then
    let k := s.stack (idx - 0x2000)
    if sub = 1 then k.state.code else if sub = 3 then k.temp.toNat else k.lastError.toNat
  else
    let k := s.port (idx - 0x2400)
    if sub = 1 then k.state.code else if sub = 3 then k.neighbour else k.delay.toNat

/-- Numbers of the checking, vet, watchdog, debug, statistics and Sniff port objects (R187, R259, R294, R465, R494, R552, R556). -/
def State.highNum (s : State) (idx sub : Nat) : Nat :=
  match idx, sub with
  | 0x3000, 2 => s.lastMismatchTime.toNat
  | 0x3000, 3 => s.lastMismatchPlace.toNat
  | 0x3020, 1 => s.meshFaultTime.toNat
  | 0x3020, 2 => s.meshFault.toNat
  | 0x3030, 3 => s.vet.maintState
  | 0x3030, 4 => s.vet.maintCleared
  | 0x3040, 3 => s.vet.mapSeq.toNat
  | 0x3040, 4 => s.vet.lastTime.toNat
  | 0x3040, 5 => s.vet.last.toNat
  | 0x3060, 1 => s.faults.seq.toNat
  | 0x3060, 3 => s.faults.alerts.toNat
  | 0x3070, 3 => s.faults.sniffState
  | 0x3070, 4 => s.faults.sniffSeq.toNat
  | 0x4000, 4 => tabGet 0 s.mgmt.dbgBad 0
  | 0x4001, 4 => tabGet 0 s.mgmt.dbgBad 1
  | 0x5000, 1 => bit01 s.statsSat
  | 0x5000, 2 => s.statsFirst.toNat
  | 0x5014, 6 => s.softRepairs
  | i, n => s.setting i n 0

/-- The value of an object whose rule is its own, as a number. -/
def State.ownNum (s : State) (idx sub : Nat) : Nat :=
  if sub = 0 then (numSubs idx).getD 0
  else if idx < 0x0400 then s.lowNum idx sub
  else if idx < 0x1000 then s.midNum idx sub
  else if idx < 0x1800 then s.coreNum (idx - 0x1000) sub
  else if idx < 0x2000 then s.packNum (idx - 0x1800) sub
  else if idx < 0x3000 then s.unitNum idx sub
  else s.highNum idx sub

/-- The value of a text or byte object (R258, R382, R451, R466, R471, R534, R541, R546, R548, R551, R569). -/
def State.ownBytes (s : State) (idx sub : Nat) : List Byte :=
  match idx, sub with
  | 0x0100, n => s.nameOf n
  | 0x0201, _ => fitTo 0 32 ((List.range 15).flatMap (fun i => leBytes 2 (nth 0 s.power.layoutVersions i)))
  | 0x0250, 1 => fitTo 0 6 (Config.manufacture 0x10)
  | 0x0250, _ => (leBytes 16 s.mgmt.subAddr).reverse ++ leBytes 2 s.mgmt.subPort
  | 0x0A00, 1 => fitTo 0 32 (Config.deviceId 0)
  | 0x0A00, 2 => fitTo 0 1952 (Config.deviceId 1)
  | 0x0A00, 3 => (Config.deviceId 2).take 8192
  | 0x0A00, _ => fitTo 0 32 (keyId Config.vendorEd Config.vendorMl)
  | 0x0A01, 1 => fitTo 0 32 s.sec.edPub
  | 0x0A01, _ => fitTo 0 1952 s.sec.mlPub
  | 0x0A02, _ => (tabGet Attest.none s.sec.attest 0).report
  | 0x0A03, _ => (tabGet Attest.none s.sec.attest 1).report
  | 0x2008, _ => (List.range 1024).flatMap (fun c => (List.range 8).map (fun k => BitVec.ofNat 8 (distanceOf c k)))
  | 0x3040, 1 => (List.range 64).flatMap (fun h => leBytes 4 (s.heelEntry h))
  | 0x3040, _ => (List.range 1088).flatMap (fun n => leBytes 4 (s.physRecord n))
  | 0x3060, _ => (List.range 64).flatMap (fun n => leBytes 16 (tabGet FaultRec.none s.faults.log n).word.toNat)
  | i, _ => if i < 0x1000 then s.calib.inUse.obj (i - 0x0501) else s.repairMap (i - 0x1000)

/-- The value of an object as its bytes (R526, R537). -/
def State.objValue (s : State) (r : ORow) (idx sub : Nat) : List Byte :=
  let key := statKey idx sub
  match r.src with
  | .stat => leBytes 8 (tabGet 0 s.stats key)
  | .progress => leBytes 8 (tabGet 0 s.progress key)
  | .total base count of_ => leBytes 8 (min (2 ^ 64 - 1) ((List.range count).map (fun i => tabGet 0 s.stats (statKey (base + i) of_))).sum)
  | .num dflt _ _ => leBytes r.size (s.setting idx sub dflt)
  | .float dflt _ _ => leBytes 4 (s.setting idx sub dflt.toNat)
  | .own => if r.typ.bytes = 0 then s.ownBytes idx sub else leBytes r.size (s.ownNum idx sub)

/-- Fields of DBG_SELECT (R553). -/
def dbgLen (w : Word) : Nat := bitsOf w 47 17
/-- OFFSET of DBG_SELECT. -/
def dbgOff (w : Word) : Nat := bitsOf w 26 21
/-- ITEM of DBG_SELECT. -/
def dbgItem (w : Word) : Nat := bitsOf w 18 8
/-- KIND of DBG_SELECT. -/
def dbgKind (w : Word) : Nat := bitsOf w 14 4
/-- CORE of DBG_SELECT. -/
def dbgCore (w : Word) : Nat := bitsOf w 0 10

/-- The bytes of a Leash table as the debug windows read it: descriptor, then entries (R276, R277, R554). -/
def LeashTable.debugBytes (t : LeashTable) (off len : Nat) : List Byte :=
  let d := at_ 44 t.entries + at_ 31 t.periods + at_ 30 (bit01 t.idle) + t.beats
  ((leBytes 8 d ++ (List.range t.entries).flatMap (fun i => leBytes 8 (tabGet 0 t.words i).toNat)).drop off).take len

/-- One word of the instruction store through the debug window: its bytes and whether it is uncorrectable (R73, R246, R554). -/
def Core.debugInsn (k : Core) (nonce i : Nat) : List Byte × Bool :=
  match eccOutcome false (tabGet 0 k.storeErr i) nonce with
  | .clean => (leBytes 16 (tabGet 0 k.store i).toNat, false)
  | .corrected => (leBytes 16 (tabGet 0 k.store i).toNat, false)
  | .uncorrectable => (List.replicate 16 0, true)
  | .miscorrected => (leBytes 8 (Config.freeWord nonce).toNat ++ leBytes 8 (Config.freeWord (nonce + 1)).toNat, false)
  | .silent => (leBytes 8 (Config.freeWord nonce).toNat ++ leBytes 8 (Config.freeWord (nonce + 1)).toNat, false)

/-- A range of scratchpad through the service window: bytes and words that read as uncorrectable (R248, R554). -/
def dbgSpad (c off len : Nat) (s : State) : List Byte × Nat × State :=
  let r := readWords c 7 off len s
  (r.2, r.1.badWords.length, r.1.st)

/-- A range of the instruction store: bytes, uncorrectable words and the state (R554). -/
def dbgStore (c off len : Nat) (s : State) : List Byte × Nat × State :=
  let k := s.core c
  let n := ceilDiv len 16
  let l := (List.range n).map (fun i => k.debugInsn (s.nonce + 2 * i) (off / 16 + i))
  ((l.flatMap (fun x => x.1)).take len, (l.filter (fun x => x.2)).length,
    if k.storeErr.isEmpty then s else { s with nonce := s.nonce + 2 * n })

/-- The state a selection names: its bytes, its uncorrectable words, and the state after the read (R554). -/
def dbgData (w : Word) (s : State) : List Byte × Nat × State :=
  let c := dbgCore w
  let i := dbgItem w
  let k := s.core c
  match dbgKind w with
  | 0 => dbgSpad c (dbgOff w) (dbgLen w) s
  | 1 => ((k.stream i).slotBytes, 0, s)
  | 2 => (leBytes 8 (k.collar i).word ++ leBytes 8 (k.collar i).ledger.toNat, 0, s)
  | 3 =>
    let b := k.bowl i
    let head := leBytes 8 (k.bowlWord i) ++ leBytes 16 b.cfg.toNat
    if !bConf b then (fitTo 0 64 head, 0, s)
    else
      let e := b.rp.toNat % bDepth b
      let t := dbgSpad c (tagAddr b e) 8 s
      let x := dbgSpad c (entryAddr b e) 32 t.2.2
      (head ++ t.1 ++ x.1, t.2.1 + x.2.1, x.2.2)
  | 4 => ((List.range 8).flatMap (fun j => leBytes 8 (tabGet 0 k.dc (8 * i + j)).toNat), 0, s)
  | 5 => ((List.range 1024).flatMap (fun j => leBytes 4 (tabGet 0 k.acc (1024 * i + j)).toNat)
      ++ leBytes 1 (match tabGet .fp32 k.accClass i with | .fp32 => 0 | .int32 => 1) ++ List.replicate 7 0, 0, s)
  | 6 => (leBytes 32 (k.route i).toNat, 0, s)
  | 7 => (fitTo 0 (dbgLen w) ((k.output (Dir.ofCode i)).table.debugBytes (dbgOff w) (dbgLen w)), 0, s)
  | _ => dbgStore c (dbgOff w) (dbgLen w) s

/-- DBG_SELECT of a path: 0 management port, 1 mailbox (R552). -/
def State.dbgSelect (s : State) (path : Nat) : Word := BitVec.ofNat 64 (s.setting (0x4000 + path) 1 0)

/-- A read of DBG_DATA on a path: refused for a core with no host or in the save area, waiting while a slice runs on the core (R232, R444,
R555). -/
def dbgRead (path : Nat) (s : State) : ObjRes × State :=
  let w := s.dbgSelect path
  if (s.hostOf (dbgCore w)).isNone then (.err stState [], s)
  else if dbgKind w = 0 && decide (saveBase < dbgOff w + dbgLen w) then (.err stAccess [], s)
  else if (s.core (dbgCore w)).vetting then (.wait, s)
  else
    let r := dbgData w s
    (.ok r.1, { r.2.2 with mgmt := { r.2.2.mgmt with dbgBad := tabSet 0 r.2.2.mgmt.dbgBad path r.2.1 } })

/-- Objects reached through one path only: 0x0A02 and 0x4000 through the port, 0x0A03 and 0x4001 through the mailbox (R551, R552). -/
def wrongPath (mailbox : Bool) (idx : Nat) : Bool :=
  if mailbox then idx = 0x0A02 || idx = 0x4000 else idx = 0x0A03 || idx = 0x4001

/-- A read of an object (R17, R527, R535, R538): PIN_PEAK is reset and LAST_MESH_FAULT re-armed by it (R293, R547). -/
def readObj (mailbox : Bool) (idx sub : Nat) (s : State) : ObjRes × State :=
  match dictObj idx sub with
  | none => (.err stUnknown [], s)
  | some r =>
    if r.acc = .wo || wrongPath mailbox idx then (.err stAccess [], s)
    else if (idx = 0x4000 || idx = 0x4001) && sub = 2 then dbgRead (bit01 mailbox) s
    else
      let v := s.objValue r idx sub
      if idx = 0x0400 && sub = 4 then (.ok v, { s with env := { s.env with pinPeak := 0 } })
      else if idx = 0x3020 && sub = 2 then (.ok v, { s with meshFaultHeld := false })
      else (.ok v, s)

/-- The status and value an object's result gives, left in `out`; a result that waits changes nothing, and one cut off leaves no response. -/
def answerObj (r : ObjRes × State) (s : State) : State :=
  match r with
  | (.ok l, t) => { t with out := 0 :: l }
  | (.err e l, t) => { t with out := BitVec.ofNat 8 e :: l }
  | (.wait, _) => s
  | (.lost, t) => t

/-- PIN_PEAK_READ (R547). -/
def execPinPeakRead (mailbox : Bool) (s : State) : Host.Outcome State Fault Refusal :=
  .next (if s.power.booted && !s.power.romService then answerObj (readObj mailbox 0x0400 4 s) s else s)

/-- DBG_DATA_READ: the whole selection of the path; a read held by a vet slice leaves the machine as it stands (R537, R552-R555). -/
def execDbgDataRead (mailbox : Bool) (s : State) : Host.Outcome State Fault Refusal :=
  .next (if s.power.booted && !s.power.romService then answerObj (dbgRead (bit01 mailbox) s) s else s)

end Sys2Proof.Machine
end

