-- ==== Sys2Proof/Machine/ObjWrite.lean ====
section
/-! DEFINITION. Writes of the object dictionary: the checks of R538, the settings, and every command object (SETTINGS_COMMAND,
CALIBRATION_WRITE, DBG_WRITE; R17, R535-R558). -/
namespace Sys2Proof.Machine

/-- A write to flash that succeeds. -/
def FlashEnd.ok (f : FlashEnd) : Bool := f = .done

/-- Beyond the first item of a kind: how many items it has (R554). -/
def dbgItems : Nat → Nat
  | 0 => 1 | 1 => 8 | 2 => 16 | 3 => 64 | 4 => 8 | 5 => 4 | 6 => 256 | 7 => 5 | 8 => 1 | _ => 0

/-- Bytes of the state that kinds 0, 7 and 8 select from (R229, R276, R554). -/
def State.dbgSize (s : State) (w : Word) : Nat :=
  match dbgKind w with
  | 0 => spadBytes
  | 7 => 8 + 8 * ((s.core (dbgCore w)).output (Dir.ofCode (dbgItem w))).table.entries
  | _ => 65536

/-- Whether a DBG_SELECT value is accepted (R553). -/
def State.dbgSelectOk (s : State) (w : Word) : Bool :=
  let k := dbgKind w
  let len := dbgLen w
  let off := dbgOff w
  bitsOf w 10 4 = 0 && decide (dbgItem w < dbgItems k)
    && (if k = 0 || k = 7 || k = 8 then
          decide (8 ≤ len) && decide (len ≤ 65536) && len % 8 = 0 && off % (if k = 8 then 16 else 8) = 0 && decide (off + len ≤ s.dbgSize w)
        else len = 0 && off = 0)

/-- Whether a SNF_SEL value is accepted: its SIGNAL in the catalogue and PC at most 33 (R557, R624). -/
def snfSelOk (v : Nat) : Bool :=
  let g := v % 65536
  decide (fieldOf v 16 6 ≤ 33)
    && (g = 0 || (decide (0x0100 ≤ g) && decide (g ≤ 0x0123)) || (decide (0x1000 ≤ g) && decide (g ≤ 0x1004))
      || (decide (0x1010 ≤ g) && decide (g ≤ 0x1014)) || (decide (0x1100 ≤ g) && decide (g < 0x1150) && decide (g % 16 < 12))
      || (decide (0x1200 ≤ g) && decide (g ≤ 0x120F)) || (decide (0x1300 ≤ g) && decide (g ≤ 0x1306)))

/-- Whether a command object takes a value from 1 to a last one (R328, R347, R388, R433, R465, R494, R546, R550). -/
def cmdLast (idx sub : Nat) : Option Nat :=
  match idx, sub with
  | 0x0200, 4 => some 2
  | 0x0201, 3 => some 1
  | 0x0202, 2 => some 2
  | 0x0210, 2 => some 3
  | 0x0212, 5 => some 3
  | 0x0220, 3 => some 2
  | 0x0222, 2 => some 2
  | 0x0230, 2 => some 2
  | 0x0800, 4 => some 2
  | 0x3030, 2 => some 3
  | i, 2 => if 0x2000 ≤ i ∧ i < 0x2008 then some 2 else none
  | _, _ => none

/-- Whether a value lies in the range of an object whose rule is its own (R328, R347, R433, R494, R553, R557). -/
def State.ownRange (s : State) (idx sub v : Nat) : Bool :=
  match cmdLast idx sub with
  | some n => decide (1 ≤ v) && decide (v ≤ n)
  | none =>
    if idx = 0x0210 then v % 4096 = 0 && decide (v < 2 ^ 40) && decide (offsetOf v < stackBytes)
    else if idx = 0x0212 && sub = 2 then decide (v ≤ 1)
    else if idx = 0x0212 && sub = 3 then decide (1 ≤ v)
    else if idx = 0x0222 && sub = 6 then v % 4096 = 0 && decide (v < 2 ^ 40)
    else if idx = 0x0222 && sub = 7 then v % 4096 = 0
    else if idx = 0x0223 && decide (sub ≤ 16) then v % 4096 = 0
    else if idx = 0x4000 || idx = 0x4001 then s.dbgSelectOk (BitVec.ofNat 64 v)
    else if idx = 0x7001 then snfSelOk v
    else if 0x1000 ≤ idx && idx < 0x1400 then v % 64 = 0 && decide (v ≤ 0x168000)
    else true

/-- Whether a number lies in an object's range (R526, R538). -/
def State.inRange (s : State) (r : ORow) (idx sub v : Nat) : Bool :=
  match r.src with
  | .num _ lo hi => decide (lo ≤ v) && decide (v ≤ hi)
  | .float _ lo hi =>
    let x := f32Num (BitVec.ofNat 32 v)
    !x.isNan && !numLt x (f32Num lo) && !numLt (f32Num hi) x
  | _ => (r.typ ≠ .bool || decide (v ≤ 1)) && s.ownRange idx sub v

/-- A status as an object result. -/
def stRes (r : Nat × State) : ObjRes × State := (if r.1 = stDone then .ok [] else .err r.1 [], r.2)

/-- The status of a command object written, after its range check (R329, R348, R406, R430, R463, R477, R489, R493, R546, R550). -/
def writeCommand (idx sub v : Nat) (r : Requester) (flash : FlashEnd) (s : State) : Nat × State :=
  match idx, sub with
  | 0x0200, _ => if v = 1 then stateService s else stateIdle s
  | 0x0202, _ => lockCommand (v = 1) r s
  | 0x0210, _ => if v = 3 then loadAbort s else startCheck (v = 2) s
  | 0x0212, _ => if v = 1 then genStart s else if v = 2 then genStop s else genHostFed s
  | 0x0220, _ => if v = 1 then jobStart s else jobLeave s
  | 0x0221, _ => if v = 1 then barkCommand s else (stDone, s)
  | 0x0222, _ => if v = 1 then mirrorStart s else mirrorAbort s
  | 0x0230, 1 => packReset v s
  | 0x0230, 2 => deviceReset v s
  | 0x0230, _ => unloadPacks v s
  | 0x0602, _ => (stDone, if v = 1 then { s with slipHeld := false, slipTime := 0, slipPlace := 0 } else s)
  | 0x0800, _ => if v = 1 then updateCommit r flash.ok s else updateAbandon r s
  | 0x0A04, _ => (stDone, if v = 1 then debugOff s else s)
  | 0x3030, _ => maintCommand v s
  | 0x3060, _ => alertAck v s
  | 0x3070, _ => sniffCommand v s
  | 0x5000, _ => if v = 1 then statsClear s else (stDone, s)
  | i, _ => if v = 1 then recalibrate (i - 0x2000) s else retrain (i - 0x2000) s

/-- An RW or RWL object written (R328, R347, R433, R494, R552, R556): reserved bits are ignored (R6). -/
def writeOwn (idx sub v : Nat) (s : State) : Nat × State :=
  match idx with
  | 0x0210 => if s.load.state = .checking || s.load.state = .installing then (stBusy, s) else (stDone, s.setSetting idx sub v)
  | 0x0212 =>
    if s.gen.running then (stBusy, s)
    else (stDone, { s with gen :=
      if sub = 1 then { s.gen with packs := BitVec.ofNat 16 v } else if sub = 2 then { s.gen with gated := v = 1 }
      else if sub = 3 then { s.gen with period := BitVec.ofNat 32 v } else { s.gen with first := BitVec.ofNat 64 v } })
  | 0x0220 => (stDone, { s with job := if sub = 1 then { s.job with coord := BitVec.ofNat 16 v } else { s.job with extent := BitVec.ofNat 16 v } })
  | 0x0222 => (stDone, { s with mirror :=
      if sub = 1 then { s.mirror with partner := BitVec.ofNat 16 v } else if sub = 5 then { s.mirror with acceptFrom := BitVec.ofNat 16 v }
      else if sub = 6 then { s.mirror with acceptBase := BitVec.ofNat 64 v } else { s.mirror with acceptLen := BitVec.ofNat 64 v } })
  | 0x0223 => (stDone, { s with mirror :=
      if sub ≤ 16 then { s.mirror with src := tabSet 0 s.mirror.src (sub - 1) (BitVec.ofNat 64 v) }
      else { s.mirror with dst := tabSet 0 s.mirror.dst (sub - 17) (BitVec.ofNat 64 (v % 2 ^ 40)) } })
  | 0x7000 => if sub = 1 && v = 1 && !s.sec.debug then (stState, s) else (stDone, s.setSetting idx sub v)
  | 0x7001 => (stDone, s.setSetting idx sub (v % 2 ^ 27))
  | _ => (stDone, s.setSetting idx sub v)

/-- An RWP setting committed to flash, with what follows from it (R433, R539, R545). -/
def commitSetting (idx sub v : Nat) (ok : Bool) (s : State) : Nat × State :=
  if 0x2400 ≤ idx && idx < 0x2412 then portEnable (idx - 0x2400) (v = 1) ok s
  else
    let r := s.commitFlash ok (fun s =>
      (if idx = 0x3050 && sub = 5 && v = 1 && s.setting 0x3050 5 1 = 0 then s.restartWatch (List.range 16) else s).setSetting idx sub v)
    if 0x1800 ≤ idx && idx < 0x1810 then (r.1, freqIdle (idx - 0x1800) r.2) else r

/-- A commit as it ends: a write cut off by a power loss or reset leaves the old or the new value, and no response (R539). -/
def commitEnd (flash : FlashEnd) (f : Bool → State → Nat × State) (s : State) : ObjRes × State :=
  match flash with
  | .done => stRes (f true s)
  | .failed => stRes (f false s)
  | .cut =>
    if (f true s).1 ≠ stDone then stRes (f true s)
    else let b := s.fresh; (.lost, if bitAt b.1 0 then (f true b.2).2 else b.2)

/-- Whether a calibration write is refused by the state: only in Service at rest or Idle, with no program and no teardown
(R549, R609). -/
def State.calibBusy (s : State) : Bool :=
  !(s.power.dev = .service || s.power.dev = .idle) || s.power.starting.isSome
    || (List.range 16).any (fun p => (s.progOf p).isSome || (s.pack p).teardown.isSome)

/-- A write of calibration object `i`, of its own size: the single record is rewritten in place (R539, R548, R549, R595). A write cut off
leaves a record whose CRC fails; after one that fails, what the record holds is open. -/
def writeCalib (i : Nat) (l : List Byte) (flash : FlashEnd) (s : State) : ObjRes × State :=
  if s.calibBusy || !s.env.holdupOk then (.err stState [], s)
  else
    let f := s.fresh
    let bad (s : State) : State := { s with calib := { s.calib with good := false, badCrc := BitVec.ofNat 32 f.1.toNat } }
    match flash with
    | .cut => (.lost, bad f.2)
    | .failed => (.err stFlash [], if bitAt f.1 32 then bad f.2 else f.2)
    | .done =>
      let old := s.calib.inUse
      let new : CalSet :=
        { origin := 1, written := if bitAt (BitVec.ofNat 8 old.written) i then old.written else old.written + 2 ^ i
          objs := tabSet [] old.objs i (calibKept i l) }
      (.ok [], { s with
        calib := { s.calib with flash := new, good := true, inUse := new }
        power := { s.power with flashWrites := s.power.flashWrites + 1 } })

/-- A write of DBG_WRITE on a path, after its lock: 0x07 for a core with no host, 0x02 as R555 gives, waiting while a slice runs. -/
def dbgWrite (path : Nat) (l : List Byte) (s : State) : ObjRes × State :=
  let w := s.dbgSelect path
  let c := dbgCore w
  let st := (s.pack (packOf c)).state
  if (s.hostOf c).isNone then (.err stState [], s)
  else if dbgKind w ≠ 0 || l.length ≠ dbgLen w || decide (saveBase < dbgOff w + dbgLen w)
      || ((st = .installed || st = .running) && decide (dbgOff w < (s.core c).fence)) then (.err stAccess [], s)
  else if (s.core c).vetting then (.wait, s)
  else (.ok [], writePort c 7 (dbgOff w) l s)

/-- PORT_ENABLE objects that a return to defaults turns on (R433, R546). -/
def State.portsOff (s : State) : List Nat := (List.range 18).filter (fun f => s.setting (0x2400 + f) 2 1 = 0)

/-- Every RWP object outside the calibration region at its default: ports that were held disabled train, and packs take their step (R546). -/
def settingsDefault (s : State) : State :=
  let off := s.portsOff
  let s := if s.setting 0x3050 5 1 = 0 then s.restartWatch (List.range 16) else s
  let s := dropRwp (fun r => r ≠ 3) s
  let s := off.foldl (fun s f =>
    s.modPort f (fun p => { Port.reset with
      state := if s.power.rails then .training else .disabled, neighbour := p.neighbour, delay := p.delay })) s
  (List.range 16).foldl (fun s p => freqIdle p s) s

/-- SETTINGS_COMMAND 1: accepted as an RWL write, in Service or Idle (R540, R546). -/
def settingsCommand (r : Requester) (ok : Bool) (s : State) : Nat × State :=
  if !s.rwlOk r then (stLock, s)
  else if !(s.power.dev = .service || s.power.dev = .idle) then (stState, s)
  else s.commitFlash ok settingsDefault

/-- Whether LEN fits an object: exact, but any length up to its size for STR and for DBG_WRITE (R526, R555). -/
def lenOk (r : ORow) (idx n : Nat) : Bool :=
  if r.typ = .str || idx = 0x4000 || idx = 0x4001 then (if r.typ.bytes = 0 then decide (n ≤ r.size) else n = r.size) else n = r.size

/-- The lock check of a write: none, or the status that refuses it. LOCK_COMMAND in Unowned passes it and is refused with 0x07 after the five
checks (R538, R540). -/
def State.lockRefusal (s : State) (row : ORow) (idx sub : Nat) (r : Requester) : Option Nat :=
  if idx = 0x0202 && sub = 2 then
    (match s.sec.owner with
      | .unowned => none
      | .owned => if s.inSession r then none else some stLock
      | .locked => if s.inSession r then none else some stLock)
  else if row.acc = .rwl || (idx = 0x0201 && sub = 3) || ((idx = 0x4000 || idx = 0x4001) && sub = 3) then
    (if s.rwlOk r then none else some stLock)
  else none

/-- A byte or text object written (R546, R549, R551, R555, R565, R568). -/
def writeBytes (idx sub : Nat) (r : Requester) (l : List Byte) (flash : FlashEnd) (s : State) : ObjRes × State :=
  let reason (x : Nat × State) : ObjRes × State := (if x.1 = 0 then .ok [] else .err stRefused [BitVec.ofNat 8 x.1], x.2)
  match idx with
  | 0x0100 =>
    commitEnd flash (fun ok s => s.commitFlash ok (fun s =>
      { s with mgmt := { s.mgmt with blobs := tabSet [] s.mgmt.blobs (statKey idx sub) l } })) s
  | 0x0A01 => reason (ownerMessage l s)
  | 0x0A02 => (.ok [], startAttest 0 l s)
  | 0x0A03 => (.ok [], startAttest 1 l s)
  | 0x0A04 => reason (debugUnlock l r s)
  | 0x4000 => dbgWrite 0 l s
  | 0x4001 => dbgWrite 1 l s
  | i => writeCalib (i - 0x0501) l flash s

/-- A write of an object with its TYPE and value; the path of R552 is a refusal of the object's own, after the five checks (R17, R526,
R538-R540, R552). -/
def writeObj (r : Requester) (idx sub typ : Nat) (l : List Byte) (flash : FlashEnd) (s : State) : ObjRes × State :=
  match dictObj idx sub with
  | none => (.err stUnknown [], s)
  | some row =>
    if row.acc = .ro then (.err stAccess [], s)
    else match s.lockRefusal row idx sub r with
      | some e => (.err e [], s)
      | none =>
        if typ ≠ row.typ.code || !lenOk row idx l.length then (.err stType [], s)
        else if row.typ.bytes = 0 && wrongPath r.mailbox idx then (.err stAccess [], s)
        else if row.typ.bytes = 0 then writeBytes idx sub r l flash s
        else
          let v := leValue l
          if !s.inRange row idx sub v then (.err stRange [], s)
          else if wrongPath r.mailbox idx then (.err stAccess [], s)
          else if idx = 0x0201 then commitEnd flash (settingsCommand r) s
          else match row.acc with
            | .ro => (.err stAccess [], s)
            | .wo => stRes (writeCommand idx sub v r flash s)
            | .rwp => commitEnd flash (commitSetting idx sub v) s
            | .rw => stRes (writeOwn idx sub v s)
            | .rwl => stRes (writeOwn idx sub v s)

/-- Whether the management firmware answers a dictionary command (R562, R602). -/
def State.mgmtUp (s : State) : Bool := s.power.booted && !s.power.romService

/-- SETTINGS_COMMAND: the value written, and how the flash write ends (R546). -/
def execSettingsCommand (value : BitVec 8) (from_ : Requester) (flash : FlashEnd) (s : State) : Host.Outcome State Fault Refusal :=
  let s := touchSession from_ s
  .next (if s.mgmtUp then answerObj (writeObj from_ 0x0201 3 OType.u8.code [value] flash s) s else s)

/-- CALIBRATION_WRITE: object 0 to 4 and its bytes, and how the flash write ends (R549). -/
def execCalibrationWrite (object : Fin 5) (data : List Byte) (from_ : Requester) (flash : FlashEnd) (s : State) :
    Host.Outcome State Fault Refusal :=
  let s := touchSession from_ s
  .next (if s.mgmtUp then answerObj (writeObj from_ (0x0501 + object.val) 1 OType.octets.code data flash s) s else s)

/-- DBG_WRITE: bytes for the selection of the requester's path (R540, R555). -/
def execDbgWrite (data : List Byte) (from_ : Requester) (s : State) : Host.Outcome State Fault Refusal :=
  let s := touchSession from_ s
  .next (if s.mgmtUp then answerObj (writeObj from_ (0x4000 + from_.path) 3 OType.octets.code data .done s) s else s)

end Sys2Proof.Machine
end

