-- ==== Sys2Proof/Machine/Mgmt.lean ====
section
/-! DEFINITION. The management protocol: frames, the request queue, messages, segmented transfers and service sends (READ … MGMT_FRAME, MAILBOX_GO;
R518-R534). -/
namespace Sys2Proof.Machine

/-- A request at the head of the queues: its sender, and its message. -/
structure Request where
  mailbox : Bool
  addr : Nat
  port : Nat
  bytes : List Byte
  deriving DecidableEq, Repr

/-- The sender of a request (R566). -/
def Request.sender (q : Request) : Requester := { mailbox := q.mailbox, addr := q.addr, port := q.port, session := fld q.bytes 8 4 }
/-- OPCODE of a message (R522). -/
def Request.op (q : Request) : Nat := fld q.bytes 3 1
/-- SEQ of a message (R522). -/
def Request.seq (q : Request) : Nat := fld q.bytes 4 2
/-- The body of a message (R522). -/
def Request.body (q : Request) : List Byte := q.bytes.drop 16

/-- The request served next: the two paths alternate while both wait, the mailbox first (R532). -/
def State.nextRequest (s : State) : Option Request :=
  let mb : Request := { mailbox := true, addr := 0, port := 0, bytes := s.host.mbReq }
  match s.mgmt.queue with
  | [] => if s.host.mbBusy then some mb else none
  | q :: _ =>
    if s.host.mbBusy && s.mgmt.mailboxTurn then some mb
    else some { mailbox := false, addr := q.addr, port := q.port, bytes := q.bytes }

/-- The request at the head leaves its queue (R532). -/
def popRequest (q : Request) (s : State) : State :=
  if q.mailbox then { s with host := { s.host with mbBusy := false, mbReq := [] }, mgmt := { s.mgmt with mailboxTurn := false } }
  else { s with mgmt := { s.mgmt with queue := s.mgmt.queue.drop 1, mailboxTurn := true } }

/-- A message is malformed: MAGIC, VERSION, LEN or a reserved field (R521, R522, R527). A request has STATUS and FLAGS 0. -/
def Request.malformed (q : Request) : Bool :=
  let m := q.bytes
  decide (m.length < 16) || decide (1452 < m.length) || fld m 0 2 ≠ 0x5044 || fld m 2 1 ≠ 1 || fld m 6 2 ≠ 0 || fld m 12 2 ≠ m.length - 16
    || fld m 14 2 ≠ 0

/-- A response message (R522). -/
def response (q : Request) (status : Nat) (body : List Byte) : List Byte :=
  leBytes 2 0x5044 ++ [1] ++ leBytes 1 q.op ++ leBytes 2 q.seq ++ leBytes 1 status ++ [1] ++ leBytes 4 0 ++ leBytes 2 body.length ++ [0, 0] ++ body

/-- A response is sent: through the mailbox with DONE and vector 0, or as a datagram left in `out` (R509, R521). -/
def sendResponse (q : Request) (m : List Byte) (s : State) : State :=
  if q.mailbox then
    let s := { s with host := { s.host with mbBusy := false, mbDone := true, mbResp := m } }
    if s.host.mbIrq then raiseMsix 0 0 s else s
  else { s with out := s.out ++ m }

/-- The kept response of a source pair (R523). -/
def State.keptFor_ (s : State) (q : Request) : Option KeptResp :=
  if q.mailbox then none else s.mgmt.kept.find? (fun k => k.addr = q.addr && k.port = q.port)

/-- The response of the last request served is kept for the 8 most recent pairs; a message shorter than a header names no SEQ (R523). -/
def keepResponse (q : Request) (m : List Byte) (s : State) : State :=
  if q.mailbox || decide (q.bytes.length < 16) then s
  else
    let l := s.mgmt.kept.filter (fun k => !(k.addr = q.addr && k.port = q.port))
    { s with mgmt := { s.mgmt with kept := (l.drop (l.length - 7)) ++ [{ addr := q.addr, port := q.port, seq := q.seq, resp := m }] } }

/-- A request is answered: counted, its response kept and sent (R523, R534). -/
def respond (q : Request) (status : Nat) (body : List Byte) (s : State) : State :=
  let m := response q status body
  let s := (popRequest q s).bump 0x501E 1 1
  sendResponse q m (keepResponse q m (if status = 0 then s else s.bump 0x501E 2 1))

/-- Opcodes of R524 that a request may carry. -/
def knownOps : List Nat := [0x01, 0x02, 0x03, 0x04, 0x05, 0x10, 0x11, 0x12, 0x13, 0x14, 0x20]

/-- Objects the recovery service answers (R562). -/
def romObject (idx sub : Nat) : Bool := idx = 0x0100 || (idx = 0x0200 && (sub = 1 || sub = 2))

/-- Whether the boot ROM's recovery service answers a request (R562). -/
def State.romAnswers (s : State) (q : Request) : Bool :=
  let b := q.body
  let object (off : Nat) : Bool := romObject (fld b off 2) (fld b (off + 2) 1)
  match q.op with
  | 0x01 => object 0
  | 0x03 => (List.range (fld b 0 1)).all (fun i => object (4 + 4 * i))
  | 0x04 => object 0
  | 0x10 => fld b 0 1 = 0 && fld b 1 1 = 2
  | 0x11 => s.mgmt.slots.any (fun e => e.2.id = fld b 0 2 && e.2.kind = 2)
  | 0x12 => s.mgmt.slots.any (fun e => e.2.id = fld b 0 2 && e.2.kind = 2)
  | 0x13 => s.mgmt.slots.any (fun e => e.2.id = fld b 0 2 && e.2.kind = 2)
  | 0x14 => s.mgmt.slots.any (fun e => e.2.id = fld b 0 2 && e.2.kind = 2)
  | _ => false

/-- A request at the head that no opcode's command serves: a repeated SEQ gets the kept response, a malformed one 0x09, an unknown opcode
0x0A, and one the recovery service does not answer gets nothing (R523, R524, R527, R562). -/
def settleOne (q : Request) (s : State) : Option State :=
  match s.keptFor_ q with
  | some k =>
    if 16 ≤ q.bytes.length && k.seq = q.seq then some (sendResponse q k.resp (keepResponse q k.resp ((popRequest q s).bump 0x501E 4 1)))
    else if q.malformed then some (respond q stMalformed [] s)
    else if !knownOps.contains q.op then some (respond q stOpcode [] s)
    else if s.power.romService && !s.romAnswers q then some (popRequest q s)
    else none
  | none =>
    if q.malformed then some (respond q stMalformed [] s)
    else if !knownOps.contains q.op then some (respond q stOpcode [] s)
    else if s.power.romService && !s.romAnswers q then some (popRequest q s)
    else none

/-- Every such request that comes to the head is answered, up to a bound of requests. -/
def settle : Nat → State → State
  | 0, s => s
  | n + 1, s =>
    match s.nextRequest with
    | none => s
    | some q => match settleOne q s with
      | some s => settle n s
      | none => s

/-- MAILBOX_GO: MB_LEN is written; the request of `len` bytes and IRQ are taken, and BUSY is set; while BUSY, OVERRUN (R503, R509). -/
def execMailboxGo (request : List Byte) (len : Fin 2049) (irq : Bool) (ide : Bool) (s : State) : Host.Outcome State Fault Refusal :=
  .next (barWrite 0 ide (fun s =>
    if s.host.mbBusy then { s with host := { s.host with mbOver := true, mbLen := len.val } }
    else settle 9 { s with out := [], host := { s.host with
      mbBusy := true, mbDone := false, mbOver := false, mbIrq := irq, mbLen := len.val, mbReq := fitTo 0 len.val request } }) s)

/-- What serving a request gives: a response, nothing yet, or no response. -/
inductive Served where
  | reply (status : Nat) (body : List Byte)
  | wait
  | lost
  deriving DecidableEq, Repr

/-- A response with a status alone. -/
def refused (e : Nat) : Served := .reply e []

/-- The controller serves the next request if it has this opcode; one whose object waits stays at the head (R532). -/
def serveOp (op : Nat) (f : Request → State → Served × State) (s : State) : State :=
  if !s.power.booted then s
  else match s.nextRequest with
    | none => s
    | some q =>
      if q.op ≠ op || (settleOne q s).isSome then s
      else
        let s0 := touchSession q.sender { s with out := [] }
        match f q s0 with
        | (.reply e b, t) => settle 9 (if t.power.booted then respond q e b t else t)
        | (.wait, _) => s
        | (.lost, t) => settle 9 (popRequest q t)

/-- An item: reference, TYPE, LEN, ISTATUS and the padded value (R525). -/
def itemBytes (idx sub typ status : Nat) (v : List Byte) : List Byte :=
  leBytes 2 idx ++ leBytes 1 sub ++ leBytes 1 typ ++ leBytes 2 v.length ++ leBytes 1 status ++ [0] ++ fitTo 0 (alignUp v.length 8) v

/-- TYPE of an object; 0 where there is none. -/
def typeOf (idx sub : Nat) : Nat := match dictObj idx sub with | some r => r.typ.code | none => 0

/-- READ: one item; an item larger than a response carries gives 0x08 (R524, R527). -/
def serveRead (q : Request) (s : State) : Served × State :=
  let b := q.body
  let idx := fld b 0 2
  let sub := fld b 2 1
  if b.length ≠ 4 || fld b 3 1 ≠ 0 then (refused stMalformed, s)
  else match readObj q.mailbox idx sub s with
    | (.ok v, t) => if 1436 < 8 + alignUp v.length 8 then (refused stLarge, s) else (.reply stDone (itemBytes idx sub (typeOf idx sub) 0 v), t)
    | (.err e l, t) => (.reply e l, t)
    | (.wait, _) => (.wait, s)
    | (.lost, t) => (.lost, t)

/-- READ (R524, R535-R538). -/
def execRead (s : State) : Host.Outcome State Fault Refusal := .next (serveOp 0x01 serveRead s)

/-- WRITE: one item, checked and written (R524, R538). -/
def serveWrite (flash : FlashEnd) (q : Request) (s : State) : Served × State :=
  let b := q.body
  let len := fld b 4 2
  if decide (b.length < 8) || b.length ≠ 8 + alignUp len 8 || fld b 6 2 ≠ 0 then (refused stMalformed, s)
  else match writeObj q.sender (fld b 0 2) (fld b 2 1) (fld b 3 1) (bytesAt b 8 len) flash s with
    | (.ok _, t) => (refused stDone, t)
    | (.err e l, t) => (.reply e l, t)
    | (.wait, _) => (.wait, s)
    | (.lost, t) => (.lost, t)

/-- WRITE; `flash` is how the flash write it may need ends (R538, R539). -/
def execWrite (flash : FlashEnd) (s : State) : Host.Outcome State Fault Refusal := .next (serveOp 0x02 (serveWrite flash) s)

/-- The items of a READ_MULTI, each with its own status; none where one waits (R525, R537). -/
def readItems (mailbox : Bool) : List (Nat × Nat) → List Byte → State → Option (List Byte × State)
  | [], acc, s => some (acc, s)
  | (idx, sub) :: t, acc, s =>
    match readObj mailbox idx sub s with
    | (.ok v, s) => readItems mailbox t (acc ++ itemBytes idx sub (typeOf idx sub) 0 v) s
    | (.err e _, s) => readItems mailbox t (acc ++ itemBytes idx sub (typeOf idx sub) e []) s
    | (.wait, _) => none
    | (.lost, s) => some (acc, s)

/-- READ_MULTI: up to 32 items; more bytes than a response carries give 0x08 (R524, R525, R527). -/
def serveReadMulti (q : Request) (s : State) : Served × State :=
  let b := q.body
  let n := fld b 0 1
  if n = 0 || decide (32 < n) || b.length ≠ 4 + 4 * n || fld b 1 3 ≠ 0 || (List.range n).any (fun i => fld b (7 + 4 * i) 1 ≠ 0) then
    (refused stMalformed, s)
  else match readItems q.mailbox ((List.range n).map (fun i => (fld b (4 + 4 * i) 2, fld b (6 + 4 * i) 1))) [] s with
    | none => (.wait, s)
    | some (l, t) => if 1436 < l.length then (refused stLarge, s) else (.reply stDone l, t)

/-- READ_MULTI (R524). -/
def execReadMulti (s : State) : Host.Outcome State Fault Refusal := .next (serveOp 0x03 serveReadMulti s)

/-- DESCRIBE: TYPE, ACCESS and SIZE of an object, refused on the other path of R551 and R552 (R524). -/
def serveDescribe (q : Request) (s : State) : Served × State :=
  let b := q.body
  if b.length ≠ 4 || fld b 3 1 ≠ 0 then (refused stMalformed, s)
  else match dictObj (fld b 0 2) (fld b 2 1) with
    | none => (refused stUnknown, s)
    | some r =>
      if wrongPath q.mailbox (fld b 0 2) then (refused stAccess, s)
      else (.reply stDone (leBytes 1 r.typ.code ++ leBytes 1 r.acc.code ++ [0, 0] ++ leBytes 4 r.size), s)

/-- DESCRIBE (R524). -/
def execDescribe (s : State) : Host.Outcome State Fault Refusal := .next (serveOp 0x04 serveDescribe s)

/-- SUBSCRIBE: a nonzero MASK makes the source the subscriber, 0 cancels; the mailbox has no notifications (R524, R533). -/
def serveSubscribe (q : Request) (s : State) : Served × State :=
  let b := q.body
  let m := fld b 0 1
  if b.length ≠ 1 then (refused stMalformed, s)
  else if q.mailbox then (refused stState, s)
  else if m = 0 then (refused stDone, { s with mgmt := { s.mgmt with subAddr := 0, subPort := 0, subMask := 0 } })
  else (refused stDone, { s with mgmt := { s.mgmt with subAddr := q.addr, subPort := q.port, subMask := m } })

/-- SUBSCRIBE (R533). -/
def execSubscribe (s : State) : Host.Outcome State Fault Refusal := .next (serveOp 0x05 serveSubscribe s)

/-- The slot of an open transfer. -/
def State.slotOf_ (s : State) (id : Nat) : Option Nat := if id = 0 then none else (List.range 4).find? (fun t => (s.transfer t).id = id)

/-- The state with a transfer slot replaced. -/
def State.setTransfer (s : State) (t : Nat) (x : Transfer) : State :=
  { s with mgmt := { s.mgmt with slots := tabSet .free s.mgmt.slots t x } }

/-- A transfer ends: its slot and ID are free, and the end is notified with its status (R531, R533). -/
def endTransfer (t status : Nat) (s : State) : State :=
  notify 3 (leBytes 2 (s.transfer t).id ++ leBytes 1 status) (s.setTransfer t .free)

/-- A transfer ends without a status of its own: the status notified is open (log entry 3). -/
def endTransferOpen (t : Nat) (s : State) : State := let f := s.fresh; endTransfer t (f.1.toNat % 256) f.2

/-- The next transfer ID: counting up from 1, skipping 0 and every ID in use (R529). -/
def State.nextId (s : State) : Nat :=
  let used := (List.range 4).map (fun t => (s.transfer t).id)
  let ids := (List.range 5).map (fun i => (s.mgmt.lastId + i) % 65535 + 1)
  (ids.find? (fun n => !used.contains n)).getD 1

/-- The answer to SEG_START and SEG_QUERY (R524). -/
def State.segReply (s : State) (t : Nat) : Served :=
  .reply stDone (leBytes 2 (s.transfer t).id ++ leBytes 1 t ++ [0] ++ leBytes 4 (s.transfer t).next)

/-- A transfer opened in a slot with the next ID (R529). -/
def openTransfer (t : Nat) (x : Transfer) (s : State) : Served × State :=
  let n := s.nextId
  let s := ({ s with mgmt := { s.mgmt with lastId := n } } : State).setTransfer t { x with id := n, lastAt := s.clock }
  (s.segReply t, s)

/-- Whether an open transfer of KIND 0 names an object. -/
def State.objectInUse (s : State) (target : Nat) : Bool :=
  (List.range 4).any (fun t => (s.transfer t).id ≠ 0 && (s.transfer t).kind = 0 && (s.transfer t).target = target)

/-- A value brought to a length: what lies beyond it is free (log entry 3). -/
def padFree (n : Nat) (v : List Byte) (s : State) : List Byte × State :=
  (v ++ (List.range (n - v.length)).map (fun i => Config.freeByte (s.nonce + i)), { s with nonce := s.nonce + (n - v.length) })

/-- SEG_START of an object (R529, R537, R552): an upload of at most the object's size copies it now. -/
def startObject (q : Request) (t : Nat) (x : Transfer) (s : State) : Served × State :=
  let idx := x.target / 256 % 65536
  let sub := x.target % 256
  match dictObj idx sub with
  | none => (refused stUnknown, s)
  | some r =>
    if x.upload then match readObj q.mailbox idx sub s with
      | (.ok v, u) =>
        if r.size < x.length then (refused stRange, s)
        else let f := padFree x.length v u; openTransfer t { x with data := f.1 } f.2
      | (.err e l, u) => (.reply e l, u)
      | (.wait, _) => (.wait, s)
      | (.lost, u) => (.lost, u)
    else if r.acc = .ro || wrongPath q.mailbox idx then (refused stAccess, s)
    else if !lenOk r idx x.length then (refused stType, s)
    else if s.objectInUse x.target then (refused stBusy, s)
    else openTransfer t x s

/-- A refusal whose reason byte the spec does not give (R529; log entry 3). -/
def refusedOpen (s : State) : Served × State := let f := s.fresh; (.reply stRefused [BitVec.ofNat 8 f.1.toNat], f.2)

/-- SEG_START of an HBM range, under the rules of R505 for PF0 that the address alone decides (R529). -/
def startRange (t : Nat) (x : Transfer) (s : State) : Served × State :=
  if s.bar2Outside 0 x.target x.length || (!x.upload && s.hostReadOnly x.target x.length) then refusedOpen s else openTransfer t x s

/-- SEG_START of a firmware image (R529, R576). -/
def startImage (q : Request) (t : Nat) (x : Transfer) (s : State) : Served × State :=
  if s.updateLocked q.sender then (.reply stRefused [0x0D], s)
  else if s.upd.state = 3 || (List.range 4).any (fun u => (s.transfer u).id ≠ 0 && (s.transfer u).kind = 2) then (refused stBusy, s)
  else openTransfer t x s

/-- SEG_START: a transfer opens in a free slot (R529). -/
def serveSegStart (q : Request) (s : State) : Served × State :=
  let b := q.body
  let dir := fld b 0 1
  let kind := fld b 1 1
  let target := fld b 8 8
  let length := fld b 16 8
  if b.length ≠ 24 || fld b 2 6 ≠ 0 || (kind = 0 && decide (2 ^ 24 ≤ target)) || (kind = 1 && decide (2 ^ 40 ≤ target))
      || (kind = 2 && target ≠ 0) then (refused stMalformed, s)
  else if decide (1 < dir) || decide (2 < kind) || (kind = 2 && dir = 1) || length = 0 || decide (2 ^ 42 < length) then (refused stRange, s)
  else match (List.range 4).find? (fun t => (s.transfer t).id = 0) with
    | none => (refused stBusy, s)
    | some t =>
      let x : Transfer := { Transfer.free with upload := dir = 1, kind := kind, target := target, length := length }
      match kind with
      | 0 => startObject q t x s
      | 1 => startRange t x s
      | _ => startImage q t x s

/-- SEG_START (R529). -/
def execSegStart (s : State) : Host.Outcome State Fault Refusal := .next (serveOp 0x10 serveSegStart s)

/-- Blocks of a transfer (R530). -/
def Transfer.blocks (x : Transfer) : Nat := ceilDiv x.length 1024
/-- Bytes of a block (R530). -/
def Transfer.blockLen (x : Transfer) (b : Nat) : Nat := min 1024 (x.length - 1024 * b)

/-- The head of a SEG_BLOCK response (R524). -/
def Transfer.blockHead (x : Transfer) : List Byte := leBytes 2 x.id ++ [0, 0] ++ leBytes 4 x.next

/-- An HBM access that R505 refuses, as a storage error or a refusal (R527, R529). -/
def rangeRefusal (rule : Nat) (s : State) : Served × State :=
  if rule = 4 then (.reply stStorage [2], s) else if rule = 5 then (.reply stStorage [1], s) else refusedOpen s

/-- An upload block: in any order, NEXT is one above the highest requested (R530). -/
def uploadBlock (t b : Nat) (x : Transfer) (s : State) : Served × State :=
  let y := { x with next := max x.next (b + 1) }
  if x.blocks ≤ b then (refused stRange, s)
  else if x.kind = 0 then (.reply stDone (y.blockHead ++ bytesAt x.data (1024 * b) (x.blockLen b)), s.setTransfer t y)
  else match bar2Read 0 (x.target + 1024 * b) (x.blockLen b) s with
    | (.done l, s) => (.reply stDone (y.blockHead ++ l), s.setTransfer t y)
    | (.refused rule, s) => rangeRefusal rule s
    | (.held, _) => (.wait, s)

/-- A firmware block that is NEXT: the header is checked at block 0 and the signatures when NEXT reaches 4; a refusal ends the transfer
(R530, R576). -/
def imageBlock (q : Request) (t : Nat) (y : Transfer) (s : State) : Served × State :=
  let refuse (own : Bool) (e : Nat) : Served × State :=
    (.reply stRefused [BitVec.ofNat 8 e], endTransfer t stRefused (refuseUpdate own e s))
  if y.next = 1 then
    let e := s.headerRefusal q.sender y.data y.length
    if e ≠ 0 then refuse false e else (.reply stDone y.blockHead, acceptHeader (y.data.take 256) (s.setTransfer t y))
  else if y.next = 4 && s.imageRefusal y.data ≠ 0 then refuse true (s.imageRefusal y.data)
  else (.reply stDone y.blockHead, s.setTransfer t y)

/-- A download block that is NEXT and of its length (R529, R530). -/
def acceptBlock (q : Request) (t : Nat) (flash : FlashEnd) (d : List Byte) (x : Transfer) (s : State) : Served × State :=
  let y := { x with next := x.next + 1, data := if x.kind = 1 then x.data else x.data ++ d }
  match x.kind with
  | 0 => (.reply stDone y.blockHead, s.setTransfer t y)
  | 1 => match bar2Write 0 (x.target + 1024 * x.next) d s with
    | (.done _, s) => (.reply stDone y.blockHead, s.setTransfer t y)
    | (.refused rule, s) => rangeRefusal rule s
    | (.held, _) => (.wait, s)
  | _ =>
    if s.updateLocked q.sender then (.reply stRefused [0x0D], s)
    else match flash with
      | .done => imageBlock q t y s
      | .failed => (refused stFlash, s)
      | .cut => let f := s.fresh; (.lost, if bitAt f.1 0 then (imageBlock q t y f.2).2 else f.2)

/-- A download block (R530). -/
def downloadBlock (q : Request) (t b : Nat) (flash : FlashEnd) (d : List Byte) (x : Transfer) (s : State) : Served × State :=
  if b < x.next then (.reply stDone x.blockHead, s)
  else if x.next < b then (.reply stSequence x.blockHead, s)
  else if x.blocks ≤ b || d.length ≠ x.blockLen b then (refused stType, s)
  else acceptBlock q t flash d x s

/-- SEG_BLOCK: a block delivered or requested (R530). -/
def serveSegBlock (flash : FlashEnd) (q : Request) (s : State) : Served × State :=
  let b := q.body
  if decide (b.length < 8) || fld b 2 2 ≠ 0 then (refused stMalformed, s)
  else match s.slotOf_ (fld b 0 2) with
    | none => (refused stTransfer, s)
    | some t =>
      let x := { s.transfer t with lastAt := s.clock }
      let s := s.setTransfer t x
      if x.upload then (if b.length ≠ 8 then (refused stMalformed, s) else uploadBlock t (fld b 4 4) x s)
      else downloadBlock q t (fld b 4 4) flash (b.drop 8) x s

/-- SEG_BLOCK; `flash` is how the block of a firmware image is written (R530, R531). -/
def execSegBlock (flash : FlashEnd) (s : State) : Host.Outcome State Fault Refusal := .next (serveOp 0x11 (serveSegBlock flash) s)

/-- A message whose body is an ID and two reserved bytes: the slot it names. -/
def namedSlot (q : Request) (s : State) (f : Nat → Transfer → Served × State) : Served × State :=
  let b := q.body
  if b.length ≠ 4 || fld b 2 2 ≠ 0 then (refused stMalformed, s)
  else match s.slotOf_ (fld b 0 2) with
    | none => (refused stTransfer, s)
    | some t => f t (s.transfer t)

/-- SEG_QUERY (R524). -/
def serveSegQuery (q : Request) (s : State) : Served × State :=
  namedSlot q s (fun t x => (s.segReply t, s.setTransfer t { x with lastAt := s.clock }))

/-- SEG_QUERY (R524). -/
def execSegQuery (s : State) : Host.Outcome State Fault Refusal := .next (serveOp 0x12 serveSegQuery s)

/-- A KIND 0 download is whole: the object is written, and the transfer ends with the status; a calibration download refused for HOLDUP
stays open (R531, R538, R584). -/
def endObject (q : Request) (t : Nat) (flash : FlashEnd) (x : Transfer) (s : State) : Served × State :=
  let idx := x.target / 256 % 65536
  let sub := x.target % 256
  let cal := decide (0x0501 ≤ idx) && decide (idx ≤ 0x0505)
  if cal && !s.env.holdupOk then (refused stState, s.setTransfer t { x with lastAt := s.clock })
  else match writeObj q.sender idx sub (typeOf idx sub) (x.data.take x.length) flash s with
    | (.ok _, s) => (refused stDone, endTransfer t stDone s)
    | (.err e l, s) => (.reply e l, endTransfer t e s)
    | (.wait, _) => (.wait, s)
    | (.lost, s) => (.lost, s)

/-- An image that is still being received is dropped, with a result; one that is staged stays (R531, R572, R576; log entry 57). -/
def dropReceived (result : Nat) (s : State) : State :=
  if s.upd.state = 1 then setUpdate 0 result (dropStaged s) else setUpdate s.upd.state result s

/-- SEG_END (R531). -/
def serveSegEnd (flash : FlashEnd) (q : Request) (s : State) : Served × State :=
  namedSlot q s (fun t x =>
    if x.upload then (refused stDone, endTransfer t stDone s)
    else if x.next < x.blocks then (refused stSequence, endTransfer t stSequence (if x.kind = 2 then dropReceived s.upd.result s else s))
    else match x.kind with
      | 0 => endObject q t flash x s
      | 1 => (refused stDone, endTransfer t stDone s)
      | _ =>
        let r := stageImage x.data s
        if r.1 = 0 then (refused stDone, endTransfer t stDone r.2)
        else (.reply stRefused [BitVec.ofNat 8 r.1], endTransfer t stRefused r.2))

/-- SEG_END; `flash` is how the write of a persistent object ends (R531). -/
def execSegEnd (flash : FlashEnd) (s : State) : Host.Outcome State Fault Refusal := .next (serveOp 0x13 (serveSegEnd flash) s)

/-- SEG_ABORT (R531). -/
def serveSegAbort (q : Request) (s : State) : Served × State :=
  namedSlot q s (fun t x => (refused stDone, endTransferOpen t (if x.kind = 2 then dropReceived 0x11 s else s)))

/-- SEG_ABORT (R531). -/
def execSegAbort (s : State) : Host.Outcome State Fault Refusal := .next (serveOp 0x14 serveSegAbort s)

/-- SEG_TIMEOUT: every transfer but KIND 2 that no message has named for 600 s ends (R531). -/
def execSegTimeout (s : State) : Host.Outcome State Fault Refusal :=
  .next ((List.range 4).foldl (fun s t =>
    let x := s.transfer t
    if x.id ≠ 0 && x.kind ≠ 2 && decide (x.lastAt + 600 * secBeats ≤ s.clock) then endTransferOpen t s else s) s)

/-- SERVICE_SEND: W0 to W15 and DESC; a descriptor that R510 discards receives the range error (R524, R533). -/
def serveServiceSend (q : Request) (s : State) : Served × State :=
  let b := q.body
  if b.length ≠ 136 then (refused stMalformed, s)
  else match serviceSend 17 ((List.range 16).map (fun i => BitVec.ofNat 64 (fld b (8 * i) 8))) (BitVec.ofNat 64 (fld b 128 8)) s with
    | (.overflow, s) => (refused stRange, s)
    | (.refused, s) => (refused stDone, s)
    | (.queued, s) => (refused stDone, s)
    | (.held, _) => (.wait, s)

/-- SERVICE_SEND (R533). -/
def execServiceSend (s : State) : Host.Outcome State Fault Refusal := .next (serveOp 0x20 serveServiceSend s)

/-- Whether the management port is silent: before the boot, after failed duplicate address detection, or disabled (R520, R534). -/
def State.portSilent (s : State) : Bool := !s.power.booted || s.mgmt.silent || s.setting 0x0250 7 1 = 0

/-- Whether a packet is one that the module discards and counts: a hop limit other than 255, an extension header, or a source outside fe80::/10
(R520). -/
def packetBad (src : BitVec 128) (hop : BitVec 8) (extended : Bool) : Bool :=
  hop ≠ 255 || extended || bitsOf src 118 10 ≠ 0x3FA

/-- A datagram that the module discards and counts: a bad packet, another port than 47113, or a bad checksum (R520). -/
def Datagram.bad (d : Datagram) : Bool := packetBad d.src d.hop d.extended || d.dstPort ≠ 47113 || !d.sumOk

/-- A datagram is queued; a ninth is discarded and counted, and a multicast that is no READ is discarded (R523, R528). -/
def takeDatagram (addr port : Nat) (multicast : Bool) (bytes : List Byte) (s : State) : State :=
  if multicast && fld bytes 3 1 ≠ 1 then s
  else if 8 ≤ s.mgmt.queue.length then s.bump 0x501E 3 1
  else { s with mgmt := { s.mgmt with queue := s.mgmt.queue ++ [{ addr := addr, port := port, bytes := bytes }] } }

/-- MGMT_FRAME: a frame on the management port (R519, R520, R523, R528). -/
def execMgmtFrame (frame : MgmtFrame) (s : State) : Host.Outcome State Fault Refusal :=
  if s.portSilent then .next s
  else
    let s := { s with out := [] }
    match frame with
    | .udp d =>
      if d.bad then .next (s.bump 0x501E 3 1)
      else .next (settle 9 (takeDatagram d.src.toNat d.srcPort.toNat d.multicast d.bytes s))
    | .icmp src hop extended => .next (if packetBad src hop extended then s.bump 0x501E 3 1 else s)
    | .other => .next s
    | .dadFailed => .next (freeRecord { s with mgmt := { s.mgmt with silent := true } })
    | .collision => .next (if s.setting 0x0250 3 1 = 1 then s.bump 0x501E 5 1 else s)

end Sys2Proof.Machine
end

