-- ==== Sys2Proof/Machine/JtagPort.lean ====
section
/-! DEFINITION. The JTAG port (IDCODE … TAP_RESET; R626-R628). -/
namespace Sys2Proof.Machine

/-- An instruction selected: any pins the one before drove or floated return to their functions (R627, R628). -/
def tapSelect (i : TapInsn) (s : State) : State :=
  { s with jtag := { s.jtag with insn := i, pinsDriven := i = .extest || i = .clamp, pinsFloat := i = .highz } }

/-- An instruction whose condition does not hold acts as BYPASS (R627). -/
def tapIf (cond : Bool) (i : TapInsn) (f : State → State) (s : State) : State := if cond then f (tapSelect i s) else tapSelect .bypass s

/-- DEBUG_STATE 1 and DEV_STATE Service at rest (R627). -/
def State.atRest (s : State) : Bool := s.sec.debug && s.power.dev = .service && s.power.starting.isNone

/-- The identification code (R627): version 2, part 0x1088, the manufacturer code. -/
def idCode : Nat := at_ 28 2 + at_ 12 0x1088 + at_ 1 Config.jep106.toNat + 1

/-- IDCODE: the identification code is shifted out, in `out` (R627). -/
def execIdcode (s : State) : Host.Outcome State Fault Refusal := .next { (tapSelect .idcode s) with out := leBytes 4 idCode }

/-- SAMPLE/PRELOAD: the boundary register is sampled, its cells in an order the spec does not give, and loaded with `preload` (R626, R627;
log entry 3). -/
def execSamplePreload (preload : Word) (s : State) : Host.Outcome State Fault Refusal :=
  let f := (tapSelect .samplePreload s).fresh
  .next { f.2 with out := leBytes 8 f.1.toNat, jtag := { f.2.jtag with boundary := preload } }

/-- EXTEST: the pins are driven from the boundary register (R627, R628). -/
def execExtest (s : State) : Host.Outcome State Fault Refusal := .next (tapIf s.atRest .extest (fun s => s) s)
/-- CLAMP: the pins are held from the boundary register with BYPASS selected (R627). -/
def execClamp (s : State) : Host.Outcome State Fault Refusal := .next (tapIf s.atRest .clamp (fun s => s) s)
/-- HIGHZ: the boundary outputs float (R627). -/
def execHighz (s : State) : Host.Outcome State Fault Refusal := .next (tapIf s.atRest .highz (fun s => s) s)

/-- LBIST_SELECT: the core and slice to test; bits [23:17] hold 0 (R627). -/
def execLbistSelect (value : BitVec 24) (s : State) : Host.Outcome State Fault Refusal :=
  .next (tapIf s.sec.debug .lbistSelect (fun s => { s with jtag := { s.jtag with select := BitVec.ofNat 24 (bitsOf value 0 17) } }) s)

/-- The physical core that LBIST_SELECT names, if there is one (R627). -/
def Jtag.core (j : Jtag) : Option Nat :=
  let pc := bitsOf j.select 0 6
  if pc < 34 then some (physAt pc (bitsOf j.select 6 5)) else none

/-- LBIST_RESULT's register: the signature, which the spec leaves open, pass, done and abandoned (R627). -/
def lbistWord (sig : Word) (pass done abandoned : Bool) : BitVec 72 :=
  BitVec.ofNat 72 (sig.toNat + at_ 64 (bit01 pass) + at_ 65 (bit01 done) + at_ 66 (bit01 abandoned))

/-- A slice through LBIST_RUN, as a run-time slice of a pack without a program (R435, R445, R448, R628); none is one abandoned (R443). -/
def lbistRun (n : Nat) (found : Option Finding) (s : State) : State :=
  let p := physPack n
  let u := (packPhys p).idxOf n
  let slice := bitsOf s.jtag.select 11 6
  let f := s.fresh
  let s := f.2
  match found with
  | none => { (s.bump (0x1800 + p) 0x44 1) with jtag := { s.jtag with result := lbistWord f.1 false false true } }
  | some x =>
    if !x.fits u slice then s
    else
      let s := sliceResult p { unit := u, slice := slice, startedAt := s.clock } x s
      { s with jtag := { s.jtag with result := lbistWord f.1 (x = .pass) true false } }

/-- LBIST_RUN at Run-Test/Idle, with what the slice finds: Idle, and the core's pack without a program, not held safe and with no slice
in progress (R627, R628). -/
def execLbistRun (found : Option Finding) (s : State) : Host.Outcome State Fault Refusal :=
  match s.jtag.core with
  | none => .next (tapIf (s.sec.debug && s.power.dev = .idle) .lbistRun (fun s => s) s)
  | some n =>
    let p := physPack n
    let cond := s.sec.debug && s.power.dev = .idle && (s.pack p).state = .empty && !(s.vetPack p).held && (s.vetPack p).active.isNone
    .next (tapIf cond .lbistRun (lbistRun n found) s)

/-- LBIST_RESULT: the result is shifted out, in `out` (R627). -/
def execLbistResult (s : State) : Host.Outcome State Fault Refusal :=
  .next (tapIf s.sec.debug .lbistResult (fun s => { s with out := leBytes 9 s.jtag.result.toNat }) s)

/-- BYPASS (R627). -/
def execBypass (s : State) : Host.Outcome State Fault Refusal := .next (tapSelect .bypass s)

/-- TAP_RESET: Test-Logic-Reset; every pin returns to its function (R627, R628). -/
def execTapReset (s : State) : Host.Outcome State Fault Refusal := .next (tapReset s)

end Sys2Proof.Machine
end

