-- ==== Sys2Proof/Machine/Scalar.lean ====
section
/-! DEFINITION. The scalar instructions (NOP … RDSR; R196-R201). -/
namespace Sys2Proof.Machine

/-- A scalar register of the issuing stream written. -/
def setX (x : Issued) (r : Nat) (v : Word) (s : State) : State :=
  s.modCore x.c (fun k => k.modStream x.i (fun t => t.setReg r v))

/-- PC of the issuing stream set to a target (R197, R201). -/
def setPc (x : Issued) (target : Nat) (s : State) : State :=
  s.modCore x.c (fun k => k.modStream x.i (fun t => { t with pc := BitVec.ofNat 12 target }))

/-- NOP (R197). -/
def execNop (core : CoreId) (stream : StreamId) (s : State) : Host.Outcome State Fault Refusal :=
  .next (issueOp 0x01 core.val stream.val (fun _ s => s) s)

/-- MOVI: XD takes the 64-bit immediate (R197). -/
def execMovi (core : CoreId) (stream : StreamId) (s : State) : Host.Outcome State Fault Refusal :=
  .next (issueOp 0x02 core.val stream.val (fun x s => setX x (ifld x.w 11 8) (BitVec.ofNat 64 (ifld x.w 127 64)) s) s)

/-- Operand B of ALU: a register, or IMM32 sign-extended (R196). -/
def aluB (x : Issued) : Word :=
  if bitAt x.w 20 then (BitVec.ofNat 32 (ifld x.w 95 64)).signExtend 64 else x.rb

/-- ALU (R197, R198). -/
def execAlu (core : CoreId) (stream : StreamId) (s : State) : Host.Outcome State Fault Refusal :=
  .next (issueOp 0x03 core.val stream.val (fun x s => setX x (ifld x.w 11 8) (aluFn (ifld x.w 25 21) x.ra (aluB x)) s) s)

/-- The loop counters of R74. -/
def Stream.lcv (t : Stream) (n : Nat) : BitVec 32 := tabGet 0 t.lc (n % 4)
/-- One loop counter written. -/
def Stream.setLc (t : Stream) (n : Nat) (v : BitVec 32) : Stream := { t with lc := tabSet 0 t.lc (n % 4) v }

/-- LCSET (R197). -/
def execLcset (core : CoreId) (stream : StreamId) (s : State) : Host.Outcome State Fault Refusal :=
  .next (issueOp 0x04 core.val stream.val (fun x s =>
    let v : BitVec 32 := if bitAt x.w 20 then BitVec.ofNat 32 (bitsOf x.ra 0 32) else BitVec.ofNat 32 (ifld x.w 95 64)
    s.modCore x.c (fun k => k.modStream x.i (fun t => t.setLc (ifld x.w 25 21) v))) s)

/-- LOOP: a nonzero counter is decremented and, if still nonzero, PC takes the target (R197). -/
def execLoop (core : CoreId) (stream : StreamId) (s : State) : Host.Outcome State Fault Refusal :=
  .next (issueOp 0x05 core.val stream.val (fun x s =>
    let n := ifld x.w 25 21
    let v := ((s.core x.c).stream x.i).lcv n
    if v = 0 then s
    else
      let s := s.modCore x.c (fun k => k.modStream x.i (fun t => t.setLc n (v - 1)))
      if v - 1 = 0 then s else setPc x (ifld x.w 43 32) s) s)

/-- BR (R197, R199). -/
def execBr (core : CoreId) (stream : StreamId) (s : State) : Host.Outcome State Fault Refusal :=
  .next (issueOp 0x06 core.val stream.val (fun x s =>
    if brHolds (ifld x.w 25 21) x.ra x.rb then setPc x (ifld x.w 43 32) s else s) s)

/-- The values of the RDSR selectors (R200). -/
def rdsrValue (x : Issued) (s : State) : Word :=
  let k := s.core x.c
  let p := s.pack (packOf x.c)
  match ifld x.w 25 21 with
  | 0 => s.howlAt x.c
  | 1 => p.step
  | 2 => BitVec.ofNat 64 x.c
  | 3 => BitVec.ofNat 64 x.i
  | 4 => BitVec.ofNat 64 (packOf x.c)
  | 5 => BitVec.ofNat 64 s.device
  | 6 => ((k.stream x.i).lcv 0).setWidth 64
  | 7 => ((k.stream x.i).lcv 1).setWidth 64
  | 8 => ((k.stream x.i).lcv 2).setWidth 64
  | 9 => ((k.stream x.i).lcv 3).setWidth 64
  | 10 => BitVec.ofNat 64 k.checked
  | _ => BitVec.ofNat 64 p.freq

/-- RDSR (R197, R200). -/
def execRdsr (core : CoreId) (stream : StreamId) (s : State) : Host.Outcome State Fault Refusal :=
  .next (issueOp 0x07 core.val stream.val (fun x s => setX x (ifld x.w 11 8) (rdsrValue x s) s) s)

end Sys2Proof.Machine
end

