-- ==== Sys2Proof/Machine/Dispatch.lean ====
section
/-! DEFINITION. The dispatch: one arm per command, each one direct call of its meaning. -/
namespace Sys2Proof.Machine

/-- A command's effect on everything but the queue. -/
def exec (i : Instr) (s : State) : Host.Outcome State Fault Refusal :=
  match i with
  | .powerOn => Sys2Proof.Machine.execPowerOn s
  | .powerOff => Sys2Proof.Machine.execPowerOff s
  | .modResetAssert => Sys2Proof.Machine.execModResetAssert s
  | .startupStepDone findings => Sys2Proof.Machine.execStartupStepDone findings s
  | .howlRefLock => Sys2Proof.Machine.execHowlRefLock s
  | .holdover => Sys2Proof.Machine.execHoldover s
  | .howlBroadcast => Sys2Proof.Machine.execHowlBroadcast s
  | .howlPpsCapture => Sys2Proof.Machine.execHowlPpsCapture s
  | .timedLaunch pack => Sys2Proof.Machine.execTimedLaunch pack s
  | .stepReadyPost core => Sys2Proof.Machine.execStepReadyPost core s
  | .gatedLaunch pack => Sys2Proof.Machine.execGatedLaunch pack s
  | .overrun pack => Sys2Proof.Machine.execOverrun pack s
  | .relockDone pack => Sys2Proof.Machine.execRelockDone pack s
  | .emergencyClockdown target => Sys2Proof.Machine.execEmergencyClockdown target s
  | .cycleStretch core => Sys2Proof.Machine.execCycleStretch core s
  | .entryStart core dir => Sys2Proof.Machine.execEntryStart core dir s
  | .slipBegin core dir => Sys2Proof.Machine.execSlipBegin core dir s
  | .openSlotService core dir => Sys2Proof.Machine.execOpenSlotService core dir s
  | .fetchLaneService core dir => Sys2Proof.Machine.execFetchLaneService core dir s
  | .firstSlipRearm => Sys2Proof.Machine.execFirstSlipRearm s
  | .headerArrival core dir ecc => Sys2Proof.Machine.execHeaderArrival core dir ecc s
  | .lastMeshFaultRead => Sys2Proof.Machine.execLastMeshFaultRead s
  | .routerDrained core => Sys2Proof.Machine.execRouterDrained core s
  | .serviceAnswer core => Sys2Proof.Machine.execServiceAnswer core s
  | .serviceMcastTimeout core => Sys2Proof.Machine.execServiceMcastTimeout core s
  | .bowlDelivery core => Sys2Proof.Machine.execBowlDelivery core s
  | .writePointerPublish core bowl => Sys2Proof.Machine.execWritePointerPublish core bowl s
  | .channelClosed core => Sys2Proof.Machine.execChannelClosed core s
  | .serviceNack core => Sys2Proof.Machine.execServiceNack core s
  | .streamWake core stream => Sys2Proof.Machine.execStreamWake core stream s
  | .nop core stream => Sys2Proof.Machine.execNop core stream s
  | .movi core stream => Sys2Proof.Machine.execMovi core stream s
  | .alu core stream => Sys2Proof.Machine.execAlu core stream s
  | .lcset core stream => Sys2Proof.Machine.execLcset core stream s
  | .loop core stream => Sys2Proof.Machine.execLoop core stream s
  | .br core stream => Sys2Proof.Machine.execBr core stream s
  | .rdsr core stream => Sys2Proof.Machine.execRdsr core stream s
  | .fetch core stream => Sys2Proof.Machine.execFetch core stream s
  | .store core stream => Sys2Proof.Machine.execStore core stream s
  | .mma core stream => Sys2Proof.Machine.execMma core stream s
  | .dcfg core stream => Sys2Proof.Machine.execDcfg core stream s
  | .add core stream => Sys2Proof.Machine.execAdd core stream s
  | .sub core stream => Sys2Proof.Machine.execSub core stream s
  | .mul core stream => Sys2Proof.Machine.execMul core stream s
  | .fma core stream => Sys2Proof.Machine.execFma core stream s
  | .min core stream => Sys2Proof.Machine.execMin core stream s
  | .max core stream => Sys2Proof.Machine.execMax core stream s
  | .abs core stream => Sys2Proof.Machine.execAbs core stream s
  | .neg core stream => Sys2Proof.Machine.execNeg core stream s
  | .cmp core stream => Sys2Proof.Machine.execCmp core stream s
  | .sel core stream => Sys2Proof.Machine.execSel core stream s
  | .cvt core stream => Sys2Proof.Machine.execCvt core stream s
  | .func core stream => Sys2Proof.Machine.execFunc core stream s
  | .reduce core stream => Sys2Proof.Machine.execReduce core stream s
  | .gather core stream => Sys2Proof.Machine.execGather core stream s
  | .fill core stream => Sys2Proof.Machine.execFill core stream s
  | .send core stream => Sys2Proof.Machine.execSend core stream s
  | .sendt core stream => Sys2Proof.Machine.execSendt core stream s
  | .take core stream => Sys2Proof.Machine.execTake core stream s
  | .post core stream => Sys2Proof.Machine.execPost core stream s
  | .wait core stream => Sys2Proof.Machine.execWait core stream s
  | .fadd core stream => Sys2Proof.Machine.execFadd core stream s
  | .reset core stream => Sys2Proof.Machine.execReset core stream s
  | .claim core stream => Sys2Proof.Machine.execClaim core stream s
  | .complete core stream => Sys2Proof.Machine.execComplete core stream s
  | .stepdone core stream => Sys2Proof.Machine.execStepdone core stream s
  | .rsample core stream => Sys2Proof.Machine.execRsample core stream s
  | .rcancel core stream => Sys2Proof.Machine.execRcancel core stream s
  | .remotePost core => Sys2Proof.Machine.execRemotePost core s
  | .remoteFetchAdd core => Sys2Proof.Machine.execRemoteFetchAdd core s
  | .remoteClaim core => Sys2Proof.Machine.execRemoteClaim core s
  | .remoteComplete core => Sys2Proof.Machine.execRemoteComplete core s
  | .nullClaim core => Sys2Proof.Machine.execNullClaim core s
  | .collarReply core => Sys2Proof.Machine.execCollarReply core s
  | .matrixProblemReady core verdict => Sys2Proof.Machine.execMatrixProblemReady core verdict s
  | .drainComplete core => Sys2Proof.Machine.execDrainComplete core s
  | .vectorComplete core => Sys2Proof.Machine.execVectorComplete core s
  | .fetchRequestIssue core => Sys2Proof.Machine.execFetchRequestIssue core s
  | .requestAccept stack => Sys2Proof.Machine.execRequestAccept stack s
  | .stackServe stack pick => Sys2Proof.Machine.execStackServe stack pick s
  | .rfm stack bank => Sys2Proof.Machine.execRfm stack bank s
  | .fetchReply core => Sys2Proof.Machine.execFetchReply core s
  | .fetchComplete core => Sys2Proof.Machine.execFetchComplete core s
  | .recalibrate stack => Sys2Proof.Machine.execRecalibrate stack s
  | .tempRecalibration stack temp => Sys2Proof.Machine.execTempRecalibration stack temp s
  | .recalibrationDone stack => Sys2Proof.Machine.execRecalibrationDone stack s
  | .retrain stack => Sys2Proof.Machine.execRetrain stack s
  | .retrainDone stack ok => Sys2Proof.Machine.execRetrainDone stack ok s
  | .groomerPassStart core => Sys2Proof.Machine.execGroomerPassStart core s
  | .groomerVisit core => Sys2Proof.Machine.execGroomerVisit core s
  | .groomerRewrite core => Sys2Proof.Machine.execGroomerRewrite core s
  | .checkAndInstall => Sys2Proof.Machine.execCheckAndInstall s
  | .checkOnly => Sys2Proof.Machine.execCheckOnly s
  | .loadAbort => Sys2Proof.Machine.execLoadAbort s
  | .pedigreeCheckDone => Sys2Proof.Machine.execPedigreeCheckDone s
  | .installDone => Sys2Proof.Machine.execInstallDone s
  | .generatorStart => Sys2Proof.Machine.execGeneratorStart s
  | .generatorStop => Sys2Proof.Machine.execGeneratorStop s
  | .hostFed => Sys2Proof.Machine.execHostFed s
  | .generatorDescriptor => Sys2Proof.Machine.execGeneratorDescriptor s
  | .lwTimeWrite fn pack mode time bytes ide => Sys2Proof.Machine.execLwTimeWrite fn pack mode time bytes ide s
  | .inTailWrite fn ctx value ide => Sys2Proof.Machine.execInTailWrite fn ctx value ide s
  | .cplHeadWrite fn ctx value ide => Sys2Proof.Machine.execCplHeadWrite fn ctx value ide s
  | .ringErrClear fn ctx bits ide => Sys2Proof.Machine.execRingErrClear fn ctx bits ide s
  | .inputTokens ctx => Sys2Proof.Machine.execInputTokens ctx s
  | .inputParams ctx => Sys2Proof.Machine.execInputParams ctx s
  | .paramsAnswer ctx => Sys2Proof.Machine.execParamsAnswer ctx s
  | .inputHandoff ctx => Sys2Proof.Machine.execInputHandoff ctx s
  | .inputClose ctx => Sys2Proof.Machine.execInputClose ctx s
  | .retrieverLogits pack => Sys2Proof.Machine.execRetrieverLogits pack s
  | .retrieverSampleCmd pack => Sys2Proof.Machine.execRetrieverSampleCmd pack s
  | .retrieverCancelCmd pack => Sys2Proof.Machine.execRetrieverCancelCmd pack s
  | .sampleStart pack => Sys2Proof.Machine.execSampleStart pack s
  | .sampleReady pack => Sys2Proof.Machine.execSampleReady pack s
  | .completionWrite ctx => Sys2Proof.Machine.execCompletionWrite ctx s
  | .completionAccepted pack => Sys2Proof.Machine.execCompletionAccepted pack s
  | .frameReceive port frame corrected uncorrected frac => Sys2Proof.Machine.execFrameReceive port frame corrected uncorrected frac s
  | .retryRequest port frame => Sys2Proof.Machine.execRetryRequest port frame s
  | .portDown port => Sys2Proof.Machine.execPortDown port s
  | .portDisable port flash => Sys2Proof.Machine.execPortDisable port flash s
  | .portTrain port flash => Sys2Proof.Machine.execPortTrain port flash s
  | .portUp port => Sys2Proof.Machine.execPortUp port s
  | .fabricPacketArrival port => Sys2Proof.Machine.execFabricPacketArrival port s
  | .deliveryAnswer => Sys2Proof.Machine.execDeliveryAnswer s
  | .replyTimeout => Sys2Proof.Machine.execReplyTimeout s
  | .agedDiscard => Sys2Proof.Machine.execAgedDiscard s
  | .jobStart => Sys2Proof.Machine.execJobStart s
  | .jobLeave => Sys2Proof.Machine.execJobLeave s
  | .jobStartTimeout => Sys2Proof.Machine.execJobStartTimeout s
  | .hello port => Sys2Proof.Machine.execHello port s
  | .join port => Sys2Proof.Machine.execJoin port s
  | .start port => Sys2Proof.Machine.execStart port s
  | .beaconSend => Sys2Proof.Machine.execBeaconSend s
  | .beacon port => Sys2Proof.Machine.execBeacon port s
  | .neighbourSuspect device => Sys2Proof.Machine.execNeighbourSuspect device s
  | .neighbourSilent device => Sys2Proof.Machine.execNeighbourSilent device s
  | .suspect port => Sys2Proof.Machine.execSuspect port s
  | .selfMuzzle => Sys2Proof.Machine.execSelfMuzzle s
  | .ready port => Sys2Proof.Machine.execReady port s
  | .go port => Sys2Proof.Machine.execGo port s
  | .bark port => Sys2Proof.Machine.execBark port s
  | .barkCommand value => Sys2Proof.Machine.execBarkCommand value s
  | .barkLineRelease => Sys2Proof.Machine.execBarkLineRelease s
  | .barkLineSense => Sys2Proof.Machine.execBarkLineSense s
  | .epochPurge => Sys2Proof.Machine.execEpochPurge s
  | .rewind port => Sys2Proof.Machine.execRewind port s
  | .mirrorStart => Sys2Proof.Machine.execMirrorStart s
  | .mirrorAbort => Sys2Proof.Machine.execMirrorAbort s
  | .mirrorOpen => Sys2Proof.Machine.execMirrorOpen s
  | .mirrorWrite => Sys2Proof.Machine.execMirrorWrite s
  | .mirrorCommit => Sys2Proof.Machine.execMirrorCommit s
  | .mirrorAnswer => Sys2Proof.Machine.execMirrorAnswer s
  | .vetSliceStart pack condOk => Sys2Proof.Machine.execVetSliceStart pack condOk s
  | .vetSliceResult pack finding => Sys2Proof.Machine.execVetSliceResult pack finding s
  | .vetSliceAbandon pack => Sys2Proof.Machine.execVetSliceAbandon pack s
  | .replacementDrainEnd pack => Sys2Proof.Machine.execReplacementDrainEnd pack s
  | .replacementShiftDone pack ok => Sys2Proof.Machine.execReplacementShiftDone pack ok s
  | .replacementReloadDone pack => Sys2Proof.Machine.execReplacementReloadDone pack s
  | .fuseRepairs => Sys2Proof.Machine.execFuseRepairs s
  | .retestMuzzled => Sys2Proof.Machine.execRetestMuzzled s
  | .retestSafePacks => Sys2Proof.Machine.execRetestSafePacks s
  | .maintDone ok passed => Sys2Proof.Machine.execMaintDone ok passed s
  | .streamHang core stream => Sys2Proof.Machine.execStreamHang core stream s
  | .coreHang core => Sys2Proof.Machine.execCoreHang core s
  | .linkHang core dir => Sys2Proof.Machine.execLinkHang core dir s
  | .packHang pack => Sys2Proof.Machine.execPackHang pack s
  | .rungTimeout target => Sys2Proof.Machine.execRungTimeout target s
  | .teardownDrainEnd pack => Sys2Proof.Machine.execTeardownDrainEnd pack s
  | .zeroiseDone pack hbm => Sys2Proof.Machine.execZeroiseDone pack hbm s
  | .quarantineEnd pack => Sys2Proof.Machine.execQuarantineEnd pack s
  | .sniffDumpDone seq => Sys2Proof.Machine.execSniffDumpDone seq s
  | .sniffDumpTimeout seq written => Sys2Proof.Machine.execSniffDumpTimeout seq written s
  | .packReset mask => Sys2Proof.Machine.execPackReset mask s
  | .packResetDone pack => Sys2Proof.Machine.execPackResetDone pack s
  | .warmReset => Sys2Proof.Machine.execWarmReset s
  | .coldReset => Sys2Proof.Machine.execColdReset s
  | .warmRecoveryDone hbmStacks ports found => Sys2Proof.Machine.execWarmRecoveryDone hbmStacks ports found s
  | .unloadPacks mask => Sys2Proof.Machine.execUnloadPacks mask s
  | .alertAck mask => Sys2Proof.Machine.execAlertAck mask s
  | .statsClear value => Sys2Proof.Machine.execStatsClear value s
  | .sniffCommand mask => Sys2Proof.Machine.execSniffCommand mask s
  | .vfFlr vf => Sys2Proof.Machine.execVfFlr vf s
  | .pfReset => Sys2Proof.Machine.execPfReset s
  | .d3hotEntry fn => Sys2Proof.Machine.execD3hotEntry fn s
  | .d0Return fn => Sys2Proof.Machine.execD0Return fn s
  | .bar2Read fn offset len ide => Sys2Proof.Machine.execBar2Read fn offset len ide s
  | .bar2Write fn offset data ide => Sys2Proof.Machine.execBar2Write fn offset data ide s
  | .mailboxGo request len irq ide => Sys2Proof.Machine.execMailboxGo request len irq ide s
  | .serviceSendDesc fn words desc ide => Sys2Proof.Machine.execServiceSendDesc fn words desc ide s
  | .read => Sys2Proof.Machine.execRead s
  | .write flash => Sys2Proof.Machine.execWrite flash s
  | .readMulti => Sys2Proof.Machine.execReadMulti s
  | .describe => Sys2Proof.Machine.execDescribe s
  | .subscribe => Sys2Proof.Machine.execSubscribe s
  | .segStart => Sys2Proof.Machine.execSegStart s
  | .segBlock flash => Sys2Proof.Machine.execSegBlock flash s
  | .segQuery => Sys2Proof.Machine.execSegQuery s
  | .segEnd flash => Sys2Proof.Machine.execSegEnd flash s
  | .segAbort => Sys2Proof.Machine.execSegAbort s
  | .segTimeout => Sys2Proof.Machine.execSegTimeout s
  | .serviceSend => Sys2Proof.Machine.execServiceSend s
  | .mgmtFrame frame => Sys2Proof.Machine.execMgmtFrame frame s
  | .stateService => Sys2Proof.Machine.execStateService s
  | .stateIdle => Sys2Proof.Machine.execStateIdle s
  | .settingsCommand value from_ flash => Sys2Proof.Machine.execSettingsCommand value from_ flash s
  | .lock from_ => Sys2Proof.Machine.execLock from_ s
  | .unlock from_ => Sys2Proof.Machine.execUnlock from_ s
  | .calibrationWrite object data from_ flash => Sys2Proof.Machine.execCalibrationWrite object data from_ flash s
  | .pinPeakRead mailbox => Sys2Proof.Machine.execPinPeakRead mailbox s
  | .dbgDataRead mailbox => Sys2Proof.Machine.execDbgDataRead mailbox s
  | .dbgWrite data from_ => Sys2Proof.Machine.execDbgWrite data from_ s
  | .sessionTimeout => Sys2Proof.Machine.execSessionTimeout s
  | .debugUnlock token from_ => Sys2Proof.Machine.execDebugUnlock token from_ s
  | .debugLock value => Sys2Proof.Machine.execDebugLock value s
  | .debugExpiry => Sys2Proof.Machine.execDebugExpiry s
  | .attestNonce mailbox nonce => Sys2Proof.Machine.execAttestNonce mailbox nonce s
  | .doeRequest nonce => Sys2Proof.Machine.execDoeRequest nonce s
  | .updateCommit from_ flash => Sys2Proof.Machine.execUpdateCommit from_ flash s
  | .updateAbandon from_ => Sys2Proof.Machine.execUpdateAbandon from_ s
  | .trialConfirm => Sys2Proof.Machine.execTrialConfirm s
  | .trialTimeout => Sys2Proof.Machine.execTrialTimeout s
  | .thermalModelUpdate readings => Sys2Proof.Machine.execThermalModelUpdate readings s
  | .throttleRaise pack => Sys2Proof.Machine.execThrottleRaise pack s
  | .throttleLower pack => Sys2Proof.Machine.execThrottleLower pack s
  | .valveUpdate => Sys2Proof.Machine.execValveUpdate s
  | .iinExcess iin => Sys2Proof.Machine.execIinExcess iin s
  | .holdupLoss => Sys2Proof.Machine.execHoldupLoss s
  | .holdupRestore => Sys2Proof.Machine.execHoldupRestore s
  | .flowLow => Sys2Proof.Machine.execFlowLow s
  | .safeEntry cause => Sys2Proof.Machine.execSafeEntry cause s
  | .safeRailsOff => Sys2Proof.Machine.execSafeRailsOff s
  | .valveHoldEnd => Sys2Proof.Machine.execValveHoldEnd s
  | .idcode => Sys2Proof.Machine.execIdcode s
  | .samplePreload preload => Sys2Proof.Machine.execSamplePreload preload s
  | .extest => Sys2Proof.Machine.execExtest s
  | .clamp => Sys2Proof.Machine.execClamp s
  | .highz => Sys2Proof.Machine.execHighz s
  | .lbistSelect value => Sys2Proof.Machine.execLbistSelect value s
  | .lbistRun found => Sys2Proof.Machine.execLbistRun found s
  | .lbistResult => Sys2Proof.Machine.execLbistResult s
  | .bypass => Sys2Proof.Machine.execBypass s
  | .tapReset => Sys2Proof.Machine.execTapReset s
  | .engineResetDone core engine => Sys2Proof.Machine.execEngineResetDone core engine s
  | .coreResetDone core => Sys2Proof.Machine.execCoreResetDone core s
  | .dcfgComplete core => Sys2Proof.Machine.execDcfgComplete core s
  | .packCommitDone found => Sys2Proof.Machine.execPackCommitDone found s
  | .attestReportDone path => Sys2Proof.Machine.execAttestReportDone path s
  | .vfEnableWrite value => Sys2Proof.Machine.execVfEnableWrite value s
  | .linkRecovery rate width flit => Sys2Proof.Machine.execLinkRecovery rate width flit s
  | .frameSend port => Sys2Proof.Machine.execFrameSend port s
  | .msixVectorUnmask fn vector enable addr data ide => Sys2Proof.Machine.execMsixVectorUnmask fn vector enable addr data ide s

end Sys2Proof.Machine
end

