-- ==== Sys2Proof/Machine/Step.lean ====
section
/-! DEFINITION. One step of the block: the command at the front of the queue, or a beat where none waits. -/
namespace Sys2Proof.Machine

/-- A beat passes: what its end brings about happens, the model's clock counts it, and the Howl does while its generator runs (R27, R28,
R605; log entry 1). -/
def tick (s : State) : State :=
  let s := if s.power.howlOn then beatEnds s else s
  { s with clock := s.clock + 1, howl := if s.power.howlOn then s.howl + 1 else s.howl }

/-- The command at the front runs on the state with the queue's rest; with no command a beat passes (log entry 1). -/
def step (s : State) : Host.Outcome State Fault Refusal :=
  match s.pending with
  | [] => .next (tick s)
  | c :: rest => exec c { s with pending := rest }

/-- The table gives its rows no bits, so no word spells a command and the state is unchanged. -/
def State.withFetchWord (s : State) (_nbits _w : Nat) : State := s

end Sys2Proof.Machine
end

