-- ==== Sys2Proof/Decode.lean ====
section
/-! DEFINITION. The decoder of table words: the rows of spec/opcode_table.json give no bits. -/
namespace Sys2Proof

/-- The command a word spells: none, since no row of the table has bits. -/
def decodeTableWord (_nbits _w : Nat) : Option Instr := none

end Sys2Proof
end

