-- ==== Sys2Proof/Machine/Pins.lean ====
section
/-! DEFINITION. What the host and the carrier see: the registers of BAR0 (R503-R507, R510-R512), the sideband pins (R472, R563, R620,
R621), the Sniff port's level signals (R556-R558, R624), and the fabric connector's map (R618). No command reads a pin, and the table has
no row for a read of BAR0: these functions give what such a read shows of a state. -/
namespace Sys2Proof.Machine

/-- Whether ALERT_N is asserted: a source, or a start-up that stopped (R472, R562, R563). -/
def State.alertAsserted (s : State) : Bool := s.power.booted && (s.faults.alerts ≠ 0 || s.power.stalled || s.power.romService)

/-- Whether BARK_N is driven low (R424, R621). -/
def State.barkDriven (s : State) : Bool := s.job.barkLineUntil.isSome

/-- PWR_GOOD: high while the core, HBM and fabric rails are in regulation (R621). -/
def State.pwrGood (s : State) : Bool := s.power.rails

/-- DEV_STATUS (R507). -/
def State.devStatus (s : State) : Nat :=
  at_ 8 s.power.step + at_ 7 (bit01 s.alertAsserted) + at_ 3 (bit01 s.power.ready) + s.power.dev.code

/-- MB_STATUS (R503). -/
def State.mbStatus (s : State) : Nat :=
  at_ 16 s.host.mbResp.length + at_ 2 (bit01 s.host.mbOver) + at_ 1 (bit01 s.host.mbDone) + bit01 s.host.mbBusy

/-- SS_STATUS of a function (R510). -/
def State.ssStatus (s : State) (fn : Nat) : Nat := at_ 1 (bit01 (s.fn fn).overflow) + bit01 (decide (0 < s.pendingSends fn))

/-- The NACK log of a function (R503, R511). -/
def State.nackBytes (s : State) (fn : Nat) : List Byte := (List.range 64).flatMap (fun i => leBytes 16 (tabGet 0 (s.fn fn).nackLog i).toNat)

/-- A pack's launch window as a function reads it: LW_MODE at +8, LW_DEPTH at +0xC, LW_DROPS at +0x10; zeros where the window is not the
function's (R498, R512). -/
def State.launchWindow (s : State) (fn p : Nat) : List Byte :=
  if !s.serves fn p then List.replicate 32 0
  else fitTo 0 32 (List.replicate 8 0 ++ leBytes 4 (bit01 (tabGet false s.host.lwGated p)) ++ leBytes 4 (s.pack p).queue.length
    ++ leBytes 4 (tabGet 0 s.host.lwDrops p).toNat)

/-- A context block as a function reads it; zeros where the context is not the function's (R498, R506). -/
def State.contextBlock (s : State) (fn n : Nat) : List Byte :=
  let x := s.ctx n
  if !s.serves fn (n % 16) then List.replicate 64 0
  else fitTo 0 64 (leBytes 4 x.inTail.toNat ++ leBytes 4 x.cplHead.toNat ++ leBytes 4 (s.inRead n).toNat ++ leBytes 4 x.cplTail.toNat
    ++ leBytes 1 x.ringErr.toNat)

/-- The level a Sniff pin's selection shows: Howl bits, a clock-down, head entry indices, parked streams and slices. A strobe shows an
event within a period and is no function of a state (R623, R624). -/
def State.sniffLevel (s : State) (sel : Nat) : Bool :=
  let g := sel % 65536
  let core := s.heldBy (physAt (fieldOf sel 16 6) (fieldOf sel 22 5))
  if 0x0100 ≤ g && g < 0x0120 then bitAt s.howl (g - 0x0100)
  else if g = 0x0123 then s.env.clockdown ≠ 0
  else match core with
    | none => false
    | some c =>
      let k := s.core c
      if 0x1100 ≤ g && g < 0x1150 then fieldOf (k.output (Dir.ofCode ((g - 0x1100) / 16))).head (g % 16) 1 = 1
      else if 0x1208 ≤ g && g < 0x1210 then
        let t := (k.stream (g - 0x1208)).st
        t = .parkedCollar || t = .parkedBowl || t = .parkedClaim || t = .parkedLaunch
      else g = 0x1303 && k.vetting

/-- Level of pin SNFi: low while the port is off (R558). -/
def State.sniffPin (s : State) (i : Nat) : Bool := s.setting 0x7000 1 0 = 1 && s.sniffLevel (s.setting 0x7001 (i + 1) 0)

/-- Signal row and P-side column of a lane on the fabric connector; `rx` is the module's receiver (R618). -/
def fabricPosition (f lane : Nat) (rx : Bool) : Nat × Nat :=
  let q := 8 * f + 2 * lane + bit01 rx
  (q / 24, 2 * (q % 24) + 1)

end Sys2Proof.Machine
end

