-- ==== Sys2Proof/Safety.lean ====
section
/-! DEFINITION. The terms claims are stated in: when an instruction issues, what a step leaves unchanged, and the invariants of the
module. -/
namespace Sys2Proof.Machine

/-- The stream is Ready in a pack that lets it issue, and the word at its PC, with at most the one error its code corrects, has opcode `op`,
touches no pending register, passes every check of R192 and does not stall, and no stream before it in the rotating order can issue; `x` is that
word with its operand registers (R76-R79, R192, R195). -/
def Issues (op c i : Nat) (s : State) (x : Issued) : Prop :=
  let k := s.core c
  let t := k.stream i
  t.st = .ready ∧ mayIssue c s = true ∧ k.hasTurn c i = true ∧ tabGet 0 k.storeErr t.pc.toNat ≤ 1 ∧ x = issuedOf c i k (tabGet 0 k.store t.pc.toNat) ∧
  opOf x.w = op ∧ isOpcode op = true ∧ touchesPending x.w t = false ∧ issueCheck k (s.coreProg c) x = none ∧ stalls k x = false

/-- A stream after the issue of one instruction: PC past it, wrapping, and the issue counted (R116, R201, R474). -/
def Stream.issuedOnce (t : Stream) (now : Nat) : Stream :=
  { t with pc := t.pc + 1, retake := false, issued := t.issued + 1, lastIssue := if t.retake then t.lastIssue else now }

/-- Only core `c`, the progress counters and the pack's note of its last progress may differ. -/
def CoreFrame (c : Nat) (s t : State) : Prop :=
  t = { s with cores := t.cores, packs := t.packs, progress := t.progress } ∧ (∀ d, d ≠ c → t.core d = s.core d) ∧
  ∀ p, t.pack p = { s.pack p with lastProg := (t.pack p).lastProg }

/-- As `CoreFrame`, and of the core only stream `i` may differ, which is `u` afterwards, and the stream that issued last, which is `turn`; the
rest is the record of progress. -/
def StreamBecomes (c i turn : Nat) (s t : State) (u : Stream) : Prop :=
  CoreFrame c s t ∧ t.core c = { s.core c with streams := (t.core c).streams, flitsSince := (t.core c).flitsSince, turn := turn } ∧
  (t.core c).stream i = u ∧ ∀ j, j ≠ i → (t.core c).stream j = (s.core c).stream j

/-- The operation that an engine instruction becomes when it issues (R78, R79, R163, R195). -/
def newOp (e : Engine) (x : Issued) (s : State) : EngOp :=
  { seq := (s.core x.c).seq, engine := e, stream := x.i, pc := x.pc, word := x.w, ra := x.ra, rb := x.rb, rd := x.rd
    chain := if opOf x.w = 0x20 then (s.core x.c).chainOf x.w else [], ranges := declaredRanges (s.core x.c) x
    step := (s.pack (packOf x.c)).step, computed := 0, drained := 0, issuedReq := 0, doneReq := 0, abandoned := false }

/-- The stream has issued and its core has one more operation in flight, youngest last; of the core only the accumulators' classes may
differ otherwise. -/
def OpJoins (c i : Nat) (s t : State) (o : EngOp) : Prop :=
  CoreFrame c s t ∧
  t.core c = { s.core c with
    streams := (t.core c).streams, flitsSince := (t.core c).flitsSince, accClass := (t.core c).accClass, turn := i
    seq := (s.core c).seq + 1, ops := (s.core c).ops ++ [o] } ∧
  (t.core c).stream i = ((s.core c).stream i).issuedOnce s.clock ∧ ∀ j, j ≠ i → (t.core c).stream j = (s.core c).stream j

/-- The state between an instruction's issue and its own effect: the issue is noted and nothing else has happened. -/
def IssueNoted (c i : Nat) (s t : State) : Prop := StreamBecomes c i i s t (((s.core c).stream i).issuedOnce s.clock)

/-- Nothing differs but that streams of core `c` may have been given their waking event. -/
def OnlyWakes (c : Nat) (s t : State) : Prop :=
  t = { s with cores := t.cores } ∧ (∀ d, d ≠ c → t.core d = s.core d) ∧ t.core c = { s.core c with streams := (t.core c).streams } ∧
  ∀ i, (t.core c).stream i = { (s.core c).stream i with woken := ((t.core c).stream i).woken }

/-- Management firmware runs and answers commands (R562, R602, R609). -/
def Answering (s : State) : Prop := s.power.booted = true ∧ s.power.romService = false

/-- BAR0 of a function is served and does not refuse a request (R501, R517, R605, R609). -/
def BarOpen (fn : Nat) (ide : Bool) (s : State) : Prop := s.barServed = true ∧ s.barRefused fn ide = false

/-- A pack has program `g`, which may launch steps (R43, R248). -/
def Launches (p g : Nat) (s : State) : Prop := s.progOf p = some g ∧ s.mayLaunch p = true

/-- HBM in its one canonical form: addresses strictly rising and no byte listed that an unlisted address reads as. -/
def HbmCanonical (s : State) : Prop := tabWf 0 s.hbm = true

/-- What ownership promises: an Unowned module holds no owner keys and no session, at most four sessions are open, and DEBUG_STATE 1 shows in the record
of this boot (R564, R566, R568). -/
def OwnershipLawful (s : State) : Prop :=
  (s.sec.owner = .unowned → s.sec.edPub = [] ∧ s.sec.mlPub = [] ∧ s.sec.sessions = []) ∧ s.sec.sessions.length ≤ 4 ∧
  (s.sec.debug = true → s.sec.debugSinceBoot = true)

end Sys2Proof.Machine
end

