-- ==== Sys2Proof/Certificates/Slice0/Obligations.lean ====
section
/-! DEFINITION. The statements for the provers, grouped by the unit they speak of. -/
open Sys2Proof Sys2Proof.Machine

/-- For every core and stream whose instruction issues: NOP, MOVI, ALU, LCSET, LOOP, BR and RDSR answer a next state in which the stream is
the old one with PC past the instruction and the effect of R197 on its registers, loop counters or PC (the RDSR value is that of the
selector in the state before); every other stream, core, register and byte is unchanged, but for the record of progress. -/
def Obligations.ScalarInstructionsWriteTheirResult : Prop :=
  ∀ (c : CoreId) (i : StreamId) (s : State) (x : Issued),
    let u := ((s.core c).stream i).issuedOnce s.clock
    let n := ifld x.w 25 21
    let v := ((s.core c).stream i).lcv n
    (Issues 0x01 c i s x → ∃ t, exec (.nop c i) s = .next t ∧ StreamBecomes c i i s t u) ∧
    (Issues 0x02 c i s x → ∃ t, exec (.movi c i) s = .next t ∧ StreamBecomes c i i s t (u.setReg (ifld x.w 11 8) (BitVec.ofNat 64 (ifld x.w 127 64)))) ∧
    (Issues 0x03 c i s x → ∃ t, exec (.alu c i) s = .next t ∧ StreamBecomes c i i s t (u.setReg (ifld x.w 11 8) (aluFn n x.ra (aluB x)))) ∧
    (Issues 0x04 c i s x → ∃ t, exec (.lcset c i) s = .next t ∧ StreamBecomes c i i s t
      (u.setLc n (BitVec.ofNat 32 (if bitAt x.w 20 then bitsOf x.ra 0 32 else ifld x.w 95 64)))) ∧
    (Issues 0x05 c i s x → ∃ t, exec (.loop c i) s = .next t ∧ StreamBecomes c i i s t
      (if v = 0 then u else if v = 1 then u.setLc n 0 else { u.setLc n (v - 1) with pc := BitVec.ofNat 12 (ifld x.w 43 32) })) ∧
    (Issues 0x06 c i s x → ∃ t, exec (.br c i) s = .next t ∧ StreamBecomes c i i s t
      (if brHolds n x.ra x.rb then { u with pc := BitVec.ofNat 12 (ifld x.w 43 32) } else u)) ∧
    (Issues 0x07 c i s x → ∃ t, exec (.rdsr c i) s = .next t ∧ StreamBecomes c i i s t (u.setReg (ifld x.w 11 8) (rdsrValue x s)))

/-- For every pair of 64-bit operands the functions of codes 0 to 15 are those of R198: wrapping sum, difference and low product, the bitwise
functions, the three shifts by bits [5:0] of B, the unsigned and signed extremes, the two comparisons, and the high word of the unsigned
product. -/
def Obligations.AluFunctionsAreThoseOfTheTable : Prop :=
  ∀ a b : Word,
    (aluFn 0 a b).toNat = (a.toNat + b.toNat) % 2 ^ 64 ∧ (aluFn 1 a b).toNat = (a.toNat + (2 ^ 64 - b.toNat)) % 2 ^ 64 ∧
    aluFn 2 a b = a &&& b ∧ aluFn 3 a b = a ||| b ∧ aluFn 4 a b = a ^^^ b ∧
    (aluFn 5 a b).toNat = (a.toNat * 2 ^ fieldOf b.toNat 0 6) % 2 ^ 64 ∧ (aluFn 6 a b).toNat = a.toNat / 2 ^ fieldOf b.toNat 0 6 ∧
    (aluFn 7 a b).toInt = a.toInt / 2 ^ fieldOf b.toNat 0 6 ∧ (aluFn 8 a b).toNat = (a.toNat * b.toNat) % 2 ^ 64 ∧
    (aluFn 9 a b).toNat = min a.toNat b.toNat ∧ (aluFn 10 a b).toNat = max a.toNat b.toNat ∧
    (aluFn 11 a b).toInt = min a.toInt b.toInt ∧ (aluFn 12 a b).toInt = max a.toInt b.toInt ∧
    (aluFn 13 a b).toNat = (if a.toNat < b.toNat then 1 else 0) ∧ (aluFn 14 a b).toNat = (if a.toInt < b.toInt then 1 else 0) ∧
    (aluFn 15 a b).toNat = a.toNat * b.toNat / 2 ^ 64

/-- For every core and stream whose instruction issues, FETCH, STORE, MMA, DCFG and each of the fifteen vector instructions answers a next
state in which the core has one more operation in flight, holding the word, the registers read at issue and the declared ranges, and the
stream stands past the instruction; all else is unchanged but for the record of progress, except that an MMA with ZERO sets the class of
its accumulators. -/
def Obligations.EngineInstructionsEnterTheirQueue : Prop :=
  ∀ (c : CoreId) (i : StreamId) (s : State) (x : Issued),
    (∀ y ∈ [(0x30, Instr.add c i), (0x31, .sub c i), (0x32, .mul c i), (0x33, .fma c i), (0x34, .min c i), (0x35, .max c i), (0x36, .abs c i),
        (0x37, .neg c i), (0x38, .cmp c i), (0x39, .sel c i), (0x3A, .cvt c i), (0x3B, .func c i), (0x3C, .reduce c i), (0x3D, .gather c i),
        (0x3E, .fill c i)],
      Issues y.1 c i s x → ∃ t, exec y.2 s = .next t ∧ OpJoins c i s t (newOp .vector x s) ∧ (t.core c).accClass = (s.core c).accClass) ∧
    (∀ y ∈ [(0x10, Instr.fetch c i), (0x11, .store c i)],
      Issues y.1 c i s x → ∃ t, exec y.2 s = .next t ∧ OpJoins c i s t (newOp .fetch x s) ∧ (t.core c).accClass = (s.core c).accClass) ∧
    (Issues 0x21 c i s x → ∃ t, exec (.dcfg c i) s = .next t ∧ OpJoins c i s t (newOp .drain x s) ∧ (t.core c).accClass = (s.core c).accClass) ∧
    (Issues 0x20 c i s x → ∃ t, exec (.mma c i) s = .next t ∧ OpJoins c i s t (newOp .matrix x s) ∧
      ∀ a, tabGet .fp32 (t.core c).accClass a =
        if bitAt x.w 45 = true ∧ (a = ifld x.w 44 43 ∨ (ifld x.w 42 30 ≠ 1 ∧ a = ifld x.w 44 43 + 1)) then (if pairInt x.w then .int32 else .fp32)
        else tabGet .fp32 (s.core c).accClass a)

/-- For every core and stream whose instruction issues in its local form: a POST with no earlier work of its core in flight adds n to its
Collar when the sum stays below 2^32 and leaves every other Collar; an FADD does the same and XD takes the old value; a RESET clears value
and OVF; a WAIT on a Collar that has reached the threshold or carries OVF goes on, and any other parks the stream on the Collar with PC
past it. -/
def Obligations.LocalCollarInstructions : Prop :=
  ∀ (c : CoreId) (i : StreamId) (s : State) (x : Issued),
    let k := ifld x.w 11 8
    let col := (s.core c).collar k
    let u := ((s.core c).stream i).issuedOnce s.clock
    let n := collarN x
    let sum := col.value.toNat + n.toNat
    (Issues 0x50 c i s x → bitAt x.w 12 = false → (s.core c).deferred = [] → (s.core c).ops = [] → (s.core c).mesh = [] → sum < 2 ^ 32 →
      ∃ t, exec (.post c i) s = .next t ∧ CoreFrame c s t ∧ (t.core c).collar k = { col with value := BitVec.ofNat 32 sum } ∧
        (∀ j, j ≠ k → (t.core c).collar j = (s.core c).collar j) ∧ ((t.core c).stream i).pc = u.pc ∧ (t.core c).deferred = [] ∧
        (t.core c).spad = (s.core c).spad ∧ (t.core c).bowls = (s.core c).bowls) ∧
    (Issues 0x52 c i s x → bitAt x.w 12 = false → sum < 2 ^ 32 →
      ∃ t, exec (.fadd c i) s = .next t ∧ CoreFrame c s t ∧ (t.core c).collar k = { col with value := BitVec.ofNat 32 sum } ∧
        (∀ j, j ≠ k → (t.core c).collar j = (s.core c).collar j) ∧ ((t.core c).stream i).pc = u.pc ∧
        ((t.core c).stream i).reg (ifld x.w 28 25) = col.value.setWidth 64 ∧
        (t.core c).spad = (s.core c).spad ∧ (t.core c).bowls = (s.core c).bowls) ∧
    (Issues 0x53 c i s x → ∃ t, exec (.reset c i) s = .next t ∧ CoreFrame c s t ∧ (t.core c).collar k = { col with value := 0, ovf := false } ∧
        (∀ j, j ≠ k → (t.core c).collar j = (s.core c).collar j) ∧ (t.core c).stream i = u ∧
        (t.core c).spad = (s.core c).spad ∧ (t.core c).bowls = (s.core c).bowls) ∧
    (Issues 0x51 c i s x → ∃ t, exec (.wait c i) s = .next t ∧ StreamBecomes c i i s t
      (if n.toNat ≤ col.value.toNat ∨ col.ovf = true then u
       else { u with st := .parkedCollar, waitCollar := k, waitT := n, woken := false }))

/-- For every core and stream whose instruction issues, SEND, SENDT, RSAMPLE, RCANCEL, and POST, FADD, CLAIM and COMPLETE with a route, answer
the state in which the issue is noted and the packet of the route, with the header of R270 and the words of R217, R218, R272 or R351, is
handed to the mesh port by the one operation that gives it its TAG and PERIOD; a remote FADD or CLAIM marks its destination register
pending first, a CLAIM parks its stream. -/
def Obligations.MeshInstructionsHandTheirPacketOver : Prop :=
  ∀ (c : CoreId) (i : StreamId) (s : State) (x : Issued),
    (Issues 0x40 c i s x → ∃ t, IssueNoted c i s t ∧ exec (.send c i) s = .next (
      let r := (s.core c).route (ifld x.w 15 8)
      let len := ifld x.w 22 16
      let retr := rKind r = 6
      let h := routeHdr s c i (if retr then 0x07 else 0x01) r
      sendScheduled x (ifld x.w 15 8)
        { hdr := { h with long := true, len := len, note := bitAt x.w 27, nw := bit01 (bitAt x.w 27), doff := bitsOf x.ra 21 21 / 64
                          reduce := h.reduce || retr, rid := if retr then rRid r else h.rid }
          words := if bitAt x.w 27 then [x.rb] else if retr then [BitVec.ofNat 64 (retrieverWord 0 (s.pack (packOf c)).step)] else []
          payload := [], exit := rExit r, origin := 0 } (some (bitsOf x.ra 0 21, 256 * len)) t)) ∧
    (Issues 0x41 c i s x → rKind ((s.core c).route (ifld x.w 15 8)) ≠ 3 → ∃ t, IssueNoted c i s t ∧ exec (.sendt c i) s = .next (
      let r := (s.core c).route (ifld x.w 15 8)
      let nw := ifld x.w 24 20
      sendScheduled x (ifld x.w 15 8)
        { hdr := { routeHdr s c i 0x02 r with service := false, nw := nw, long := decide (4 < nw), len := bit01 (decide (4 < nw)) }
          words := tupleWords ((s.core c).stream i) (ifld x.w 19 16) nw, payload := [], exit := rExit r, origin := 0 } none t)) ∧
    (Issues 0x41 c i s x → rKind ((s.core c).route (ifld x.w 15 8)) = 3 → ∃ t, IssueNoted c i s t ∧ exec (.sendt c i) s = .next (
      let r := (s.core c).route (ifld x.w 15 8)
      let nw := ifld x.w 24 20
      let h := { routeHdr s c i 0x03 r with service := true, nw := nw, long := decide (4 < nw), len := bit01 (decide (4 < nw)) }
      let p : Pkt := { hdr := h, words := tupleWords ((s.core c).stream i) (ifld x.w 19 16) nw, payload := [], exit := rExit r, origin := 0 }
      promote c (t.modCore c (fun k => { k with seq := k.seq + 1, mesh := k.mesh ++ [meshOp x k.seq p none [] s.howl false] })))) ∧
    (Issues 0x70 c i s x → ∃ t, IssueNoted c i s t ∧ exec (.rsample c i) s = .next (retrieverCmd x false t)) ∧
    (Issues 0x71 c i s x → ∃ t, IssueNoted c i s t ∧ exec (.rcancel c i) s = .next (retrieverCmd x true t)) ∧
    (Issues 0x50 c i s x → bitAt x.w 12 = true → ∃ t, IssueNoted c i s t ∧
      exec (.post c i) s = .next (deferRemote x (.post (collarN x)) (collarPkt t x 0 (collarN x).toNat 0) t)) ∧
    (Issues 0x52 c i s x → bitAt x.w 12 = true → ∃ t, IssueNoted c i s t ∧
      exec (.fadd c i) s = .next (let t := setPending x (ifld x.w 28 25) t
        sendScheduled x (ifld x.w 20 13) (collarPkt t x 1 (collarN x).toNat (replyTo x)) none t)) ∧
    (Issues 0x54 c i s x → bitAt x.w 12 = true → ∃ t, IssueNoted c i s t ∧
      exec (.claim c i) s = .next (
        let r := ifld x.w 20 13
        let t := parkOnClaim x (ifld x.w 28 25) (setPending x (ifld x.w 28 25) t)
        let t := t.modCore c (fun k => k.modStream i (fun y => { y with claimsUsed := tabSet 0 y.claimsUsed r (tabGet 0 y.claimsUsed r + 1) }))
        sendScheduled x r (collarPkt t x 2 0 (replyTo x)) none t)) ∧
    (Issues 0x55 c i s x → bitAt x.w 12 = true → ∃ t, IssueNoted c i s t ∧
      exec (.complete c i) s = .next (
        let index := bitsOf x.ra 0 32
        let cg := bitsOf x.ra 32 8
        deferRemote x (.complete (BitVec.ofNat 32 index) (BitVec.ofNat 8 cg) (BitVec.ofNat 8 (rGen ((s.core c).route (ifld x.w 20 13)))))
          (collarPkt t x 3 0 (index + at_ 32 cg)) t))

/-- For every core and stream whose instruction issues: a local CLAIM parks on its register and is answered at once by the core's own
Shepherd; a local COMPLETE takes its place behind the stream's earlier work; a TAKE on an empty Bowl parks the stream with PC at the TAKE,
and one that finds a tuple that fits and reads cleanly puts its words into consecutive registers and moves RP past pads and tuple; a
STEPDONE sends the null claims of the claim entries it leaves unused and then parks the stream on launch with its gate recorded. -/
def Obligations.ClaimCompleteTakeAndStepdone : Prop :=
  ∀ (c : CoreId) (i : StreamId) (s : State) (x : Issued),
    let u := ((s.core c).stream i).issuedOnce s.clock
    let xd := ifld x.w 28 25
    let k := ifld x.w 11 8
    let b := (s.core c).bowl (ifld x.w 13 8)
    (Issues 0x54 c i s x → bitAt x.w 12 = false → ∃ t, IssueNoted c i s t ∧ exec (.claim c i) s =
      .next (let r := onClaim c k c i (parkOnClaim x xd (setPending x xd t)); claimAnswered c i xd r.1 r.2)) ∧
    (Issues 0x55 c i s x → bitAt x.w 12 = false → ∃ t, IssueNoted c i s t ∧ exec (.complete c i) s =
      .next (deferOp x true k (.complete (BitVec.ofNat 32 (bitsOf x.ra 0 32)) (BitVec.ofNat 8 (bitsOf x.ra 32 8)) ((s.core c).collar k).gen) none t)) ∧
    (Issues 0x42 c i s x → b.rp = b.wp → ∃ t, exec (.take c i) s = .next t ∧
      StreamBecomes c i i s t { u with st := .parkedBowl, waitBowl := ifld x.w 13 8, pc := x.pc, retake := true, woken := false, lastIssue := s.clock }) ∧
    (∀ p n l, Issues 0x42 c i s x → (s.core c).spadErr = [] → b.rp ≠ b.wp →
      (takeFind c b (bDepth b + 1) b.rp s).1 = .head p n → ifld x.w 17 14 + n ≤ 16 →
      l = bytesWords (memRead (s.core c).spad (entryAddr b (p.toNat % bDepth b)) (8 * n)) →
      ∃ t, exec (.take c i) s = .next t ∧ CoreFrame c s t ∧ ((t.core c).bowl (ifld x.w 13 8)).rp = p + BitVec.ofNat 15 ((n + 3) / 4) ∧
        ((t.core c).stream i).pc = u.pc ∧ (∀ j, j < n → ((t.core c).stream i).reg (ifld x.w 17 14 + j) = nth 0 l j) ∧
        (t.core c).spad = (s.core c).spad) ∧
    (Issues 0x60 c i s x → ∃ t, IssueNoted c i s t ∧ exec (.stepdone c i) s = .next ((nullClaims x t).modCore c (fun k =>
      k.modStream i (fun y => { y with gate := gateOf x, st := .parkedLaunch, woken := false, claimsUsed := [] }))))

/-- For a scheduled or merge entry at the head of a running table whose contributions are all present: if they agree with the entry, and every
output of the packet has its entry at the head, a free link and a downstream side that accepts, ENTRY_START takes the contributions, sends
the one packet, or their sum for a merge, on every output of its path and moves each past its entry; if the length or a merge field
disagrees, it is mesh fault 0x81 and the contributions stay at the router; if an output is not ready, nothing happens. An entry held at
its nominal beat begins a slip. With the link free, an open slot carries service packets and a fetch lane fetch packets that fit the slot,
and the output moves on; the idle table serves both in its period. -/
def Obligations.RouterEntriesAndSlips : Prop :=
  ∀ (c : CoreId) (d : Dir) (s : State),
    let o := (s.core c).output d
    let w := o.table.entry o.head
    (∀ x rest, o.headPacket = some w → contributions s.device c (s.core c) d w = some (x :: rest) →
      let h := x.pkt.hdr
      let outs := entryOuts c d x s
      (∀ ps s1, wrongLength c outs x s = none → rest.all (fun y => sameMerge h y.pkt.hdr) = true → (eKind w = 1 → h.reduce = true) →
        outsReady c outs x s = true → gatherPayloads c (x :: rest) s = (some ps, s1) →
        exec (.entryStart c d) s = .next (
          let p := { ((presenceOrder 0 ps).headD (x, [])).1.pkt with payload := mergedPayload h ps }
          let s2 := outs.foldl (sendOn c p) ((x :: rest).foldl (fun s y => takeContrib c y s) s1)
          runDeferred c (promote c (if eKind w = 1 then s2.bumpCore c 0x61 1 else s2)))) ∧
      (wrongLength c outs x s = none → rest.all (fun y => sameMerge h y.pkt.hdr) = true → (eKind w = 1 → h.reduce = true) →
        outsReady c outs x s = false → exec (.entryStart c d) s = .next s) ∧
      (∀ q, wrongLength c outs x s = some q → exec (.entryStart c d) s = .next (
        meshFault 0x81 [packOf c] c (meshFaultWord 0x81 h.period h.tag q.code ((s.core c).output q).head c)
          ((x :: rest).foldl (fun s y => holdContrib c y s) s)))) ∧
    (o.headPacket = some w → o.slipped = false → howlGe s.howl o.heldFrom = true → startable c d s = false →
      exec (.slipBegin c d) s = .next (slipBegin c d s)) ∧
    (o.freeAt ≤ s.clock → o.table.idle = true →
      exec (.openSlotService c d) s = .next (sendFitting c d false (refillSvc c d 16) 65 65 (idleRoom o false s.howl) s) ∧
      exec (.fetchLaneService c d) s = .next (sendFitting c d true (refillFetch c d (fun _ => true) 16) 65 65 (idleRoom o true s.howl) s)) ∧
    (o.freeAt ≤ s.clock → o.table.idle = false → o.running = true →
      (eKind w = 2 → exec (.openSlotService c d) s = .next (promote c (advanceOutput c d
        (sendFitting c d false (refillSvc c d 16) 65 (eFlits w) (slotRoom o w s.howl) s)))) ∧
      (eKind w = 3 → exec (.fetchLaneService c d) s = .next (promote c (advanceOutput c d
        (sendFitting c d true (refillFetch c d (eHas w) 16) 65 (eFlits w) (slotRoom o w s.howl) s)))))

/-- When a slip begins at an output whose counters are below their bound, the output's and the module's slip counters advance by one, the
module's slip beats by the beats the entry has been held, and the output is marked; the first-slip capture takes the beat from which the
entry is held and the place of the entry if it is armed, and keeps what it holds if not. FIRST_SLIP_REARM clears the capture and re-arms
it, and changes nothing else. -/
def Obligations.SlipIsCountedAndCapturedOnce : Prop :=
  (∀ (c : CoreId) (d : Dir) (s : State), s.stat (0x1000 + c) (0x20 + d.code) + 1 < 2 ^ 64 - 1 → s.stat 0x5010 1 + 1 < 2 ^ 64 - 1 →
    s.stat 0x5010 2 + (howlDiff s.howl ((s.core c).output d).heldFrom).toNat < 2 ^ 64 - 1 →
    let o := (s.core c).output d
    let t := slipBegin c d s
    t.stat (0x1000 + c) (0x20 + d.code) = s.stat (0x1000 + c) (0x20 + d.code) + 1 ∧ t.stat 0x5010 1 = s.stat 0x5010 1 + 1 ∧
    t.stat 0x5010 2 = s.stat 0x5010 2 + (howlDiff s.howl o.heldFrom).toNat ∧
    (t.core c).output d = { o with slipped := true } ∧ t.slipHeld = true ∧
    (s.slipHeld = true → t.slipTime = s.slipTime ∧ t.slipPlace = s.slipPlace) ∧
    (s.slipHeld = false → t.slipTime = o.heldFrom ∧
      t.slipPlace.toNat = (o.head % 4096) * 2 ^ 16 + d.code * 2 ^ 10 + c.val) ∧
    t = { s with cores := t.cores, stats := t.stats, slipHeld := t.slipHeld, slipTime := t.slipTime, slipPlace := t.slipPlace } ∧
    ∀ e, e ≠ c.val → t.core e = s.core e) ∧
  ∀ s : State, exec .firstSlipRearm s = .next { s with slipHeld := false, slipTime := 0, slipPlace := 0 }

/-- A header at the front of an unblocked link with no link error enters the buffer of its class with the beat of its arrival, a scheduled one
once every output of its path has a matching entry, and one without a match is held there as fault 0x80; a corrected error is counted
first, and an uncorrectable one blocks the link and raises fault 0x83. A read of LAST_MESH_FAULT answers the word and re-arms the record.
A drained router of a pack in teardown goes back to the idle table, and one whose program has launched to its shadow table. A leaf's
answer is entered in its multicast, and a multicast ends when all leaves have answered or 2^14 beats after it left. -/
def Obligations.HeadersAnswersAndDrains : Prop :=
  ∀ (c : CoreId) (d : Dir) (s : State),
    let k := s.core c
    (∀ p rest, (k.input d).stuck = false → nextOnLink c d s = some (p, rest) →
      exec (.headerArrival c d .clean) s = .next (takeHeader c d p rest s) ∧
      (∀ n, exec (.headerArrival c d (.corrected n)) s = .next (takeHeader c d p rest (s.bumpCore c 0x60 n))) ∧
      exec (.headerArrival c d .uncorrectable) s = .next (meshFault 0x83 (linkPacks c d) c (meshFaultWord 0x83 0 0 d.code 0 c)
        (s.modCore c (fun k => k.setInput d { k.input d with stuck := true })))) ∧
    (∀ p rest,
      let i := { k.input d with link := rest }
      let a : Arrived := { pkt := p, at_ := s.howl, gap := flitBeats c d s }
      (p.isFetch = true → takeHeader c d p rest s = s.setCore c (k.setInput d { i with fetch := i.fetch ++ [a] })) ∧
      (p.isFetch = false → p.isSvc = true → takeHeader c d p rest s = s.setCore c (k.setInput d { i with svc := i.svc ++ [a] })) ∧
      (p.isFetch = false → p.isSvc = false → (outDirs s.device c d p).all (fun q => hasMatch (k.output q) d p.hdr) = true →
        takeHeader c d p rest s = s.setCore c (k.setInput d { i with sched := i.sched ++ [a] })) ∧
      (∀ q, p.isFetch = false → p.isSvc = false → (outDirs s.device c d p).find? (fun q => !hasMatch (k.output q) d p.hdr) = some q →
        takeHeader c d p rest s = meshFault 0x80 [packOf c] c (meshFaultWord 0x80 p.hdr.period p.hdr.tag q.code (k.output q).head c)
          (s.setCore c (k.setInput d { i with held := i.held ++ [p] })))) ∧
    exec .lastMeshFaultRead s = .next { s with out := leBytes 8 s.meshFault.toNat, meshFaultHeld := false } ∧
    (k.routerEmpty = true → (s.pack (packOf c)).teardown.isSome = true → k.tablesDone = true → exec (.routerDrained c) s =
      .next (s.setCore c (k.mapOutputs (fun o => if o.table.idle && o.shadow.isNone then o else o.toIdle s.howl)))) ∧
    (k.routerEmpty = true → (s.pack (packOf c)).teardown = none → (s.pack (packOf c)).everLaunched = true →
      Dir.all.any (fun q => (k.output q).shadow.isSome) = true → exec (.routerDrained c) s =
      .next (s.setCore c (k.mapOutputs (fun o => o.toShadow (s.pack (packOf c)).launchAt)))) ∧
    (∀ p rest m, k.lq = p :: rest → p.hdr.ptype = 0x0D →
      k.mcasts.find? (fun m => m.hdr.dstBowl = p.hdr.dstBowl && m.leaves.contains p.hdr.srcCore && !m.answered.contains p.hdr.srcCore) = some m →
      exec (.serviceAnswer c) s = .next (
        let m' := m.answer p.hdr.srcCore (decide (nth 0 p.words 0 ≠ 0))
        let t := s.setCore c { k with lq := rest, mcasts := k.mcasts.map (fun x => if x = m then m' else x) }
        if m'.leaves.all (fun l => m'.answered.contains l) then endMcast c m' t else t)) ∧
    (∀ m, k.mcasts.find? (fun m => m.left && decide ((2 : Int) ^ 14 ≤ howlDiff s.howl m.sentAt)) = some m →
      exec (.serviceMcastTimeout c) s = .next (endMcast c m s))

/-- The judgement of a packet at a Bowl discards a stale generation first; then refuses 0x01 for a Bowl not configured or closed, 0x03 for the
wrong class, 0x04 for a block outside the receive window; then a packet that needs no entry is written, and one that needs entries,
counting the pad to the end of the ring, is written if they are free, and otherwise refused 0x02 by a service Bowl and held by a data
Bowl. -/
def Obligations.BowlJudgementFollowsTheRule : Prop :=
  ∀ (b : Bowl) (h : Hdr),
    let block := h.ptype = 0x01 ∨ h.ptype = 0x04
    let k := if block then (if h.note then 1 else 0) else (h.nw + 3) / 4
    let room := 2 ^ bitsOf b.cfg 20 4 - b.wpNext.toNat % 2 ^ bitsOf b.cfg 20 4
    let free := 2 ^ bitsOf b.cfg 20 4 - (b.wpNext - b.rp).toNat
    let fits := (if k ≤ room then k else room + k) ≤ free
    (judge b h = .discard ↔ h.gen ≠ bGen b) ∧
    (h.gen = bGen b →
      (judge b h = .refuse 0x01 ↔ bConf b = false ∨ b.isOpen = false) ∧
      (bConf b = true → b.isOpen = true →
        (judge b h = .refuse 0x03 ↔ h.service ≠ bSvc b) ∧
        (h.service = bSvc b →
          (judge b h = .refuse 0x04 ↔ block ∧ bWin b * 64 < h.doff * 64 + 256 * h.len) ∧
          (¬ (block ∧ bWin b * 64 < h.doff * 64 + 256 * h.len) →
            (judge b h = .write ↔ k = 0 ∨ fits) ∧ (judge b h = .refuse 0x02 ↔ k ≠ 0 ∧ ¬ fits ∧ bSvc b = true) ∧
            (judge b h = .hold ↔ k ≠ 0 ∧ ¬ fits ∧ bSvc b = false)))))

/-- The packet at the core side of an L output, bound for a Bowl, leaves it and is written, discarded or refused as judged by the Bowl as the
router sees it, or stays. Publishing gives a Bowl its new write pointer and a reader parked on it its waking event, and changes nothing
else. A channel-closed packet faults the live stream it names with the code of its reason, or counts as late if that stream is live no
more; one that answers a Retriever's feedback is fault 0x93 of its context. A service NACK goes to the core's service-return Bowl with its
reason. A parked stream whose event has come becomes Ready. -/
def Obligations.BowlDeliveryAndPublish : Prop :=
  ∀ (c : CoreId) (s : State),
    (∀ p rest, (s.core c).lq = p :: rest → p.forBowl = true →
      let t := s.modCore c (fun k => { k with lq := k.lq.drop 1 })
      let j := judge (((s.core c).bowl p.hdr.dstBowl).atRouter s.clock) p.hdr
      (j = .write → exec (.bowlDelivery c) s = .next (acceptAt c p (t.modCore c (writeBowl p)))) ∧
      (j = .hold → exec (.bowlDelivery c) s = .next s) ∧
      (j = .discard → exec (.bowlDelivery c) s = .next (discardAt c p t)) ∧
      (∀ r, j = .refuse r → exec (.bowlDelivery c) s = .next (refuseAt c p r t))) ∧
    (∀ b : BowlId, ((s.core c).bowl b).wp ≠ ((s.core c).bowl b).wpNext →
      ∃ t, exec (.writePointerPublish c b) s = .next t ∧ t = { s with cores := t.cores } ∧ (∀ d, d ≠ c.val → t.core d = s.core d) ∧
        (t.core c).bowl b = { (s.core c).bowl b with wp := ((s.core c).bowl b).wpNext } ∧
        (∀ e, e ≠ b.val → (t.core c).bowl e = (s.core c).bowl e) ∧ (t.core c).spad = (s.core c).spad ∧
        ∀ i, (t.core c).stream i =
          if i = bReader ((s.core c).bowl b) ∧ ((s.core c).stream i).st = .parkedBowl ∧ ((s.core c).stream i).waitBowl = b.val
          then { (s.core c).stream i with woken := true } else (s.core c).stream i) ∧
    (∀ p rest, (s.core c).lq = p :: rest → p.hdr.ptype = 0x0B →
      let t := s.modCore c (fun k => { k with lq := k.lq.drop 1 })
      let i := bitsOf (nth 0 p.words 0) 24 3
      let fb := if c.val = retrRouter (packOf c) then t.feedbackOf (packOf c) p.words else none
      (fb = none → (((s.core c).stream i).st).live = true →
        exec (.channelClosed c) s = .next (streamFault c i (0x40 + bitsOf (nth 0 p.words 0) 0 8) t)) ∧
      (fb = none → (((s.core c).stream i).st).live = false → exec (.channelClosed c) s = .next (t.bumpCore c 0x77 1)) ∧
      (∀ n, fb = some n → (s.pack (packOf c)).retr.stopped = false →
        exec (.channelClosed c) s = .next (retrieverFault 0x93 (packOf c) n t))) ∧
    (∀ p rest, (s.core c).lq = p :: rest → p.hdr.ptype = 0x0C →
      exec (.serviceNack c) s = .next (deliverNack c p.words (if p.hdr.long then 0x06 else bitsOf (nth 0 p.words 0) 0 8) p.hdr
        (s.modCore c (fun k => { k with lq := k.lq.drop 1 })))) ∧
    (∀ i : StreamId, ((s.core c).stream i).woken = true →
      ((s.core c).stream i).st = .parkedCollar ∨ ((s.core c).stream i).st = .parkedBowl ∨ ((s.core c).stream i).st = .parkedClaim →
      ∃ t, exec (.streamWake c i) s = .next t ∧
        StreamBecomes c i (s.core c).turn s t { (s.core c).stream i with st := .ready, woken := false, lastIssue := s.clock })

/-- A Collar packet at the core side of the home router leaves it, and if the Collar accepts it (R100): a POST adds its n; a FETCH_ADD adds it
and replies the old value; a CLAIM is answered by the home Shepherd; a COMPLETE is checked against the ledger; a null claim does nothing
more. One the Collar does not accept is counted as stale and does nothing more. A reply writes the requesting stream's register and gives
a parked CLAIM its waking event. -/
def Obligations.RemoteCollarOperationsAtHome : Prop :=
  ∀ (c : CoreId) (s : State) (p : Pkt) (rest : List Pkt), (s.core c).lq = p :: rest →
    let t := s.modCore c (fun k => { k with lq := k.lq.drop 1 })
    let k := p.hdr.dstBowl % 16
    let op := bitsOf (nth 0 p.words 0) 32 3
    let n : BitVec 32 := BitVec.ofNat 32 (bitsOf (nth 0 p.words 0) 0 32)
    let col := (t.core c).collar k
    (p.hdr.ptype = 0x05 → op = 0 → remoteAccepts col p false = true → exec (.remotePost c) s = .next (collarAdd c k n t)) ∧
    (p.hdr.ptype = 0x05 → op = 1 → remoteAccepts col p false = true → exec (.remoteFetchAdd c) s =
      .next (sendFromL c (collarReplyPkt (collarAdd c k n t).device c p (col.value.setWidth 64)) (collarAdd c k n t))) ∧
    (p.hdr.ptype = 0x05 → op = 2 → remoteAccepts col p true = true → exec (.remoteClaim c) s =
      .next (let r := onClaim c k p.hdr.srcCore p.hdr.srcStream t; sendFromL c (collarReplyPkt r.2.device c p r.1) r.2)) ∧
    (p.hdr.ptype = 0x05 → op = 3 → remoteAccepts col p true = true → exec (.remoteComplete c) s =
      .next (onComplete c k p.hdr.srcCore (BitVec.ofNat 32 (bitsOf (nth 0 p.words 1) 0 32)) (BitVec.ofNat 8 (bitsOf (nth 0 p.words 1) 32 8))
        (BitVec.ofNat 8 p.hdr.gen) t)) ∧
    (p.hdr.ptype = 0x05 → op = 4 → exec (.nullClaim c) s = .next t) ∧
    (∀ y ∈ [(0, false, Instr.remotePost c), (1, false, .remoteFetchAdd c), (2, true, .remoteClaim c), (3, true, .remoteComplete c)],
      p.hdr.ptype = 0x05 → op = y.1 → remoteAccepts col p y.2.1 = false → exec y.2.2 s = .next (t.bumpCore c 0x07 1)) ∧
    (p.hdr.ptype = 0x06 → exec (.collarReply c) s =
      .next (claimAnswered c (bitsOf (nth 0 p.words 1) 4 3) (bitsOf (nth 0 p.words 1) 0 4) (nth 0 p.words 0) t))

/-- Adding n to a Collar leaves the sum while it stays below 2^32, and otherwise the largest value with OVF set; every other Collar of the
core keeps its value, every other core is unchanged, and a stream parked on the Collar whose threshold the Collar now reaches, or on one
that carries OVF, has its waking event. -/
def Obligations.CollarAddSaturates : Prop :=
  ∀ (c k : Nat) (n : BitVec 32) (s : State),
    let col := (s.core c).collar k
    let t := collarAdd c k n s
    (col.value.toNat + n.toNat < 2 ^ 32 → (t.core c).collar k = { col with value := col.value + n }) ∧
    (2 ^ 32 ≤ col.value.toNat + n.toNat → (t.core c).collar k = { col with value := 0xFFFFFFFF, ovf := true }) ∧
    (∀ j, j ≠ k → (t.core c).collar j = (s.core c).collar j) ∧ (∀ d, d ≠ c → t.core d = s.core d) ∧
    ∀ i, i < 8 → ((s.core c).stream i).st = .parkedCollar → ((s.core c).stream i).waitCollar = k →
      ((s.core c).stream i).waitT.toNat ≤ ((t.core c).collar k).value.toNat ∨ ((t.core c).collar k).ovf = true →
      ((t.core c).stream i).woken = true

/-- At the home Shepherd of a ledgered Collar with no entry marked for re-issue: while the Collar is below INDEX_LIMIT, a CLAIM is answered
with the Collar's value as index and the Collar advances by one; at the limit it is answered EMPTY and the state does not change. With an
entry marked, the lowest marked index is answered and the Collar does not move. -/
def Obligations.LedgerHandsOutEachIndexOnce : Prop :=
  ∀ (c k core stream : Nat) (s : State),
    let x := s.core c
    let col := x.collar k
    let d := col.ledger
    let r := onClaim c k core stream s
    ((List.range (ledgerLimit d)).find? (fun i => ownerReissue (x.ownerEntry d i)) = none → ledgerLimit d ≤ col.value.toNat →
      bitsOf r.1 0 32 = 0xFFFFFFFF ∧ r.2 = s) ∧
    ((List.range (ledgerLimit d)).find? (fun i => ownerReissue (x.ownerEntry d i)) = none → col.value.toNat < ledgerLimit d →
      bitsOf r.1 0 32 = col.value.toNat ∧ ((r.2.core c).collar k).value = col.value + 1 ∧ ∀ e, e ≠ c → r.2.core e = s.core e) ∧
    (∀ i, (List.range (ledgerLimit d)).find? (fun i => ownerReissue (x.ownerEntry d i)) = some i →
      bitsOf r.1 0 32 = i ∧ bitsOf r.1 32 8 = ownerGen (x.ownerEntry d i) ∧ (r.2.core c).collar k = col ∧ ∀ e, e ≠ c → r.2.core e = s.core e)

/-- With its engine not under reset: the first unfinished problem of the matrix queue is computed from its operands into its accumulator,
counted, checked as the lane's interval selects by the sums of its rows and columns, and its groups are counted as progress; the first
fully computed matrix instruction is drained and completes; the first vector instruction reads its sources, writes its result and
completes; a DCFG whose 64 bytes break no rule loads its configuration and completes, and one whose bytes do breaks with fault 0x2B and
keeps it. -/
def Obligations.EnginesCompleteTheirOperations : Prop :=
  ∀ (c : CoreId) (s : State),
    let k := s.core c
    (∀ o ops s1 (u : List Upset), k.ops.find? (fun o => o.engine = .matrix && !o.abandoned && decide (o.computed < o.mma.probs)) = some o →
      tabGet false k.engReset 0 = false →
      readOperands c o.mma o.computed (drainBefore c (o.mma.accOf o.computed) s) = (some ops, s1) →
      exec (.matrixProblemReady c u) s = .next (
        let a := o.mma.accOf o.computed
        let before := (s1.core c).acc
        let r := accumulate o.mma ops a before
        let acc := upsetAcc a u r.1
        let t := s1.modCore c (fun k => { k.modOp o.seq (fun q => { q with computed := q.computed + 1 }) with acc := acc })
        let t := ((t.bumpCore c 0x33 r.2).bumpCore c 0x55 (aConflicts o.mma o.computed)).advanceCore c 0x91 o.mma.g
        afterCompute c o (ops.special || decide (0 < r.2) || (o.mma.afmt ≠ .int8 && accSpecial o.mma a acc))
          (laneFinding o.mma ops a before acc) t)) ∧
    (∀ o q, k.ops.find? (fun o => o.engine = .matrix && !o.abandoned && o.computed = o.mma.probs) = some o → tabGet false k.engReset 2 = false →
      let t := drainUpTo c o.seq o.mma.probs (o.mma.probs - o.drained) s
      (t.core c).opBySeq o.seq = some q → q.abandoned = false → exec (.drainComplete c) s = .next (completeOp c o.seq t)) ∧
    (∀ o r s1, k.ops.find? (fun o => o.engine = .vector && !o.abandoned) = some o → tabGet false k.engReset 1 = false →
      runVector c o s = (some r, s1) → exec (.vectorComplete c) s = .next (
        let t := r.writes.foldl (fun s w => writeArray c 3 w.addr w.tail w.bytes s) s1
        let t := ((r.cnt.apply c t).bumpCore c 0x43 r.oob).bumpCore c 0x55 r.conflicts
        completeOp c o.seq (t.advanceCore c 0x91 (ceilDiv (vecLen o.word) 64)))) ∧
    (∀ o l s1, k.ops.find? (fun o => o.engine = .drain) = some o → tabGet false k.engReset 2 = false →
      readPort c 2 (ifld o.word 31 11) 64 s = (some l, s1) →
      (chainBad (bytesWords l) = false → stagesAbove (s1.core c).fence (bytesWords l) = false → exec (.dcfgComplete c) s =
        .next (completeOp c o.seq (s1.modCore c (fun k => k.setChain (ifld o.word 10 8) (bytesWords l))))) ∧
      ((chainBad (bytesWords l) || stagesAbove (s1.core c).fence (bytesWords l)) = true → (((s1.core c).stream o.stream).st).live = true → exec (.dcfgComplete c) s =
        .next (completeOp c o.seq (streamFaultAt c o.stream o.pc 0x2B s1))))

/-- The fetch engine's next read request leaves with the lowest free tag and is recorded. A reply of the current tag generation with status 0
frees its request and writes the bytes of a FETCH, which has one request more done; one of a stale generation is counted and discarded. A
FETCH whose bytes are all written, or a STORE whose writes the stacks have all accepted, completes. The Groomer starts a pass at its
interval from the first word, visits the words in order with the rewrite queue empty, and rewrites a queued address. -/
def Obligations.FetchEngineAndGroomer : Prop :=
  ∀ (c : CoreId) (s : State),
    let k := s.core c
    (∀ o tag, k.ops.find? (fun o => o.engine = .fetch && decide (o.issuedReq < o.requests.length)) = some o → k.freeTag = some tag →
      tabGet false k.engReset 3 = false → (k.input .l).fetch.length < 2 →
      let r := nth (0, 0, 0) o.requests o.issuedReq
      let note (store : Bool) (k : Core) : Core := { k with
        ops := k.ops.map (fun q => if q.seq = o.seq then { q with issuedReq := q.issuedReq + 1 } else q)
        reqs := k.reqs ++ [{ tag := tag, gen := tabGet 0 (s.core c).tagGen tag, op := o.seq, stream := o.stream, pc := o.pc, hbm := r.1, spad := r.2.1, len := r.2.2, store := store }] }
      (opOf o.word ≠ 0x11 → exec (.fetchRequestIssue c) s = .next (enterL c
        (fetchPkt (s.modCore c (note false)) c false r.2.2 r.1 (tabGet 0 k.tagGen tag).toNat 0 tag r.2.1 []) (s.modCore c (note false)))) ∧
      (∀ d s1, opOf o.word = 0x11 → readPort c 6 r.2.1 r.2.2 s = (some d, s1) → exec (.fetchRequestIssue c) s = .next (
        let t := (s1.modCore c (note true)).bumpCore c 0x81 r.2.2
        enterL c (fetchPkt t c true r.2.2 r.1 (tabGet 0 k.tagGen tag).toNat 0 tag r.2.1 d) t))) ∧
    (∀ p rest, k.lq = p :: rest → p.hdr.ptype = 0x0A → bitsOf (nth 0 p.words 1) 30 2 = 0 →
      let tag := bitsOf (nth 0 p.words 1) 24 6
      let t := s.modCore c (fun k => { k with lq := k.lq.drop 1 })
      (bitsOf (nth 0 p.words 1) 32 8 ≠ (tabGet 0 k.tagGen tag).toNat → exec (.fetchReply c) s = .next (t.bumpCore c 0x82 1)) ∧
      (∀ r, bitsOf (nth 0 p.words 1) 32 8 = (tabGet 0 k.tagGen tag).toNat → k.reqs.find? (fun r => r.tag = tag) = some r →
        bitsOf (nth 0 p.words 0) 56 8 = 0 → exec (.fetchReply c) s = .next (
          let t := t.modCore c (fun k => { k with reqs := k.reqs.filter (fun q => q.tag ≠ tag) })
          let t := if r.store then t else ((writePort c 6 r.spad (p.payload.take r.len) t).bumpCore c 0x80 r.len).modCore c (fun k => { k with
            ops := k.ops.map (fun q => if q.seq = r.op then { q with doneReq := q.doneReq + 1 } else q) })
          t.advanceCore c 0x91 1))) ∧
    (∀ o, k.ops.find? (fun o => o.engine = .fetch && o.doneReq = o.requests.length) = some o →
      exec (.fetchComplete c) s = .next (completeOp c o.seq s)) ∧
    (groomRuns c s = true → k.groomActive = false → k.groomStart + k.groomPeriod ≤ s.clock → exec (.groomerPassStart c) s = .next (
      let t := if k.groomStart + k.groomPeriod < k.groomEnd then s.bump 0x5014 5 1 else s
      t.modCore c (fun k => { k with groomActive := true, groomStart := t.clock, groomPeriod := t.groomBeats, groomAt := 0 }))) ∧
    (groomRuns c s = true → k.groomActive = true → k.rewriteQ = [] → k.groomAt + 1 < spadBytes / 8 → exec (.groomerVisit c) s =
      .next (((groomWord c k.groomAt s).advanceKey (statKey (0x1000 + c) 0x56) 1).modCore c (fun q => { q with groomAt := k.groomAt + 1 }))) ∧
    (∀ a rest, groomRuns c s = true → k.rewriteQ = a :: rest → exec (.groomerRewrite c) s =
      .next (groomWord c (a / 8) (s.modCore c (fun q => { q with rewriteQ := rest }))))

/-- A controller that does not recalibrate takes the oldest waiting request of the first source in rotating order whose queue has room: a
Serving one accepts it, and any other answers STATUS 2. An accepted request that shares no line with an earlier one, at a Serving stack
whose reply has room, is served: a write stores its bytes or meets poison, a read answers the bytes or meets poison, with STATUS 0 or 1. A
bank whose activation count has reached half of RAAIMT receives an RFM command, which takes RAAIMT off the count. -/
def Obligations.HbmRequestsAreAcceptedAndServed : Prop :=
  ∀ (n : StackId) (s : State),
    let k := s.stack n
    (∀ r, k.state ≠ .recalibrating → (rotating k.turn).findSome? k.offered = some r →
      let k' := { k with waiting := k.waiting.erase r, turn := (r.source + 1) % 9 }
      (k.state = .serving → exec (.requestAccept n) s = .next (noteAccepted r.pkt (s.setStack n { k' with accepted := k.accepted ++ [r] }))) ∧
      (k.state ≠ .serving → exec (.requestAccept n) s = .next (sendReply n r.source (fetchReplyPkt r.pkt 2 []) (s.setStack n k')))) ∧
    (∀ (i : Fin 256) r, k.accepted[i.val]? = some r → k.state = .serving → (k.accepted.take i).any (fun q => shareLine q r) = false →
      ((s.core (replyEntry n r.source).1).input (replyEntry n r.source).2).accepts (fetchReplyPkt r.pkt 0 []) = true →
      let t := s.setStack n { k with accepted := k.accepted.eraseIdx i }
      (reqWrites r.pkt = true → exec (.stackServe n i) s = .next (
        let w := stackWrite r.source (reqAddr r.pkt) (r.pkt.payload.take (reqLen r.pkt)) t
        sendReply n r.source (fetchReplyPkt r.pkt (if w.1 then 0 else 1) [])
          (if w.1 && reqSource r.pkt = 0 then storedEntries (reqAddr r.pkt) (reqLen r.pkt) w.2 else w.2))) ∧
      (reqWrites r.pkt = false → exec (.stackServe n i) s = .next (
        let w := stackRead r.source (reqAddr r.pkt) (reqLen r.pkt) t
        sendReply n r.source (fetchReplyPkt r.pkt (if w.1.isSome then 0 else 1) (w.1.getD [])) w.2))) ∧
    (∀ b : Fin 2048, Config.raaimt ≤ 2 * tabGet 0 k.activations b → s.stat (0x2000 + n) 6 + 1 < 2 ^ 64 - 1 →
      ∃ t, exec (.rfm n b) s = .next t ∧ t = { s with hbmStacks := t.hbmStacks, stats := t.stats } ∧ t.stat (0x2000 + n) 6 = s.stat (0x2000 + n) 6 + 1 ∧
        t.stack n = { k with activations := tabSet 0 k.activations b (tabGet 0 k.activations b - Config.raaimt) } ∧
        ∀ j, j ≠ n.val → t.stack j = s.stack j)

/-- After bytes are written to HBM at an address, reading that range gives them, every byte outside it reads as before, memory keeps its
canonical form, no line wholly inside the range is poisoned, and nothing but memory and the poison of its lines has changed. -/
def Obligations.HbmBytesWrittenReadBack : Prop :=
  ∀ (s : State) (a : Nat) (l : List Byte),
    let t := s.hbmWrite a l
    t.hbmRead a l.length = l ∧ (∀ x, x < a ∨ a + l.length ≤ x → tabGet 0 t.hbm x = tabGet 0 s.hbm x) ∧
    (tabWf 0 s.hbm = true → tabWf 0 t.hbm = true) ∧ t = { s with hbm := t.hbm, hbmStacks := t.hbmStacks } ∧
    (∀ n, t.stack n = { s.stack n with poison := (t.stack n).poison }) ∧
    ∀ i, a ≤ 64 * i → 64 * i + 64 ≤ a + l.length → tabGet 0 (t.stack (stackOf a)).poison i = 0

/-- A Serving stack recalibrates on STACK_COMMAND 1, or when a temperature report has moved by 10 °C, and serves again when the recalibration
ends, which is counted; the accesses that waited at its ring port are then taken up in order. STACK_COMMAND 2 answers busy and changes
nothing while a load, a window or a dump needs the stack, and otherwise puts a Serving stack into self-refresh; a retrain that succeeds
returns it to Serving, and one that fails leaves it Failed with its contents gone. Other stacks are unchanged. -/
def Obligations.StackCommandsAndTraining : Prop :=
  ∀ (n : StackId) (s : State),
    let k := s.stack n
    let only (t : State) : Prop := ∀ j, j ≠ n.val → t.stack j = s.stack j
    (Answering s → k.state = .serving → ∃ t, exec (.recalibrate n) s = .next t ∧ t = { s with hbmStacks := t.hbmStacks, out := [0] } ∧
      t.stack n = { k with state := .recalibrating, calSince := s.clock } ∧ only t) ∧
    (∀ temp, k.state = .serving → tempMoved temp k.tempAtCal = true →
      ∃ t, exec (.tempRecalibration n temp) s = .next t ∧ t = { s with hbmStacks := t.hbmStacks } ∧
        t.stack n = { k with temp := temp, state := .recalibrating, calSince := s.clock } ∧ only t) ∧
    (∀ temp, tempMoved temp k.tempAtCal = false → ∃ t, exec (.tempRecalibration n temp) s = .next t ∧ t = { s with hbmStacks := t.hbmStacks } ∧
        t.stack n = { k with temp := temp } ∧ only t) ∧
    (k.state = .recalibrating → let u := (s.setStack n { k with state := .serving, tempAtCal := k.temp }).bump (0x2000 + n) 0x0A 1
      exec (.recalibrationDone n) s = .next (u.heldRing.foldl resumeAccess { u with heldRing := [], out := [] }) ∧
      (s.heldRing = [] → s.stat (0x2000 + n) 0x0A + 1 < 2 ^ 64 - 1 → ∃ t, exec (.recalibrationDone n) s = .next t ∧
        t = { s with hbmStacks := t.hbmStacks, stats := t.stats, out := [] } ∧ t.stack n = { k with state := .serving, tempAtCal := k.temp } ∧
        t.stat (0x2000 + n) 0x0A = s.stat (0x2000 + n) 0x0A + 1 ∧ only t)) ∧
    (Answering s → s.retrainBusy n = true → exec (.retrain n) s = .next { s with out := [6] }) ∧
    (Answering s → s.retrainBusy n = false → k.state = .serving → ∃ t, exec (.retrain n) s = .next t ∧
      t = { s with hbmStacks := t.hbmStacks, out := [0] } ∧ t.stack n = { k with state := .retraining } ∧ only t) ∧
    (k.state = .retraining → s.stat (0x2000 + n) 0x0B + 1 < 2 ^ 64 - 1 → ∃ t, exec (.retrainDone n true) s = .next t ∧
      t = { s with hbmStacks := t.hbmStacks, stats := t.stats } ∧ t.stack n = { k with state := .serving, tempAtCal := k.temp } ∧ only t) ∧
    (k.state = .retraining → ∃ t, exec (.retrainDone n false) s = .next t ∧ (t.stack n).state = .failed ∧
      (∀ a, stackOf a = n → tabGet 0 t.hbm a = 0) ∧ (∀ a, stackOf a ≠ n → tabGet 0 t.hbm a = tabGet 0 s.hbm a) ∧ bitAt t.faults.alerts 5 = true ∧ only t)

/-- LOAD_COMMAND 1 and 2 start a check of the image LOAD_IMAGE_ADDR names and answer done; while a check or an installation runs they answer
busy, and for a multi-device image outside its running job they answer a state error, and change nothing. LOAD_COMMAND 3 ends a check, or
tears down a program that is installing or installed and not launched. When a check ends, the image has been read through its stack's ring
port; a failure leaves its code and LOAD_STATE 4 and is counted, a check passed leaves LOAD_STATE 5, or 2 with the image's program in the
lowest free slot and its packs. When installation ends, the routers of the used cores being drained and no slice running there, LOAD_STATE
is 3 and the packs are installed with empty queues. -/
def Obligations.LoadCommandsAndInstall : Prop :=
  ∀ (s : State),
    (Answering s → s.load.state = .checking ∨ s.load.state = .installing →
      exec .checkAndInstall s = .next { s with out := [6] } ∧ exec .checkOnly s = .next { s with out := [6] }) ∧
    (Answering s → s.load.state ≠ .checking → s.load.state ≠ .installing → s.loadRefused = true →
      exec .checkAndInstall s = .next { s with out := [7] } ∧ exec .checkOnly s = .next { s with out := [7] }) ∧
    (Answering s → s.load.state ≠ .checking → s.load.state ≠ .installing → s.loadRefused = false →
      ∀ only, exec (if only then .checkOnly else .checkAndInstall) s = .next { tapYield s with
        out := [0]
        load := { s.load with state := .checking, checkOnly := only, image := s.imageAddr, packs := (s.img s.imageAddr).mask, startedAt := s.howl } }) ∧
    (Answering s → s.load.state = .checking → exec .loadAbort s = .next { s with load := { s.load with state := .idle }, out := [0] }) ∧
    (Answering s → s.load.state = .installing ∨ s.load.state = .installed →
      ∃ t, exec .loadAbort s = .next t ∧ t.out = [0] ∧ t.load.state = .idle ∧
        t = { refreshDev { startTeardown s.load.prog 0 s with load := { s.load with state := .idle } } with out := [0] }) ∧
    (∀ w, s.load.state = .checking → s.pedigree s.load.image = some w →
      exec .pedigreeCheckDone s = .next (loadFails w (readImage s.load.image s))) ∧
    (∀ w, let t := loadFails w s
      t.load = { s.load with state := .failed, result := w, resultTime := s.howl } ∧ t = ({ s with load := t.load } : State).bump 0x5017 2 1) ∧
    (s.load.state = .checking → s.pedigree s.load.image = none →
      let u := (readImage s.load.image s).bump 0x5017 1 1
      (u.load.checkOnly = true → exec .pedigreeCheckDone s = .next { u with
        load := { u.load with state := .passed, result := 0, resultTime := u.howl } }) ∧
      (u.load.checkOnly = false →
        let m := u.image u.load.image u.freeProg
        ∃ t, exec .pedigreeCheckDone s = .next t ∧ t = { u with load := t.load, progs := t.progs, packs := t.packs } ∧
        t.load = { u.load with state := .installing, result := 0, resultTime := u.howl, prog := u.freeProg } ∧
        (t.prog u.freeProg).packs = m.hdr.mask ∧ (t.prog u.freeProg).imageAddr = m.hdr.base ∧ (t.prog u.freeProg).opset = m.hdr.opset ∧
        (t.prog u.freeProg).compiler = m.hdr.compiler ∧ (t.prog u.freeProg).checkLevel = m.hdr.level ∧
        (∀ p, p ∈ packsIn m.hdr.mask → (t.pack p).prog = some u.freeProg) ∧ (∀ p, p ∉ packsIn m.hdr.mask → t.pack p = u.pack p))) ∧
    (let m := s.image s.load.image s.load.prog
     s.load.state = .installing → m.cores.all (fun x => (s.core x.core).routerEmpty && !(s.core x.core).vetting) = true →
      ∃ t, exec .installDone s = .next t ∧ t.load.state = .installed ∧ ∀ p, p ∈ packsIn m.hdr.mask →
        (t.pack p).state = .installed ∧ (t.pack p).queue = [] ∧ (t.pack p).everLaunched = false ∧ (t.pack p).posted = false ∧
        (t.pack p).goAt = none ∧ (t.pack p).teardown = none)

/-- A pack whose program may launch takes the timed descriptor at its head and launches its step once the launch time has come and it is
ready; otherwise a frequency change whose boundary has come is made. One whose go time has come, with no relock outstanding, launches its
gated step, or its replayed one. A participant that has finished, with its gates met in a gated step, posts; a frequency change that
awaits the boundary is made and the pack's last post enters the tree. A launch time that comes at a pack that is not ready is counted once
as an overrun. When a relock ends the pack may post. -/
def Obligations.StepLaunchesAndOverruns : Prop :=
  ∀ (p : PackId) (g : Nat) (s : State), Launches p g s →
    (∀ d rest, (s.pack p).queue = d :: rest → d.gated = false → s.replaying p = false →
      (s.packReady p = true → howlGe s.howl d.launch = true → exec (.timedLaunch p) s = .next (launchPack g p d s)) ∧
      ((s.packReady p && howlGe s.howl d.launch) = false → exec (.timedLaunch p) s = .next (freqBoundary p s))) ∧
    (∀ t d rest, (s.pack p).goAt = some t → howlGe s.howl t = true → (s.pack p).relockEnd = none → s.replOf g = none →
      (s.pack p).queue = d :: rest → exec (.gatedLaunch p) s = .next (launchPack g p d s)) ∧
    (∀ t r, (s.pack p).goAt = some t → howlGe s.howl t = true → (s.pack p).relockEnd = none → s.replOf g = some r →
      exec (.gatedLaunch p) s = .next (launchReplay g p r s)) ∧
    (∀ c : CoreId, packOf c = p → (s.usedCores p).contains c.val = true → (s.core c).finished = true →
      (s.pack p).queue ≠ [] ∨ s.replaying p = true → s.replayOpen p = true →
      (s.nextGated p = true → s.replaying p = true ∨ (s.core c).postedReady = true ∨ (s.core c).gatesMet = true) →
      exec (.stepReadyPost c) s = .next (packPost p (freqBoundary p (s.modCore c (fun k => { k with postedReady := true }))))) ∧
    (∀ d rest, (s.pack p).queue = d :: rest → howlGe s.howl d.launch = true → s.packReady p = false → (s.pack p).overran = false →
      exec (.overrun p) s = .next (countOnce g 0 3 1 d.step ((s.bump (0x1800 + p) 0x10 1).modPack p (fun k => { k with overran := true })))) ∧
    ((s.pack p).relockEnd.isSome = true →
      exec (.relockDone p) s = .next (packPost p (s.modPack p (fun k => { k with relockEnd := none, readyAt := s.howl }))))

/-- When a program enters a step at a pack: PACK_STATE is 2, the step number and the launch beat are those of the launch, the pack has
launched and has posted nothing; every stream of a used core that was parked on launch is Ready with no gate and no claims used; every
running table of a used core whose table is not idle starts from its first entry at the launch beat; at the program's first launch every
configured Bowl of its used cores opens; LOAD_STATE 3 of this program becomes 0; other cores keep everything but that. -/
def Obligations.LaunchEntersTheStep : Prop :=
  ∀ (g p : Nat) (step : Word) (gated : Bool) (s : State), s.progOf p = some g →
    let t := enterStep g p step gated s
    (t.pack p).state = .running ∧ (t.pack p).step = step ∧ (t.pack p).launchAt = s.howl ∧ (t.pack p).everLaunched = true ∧ (t.pack p).posted = false ∧
    (t.pack p).goAt = none ∧ (t.pack p).queue = (s.pack p).queue ∧ (∀ q, q ≠ p → t.pack q = s.pack q) ∧
    (∀ c, c ∈ s.usedCores p → ∀ i, ((s.core c).stream i).st = .parkedLaunch →
      ((t.core c).stream i).st = .ready ∧ ((t.core c).stream i).gate = none ∧ ((t.core c).stream i).claimsUsed = []) ∧
    (∀ c, c ∈ s.usedCores p → ∀ d : Dir, ((s.core c).output d).table.idle = false →
      ((t.core c).output d).running = true ∧ ((t.core c).output d).head = 0 ∧ ((t.core c).output d).period = 0 ∧
      ((t.core c).output d).launchAt = s.howl ∧ ((t.core c).output d).table = ((s.core c).output d).table) ∧
    (t.prog g).launched = true ∧
    ((s.prog g).launched = false → ∀ q, q ∈ s.progPacks g → ∀ c, c ∈ s.usedCores q → ∀ b, bConf ((s.core c).bowl b) = true → ((t.core c).bowl b).isOpen = true) ∧
    (∀ c, c ∉ s.usedCores p → t.core c = { s.core c with bowls := (t.core c).bowls } ∧ ((s.prog g).launched = true → t.core c = s.core c)) ∧
    (s.load.state = .installed → s.load.prog = g → t.load.state = .idle) ∧ t.hbm = s.hbm

/-- Lock of the reference, once the rails are up, and its loss are remembered without a jump of the Howl. At a multiple of 2^12 beats every
core's Howl copy is made equal to the generator's count and the corrections are counted. A PPS edge more than 100 µs after the last one
accepted captures the count and is counted. An emergency clock-down of a booted module acts on the packs of its target. A stretched cycle
is counted at its core. -/
def Obligations.HowlAndClockEvents : Prop :=
  ∀ (s : State),
    (exec .howlRefLock s = .next { s with power := { s.power with refOk := true, refLocked := s.power.refLocked || s.power.rails } }) ∧
    (exec .holdover s = .next { s with power := { s.power with refOk := false } }) ∧
    (s.howl.toNat % 4096 = 0 → s.power.rails = true →
      let bad := (s.cores.filter (fun e => e.2.howlSkew ≠ 0)).map (fun e => e.1)
      exec .howlBroadcast s = .next ((bad.foldl (fun s c => s.modCore c (fun k => { k with howlSkew := 0 })) s).bump 0x5010 8 bad.length)) ∧
    (s.power.booted = true → s.power.ppsAt = 0 ∨ s.power.ppsAt + 82500 < s.clock + 1 →
      exec .howlPpsCapture s = .next { s with power := { s.power with ppsCapture := s.howl, ppsAt := s.clock + 1, ppsCount := s.power.ppsCount + 1 } }) ∧
    (∀ target : ClockTarget, s.power.booted = true → exec (.emergencyClockdown target) s = .next (clockDown target.packs s)) ∧
    (∀ c : CoreId, s.stat (0x1000 + c) 2 + 1 < 2 ^ 64 - 1 →
      exec (.cycleStretch c) s = .next { s with stats := tabSet 0 s.stats (statKey (0x1000 + c) 2) (s.stat (0x1000 + c) 2 + 1) })

/-- LAUNCH_CONTROL 1 starts the generator when a period is set, one program holds its packs and the first launch is not too far ahead, and
otherwise answers busy, a state error or a range error and changes nothing; 2 stops it and 3 hands the queues to the host, both leaving
queued descriptors. While it runs, with room in every fed queue and one below 8, the next descriptor goes to every fed pack at first + k ×
period. A launch-window time write of 8 bytes by the function that serves a fed pack with room appends a descriptor. -/
def Obligations.LaunchGeneratorAndWindow : Prop :=
  ∀ (s : State),
    (Answering s →
      (s.gen.running = true → exec .generatorStart s = .next { s with out := [6] }) ∧
      (s.gen.running = false → s.gen.period = 0 ∨ s.gen.packs = 0 → exec .generatorStart s = .next { s with out := [7] }) ∧
      (s.gen.running = false → s.gen.period ≠ 0 → s.gen.packs ≠ 0 → s.oneProgram s.gen.packList = none →
        exec .generatorStart s = .next { s with out := [6] }) ∧
      (s.gen.running = false → s.gen.period ≠ 0 → s.gen.packs ≠ 0 → s.oneProgram s.gen.packList ≠ none → howlTooFar s.gen.first s.howl = true →
        exec .generatorStart s = .next { s with out := [4] }) ∧
      (s.gen.running = false → s.gen.period ≠ 0 → s.gen.packs ≠ 0 → s.oneProgram s.gen.packList ≠ none → howlTooFar s.gen.first s.howl = false →
        exec .generatorStart s = .next { s with gen := { s.gen with running := true, hostFed := false, k := 0 }, out := [0] }) ∧
      exec .generatorStop s = .next { s with gen := { s.gen with running := false, hostFed := false }, out := [0] } ∧
      exec .hostFed s = .next { s with gen := { s.gen with running := false, hostFed := true }, out := [0] }) ∧
    (∀ g, s.oneProgram s.gen.packList = some g → s.gen.running = true → s.gen.packList.any (fun p => (s.pack p).queue.length < 8) = true →
      s.gen.packList.any (fun p => 64 ≤ (s.pack p).queue.length) = false → exec .generatorDescriptor s = .next (
        let t := s.gen.packList.foldl (fun s p =>
          appendDescriptor p (s.gen.first + BitVec.ofNat 64 (s.gen.k * s.gen.period.toNat)) s.gen.gated (s.prog g).margin s) s
        { t with gen := { s.gen with k := s.gen.k + 1, nextStep := (s.pack (s.gen.packList.headD 0)).nextStep + 1 } })) ∧
    (∀ (fn : Fin 17) (p : PackId) (l : Time) (ide : Bool) (g : Nat), BarOpen fn ide s → s.serves fn p = true → s.progOf p = some g →
      s.gen.hostFed = true → (s.pack p).state = .installed ∨ (s.pack p).state = .running → (s.pack p).queue.length < 64 →
      howlTooFar l s.howl = false →
      exec (.lwTimeWrite fn p none l 8 ide) s = .next (appendDescriptor p l (tabGet false s.host.lwGated p) (s.prog g).margin s)) ∧
    ∀ (p : Nat) (l : Time) (gated : Bool) (margin : Nat), 
      let t := appendDescriptor p l gated margin s
      (t.pack p).queue = (s.pack p).queue ++ [{ step := (s.pack p).nextStep, launch := l, gated := gated, margin := margin }] ∧
      (t.pack p).nextStep = (s.pack p).nextStep + 1 ∧ (∀ q, q ≠ p → t.pack q = s.pack q) ∧ t = { s with packs := t.packs }

/-- A doorbell write through the function that serves a context owned by a loaded image is accepted when the count it names lies within the
ring, and changes nothing else; one beyond the ring sets the context's error bit 0 or 1 and is counted; one to a context that no image
owns sets bit 2. Writing ones to RING_ERR clears those bits. Every other context is unchanged. -/
def Obligations.DoorbellsAndRingErrors : Prop :=
  ∀ (fn : Fin 17) (n : CtxId) (v : BitVec 32) (ide : Bool) (s : State), BarOpen fn ide s → s.serves fn (n % 16) = true →
    let k := s.ctx n
    (∀ g, k.owner = some g →
      ((v - s.inRead n).toNat ≤ 2 ^ k.inLog2 → (v - k.inTail).toNat ≤ 2 ^ k.inLog2 →
        exec (.inTailWrite fn n v ide) s = .next (s.setCtx n { k with inTail := v })) ∧
      ((k.cplTail - v).toNat ≤ 2 ^ k.cplLog2 → (v - k.cplHead).toNat ≤ 2 ^ k.cplLog2 →
        exec (.cplHeadWrite fn n v ide) s = .next (s.setCtx n { k with cplHead := v, headOld := k.headIn s.clock, headAt := s.clock + 1 })) ∧
      (2 ^ k.inLog2 < (v - s.inRead n).toNat ∨ 2 ^ k.inLog2 < (v - k.inTail).toNat → s.stat 0x501D 2 + 1 < 2 ^ 64 - 1 →
        ∃ t, exec (.inTailWrite fn n v ide) s = .next t ∧ t.ctx n = { k with ringErr := k.ringErr ||| 1 } ∧ t.stat 0x501D 2 = s.stat 0x501D 2 + 1 ∧
          t = { s with ctxs := t.ctxs, stats := t.stats } ∧ ∀ j, j ≠ n.val → t.ctx j = s.ctx j) ∧
      (2 ^ k.cplLog2 < (k.cplTail - v).toNat ∨ 2 ^ k.cplLog2 < (v - k.cplHead).toNat → s.stat 0x501D 2 + 1 < 2 ^ 64 - 1 →
        ∃ t, exec (.cplHeadWrite fn n v ide) s = .next t ∧ t.ctx n = { k with ringErr := k.ringErr ||| 2 } ∧ t.stat 0x501D 2 = s.stat 0x501D 2 + 1 ∧
          t = { s with ctxs := t.ctxs, stats := t.stats } ∧ ∀ j, j ≠ n.val → t.ctx j = s.ctx j)) ∧
    (k.owner = none → s.stat 0x501D 2 + 1 < 2 ^ 64 - 1 →
      ∃ t, exec (.inTailWrite fn n v ide) s = .next t ∧ exec (.cplHeadWrite fn n v ide) s = .next t ∧ t.ctx n = { k with ringErr := k.ringErr ||| 4 } ∧
        t = { s with ctxs := t.ctxs, stats := t.stats } ∧ ∀ j, j ≠ n.val → t.ctx j = s.ctx j) ∧
    ∀ b : Byte, exec (.ringErrClear fn n b ide) s = .next (s.setCtx n { k with ringErr := k.ringErr &&& ~~~(b.setWidth 32) })

/-- With a current entry readable at an idle context owned by a loaded image: a well-formed TOKENS, HANDOFF or CLOSE entry is posted to the
context's input Collar; a well-formed PARAMS entry waits for the Retriever's answer; a malformed entry is refused with STATUS 9. An
accepted answer puts the entry's parameters in force and consumes the entry; a refused one is answered with STATUS 9. -/
def Obligations.InputEntriesAreHandled : Prop :=
  ∀ (n : CtxId) (s : State) (g : Nat) (l : List Byte) (t : State),
    let k := s.ctx n
    (k.owner = some g → k.stage = .idle → k.inSeen ≠ k.inTail → s.power.rails = true → (s.pack (n % 16)).retr.stopped = false →
      ringRead (k.inAddr k.inSeen) 64 s = (.done l, t) →
      let u := t.setCtx n { k with pendEntry := l }
      let posted := postInput n (u.modCtx n (fun k => { k with stage := .posted }))
      (entMalformed l (u.prog g).windows = true →
        (entKind l = 1 ∨ entKind l = 0 ∨ 4 < entKind l → exec (.inputTokens n) s = .next (ringRefuse n u)) ∧
        (entKind l = 2 → exec (.inputParams n) s = .next (ringRefuse n u)) ∧ (entKind l = 3 → exec (.inputHandoff n) s = .next (ringRefuse n u)) ∧
        (entKind l = 4 → exec (.inputClose n) s = .next (ringRefuse n u))) ∧
      (entMalformed l (u.prog g).windows = false →
        (entKind l = 1 → exec (.inputTokens n) s = .next posted) ∧ (entKind l = 3 → exec (.inputHandoff n) s = .next posted) ∧
        (entKind l = 4 → exec (.inputClose n) s = .next posted) ∧
        (entKind l = 2 → exec (.inputParams n) s = .next (u.modCtx n (fun k => { k with stage := .params (entParams l).ok }))))) ∧
    (k.stage = .params true → exec (.paramsAnswer n) s = .next (consumeEntry n (s.setCtx n { k with params := entParams k.pendEntry }))) ∧
    (k.stage = .params false → exec (.paramsAnswer n) s = .next (ringRefuse n s))

/-- At a Retriever that has not stopped: a logits packet of a context it does not serve is fault 0x91; one of a pair that has left the store,
out of order, beyond the vocabulary or with an element seen before is fault 0x90; one for which there is no slot stays at the L output;
any other fills its pair. The first command for a context and SEQ is held, a later one does nothing, one out of order is fault 0x90. A
pair complete with a cancel is answered at once. -/
def Obligations.RetrieverPairsLogitsAndCommands : Prop :=
  ∀ (p : PackId) (s : State) (q : Pkt),
    let c := retrRouter p
    let w := nth 0 q.words 0
    let n := retrCtx w
    let seq := retrSeq w
    let r := (s.pack p).retr
    let t := lqPop c s
    lqHead c s = some q → r.stopped = false →
    (q.hdr.ptype = 0x07 →
      let k := s.ctx n
      let size := if k.logitBf16 then 2 else 4
      let start := 64 * q.hdr.doff / size
      let es := logitElems k.logitBf16 k.vocab start q.payload
      let pair := (r.pairs.find? (fun x => x.ctx = n && x.seq = seq)).getD (RetrPair.fresh n seq)
      let bad := halfFaults r.pairs n seq k.vocab (fun x => x.take es) || decide (k.vocab ≤ start + (q.hdr.len - 1) * (256 / size)) ||
        es.any (fun e => tabGet false pair.seen e.1) || (tabGet [] r.finished n).contains seq
      (s.retrServes p n = false → exec (.retrieverLogits p) s = .next (retrieverFault 0x91 p n t)) ∧
      (s.retrServes p n = true → bad = true → exec (.retrieverLogits p) s = .next (retrieverFault 0x90 p n t)) ∧
      (s.retrServes p n = true → bad = false → logitsHeld c q s = true → exec (.retrieverLogits p) s = .next s) ∧
      (s.retrServes p n = true → bad = false → logitsHeld c q s = false → exec (.retrieverLogits p) s = .next (
        cancelIfWhole p n seq (t.modRetr p (fun r => { r with pairs := setPair n seq (fun x => x.take es) r.pairs }))))) ∧
    (∀ cancel : Bool, q.hdr.ptype = 0x08 → bitAt w 33 = cancel →
      let cmd : Instr := if cancel then .retrieverCancelCmd p else .retrieverSampleCmd p
      let put (x : RetrPair) : RetrPair := { x with cmd := some { cancel := cancel, irq := bitAt w 32 } }
      (s.retrServes p n = false → exec cmd s = .next (retrieverFault 0x91 p n t)) ∧
      (s.retrServes p n = true → (tabGet [] r.acted n).contains seq = true → exec cmd s = .next t) ∧
      (s.retrServes p n = true → (tabGet [] r.acted n).contains seq = false → halfFaults r.pairs n seq (s.ctx n).vocab put = true →
        exec cmd s = .next (retrieverFault 0x90 p n t)) ∧
      (s.retrServes p n = true → (tabGet [] r.acted n).contains seq = false → halfFaults r.pairs n seq (s.ctx n).vocab put = false →
        exec cmd s = .next (cancelIfWhole p n seq (t.modRetr p (fun r => { r with
          pairs := setPair n seq put r.pairs, acted := tabSet [] r.acted n (addSeq seq (tabGet [] r.acted n)) })))))

/-- A Retriever with no sample in its pipeline starts the lowest ready context, whose pair leaves the store, or stops with fault 0x92 where it
reads an uncorrectable word. A sample whose beats have passed is issued as a completion write and feedback, or held while no entry is
free. A held completion is written once an entry is free, and a refusal the ring controller holds is retried. A reply of the current tag
generation with status 0 advances CPL_TAIL and raises the vector if the completion asks for it; another status is fault 0x94; a stale
generation is counted. -/
def Obligations.RetrieverSamplesAndCompletes : Prop :=
  ∀ (p : PackId) (s : State),
    let r := (s.pack p).retr
    let c := retrRouter p
    (∀ x, r.stopped = false → r.sampling = none → s.readyPair p = some x →
      (s.storeBad p x = true → exec (.sampleStart p) s = .next (retrieverFault 0x92 p x.ctx s)) ∧
      (s.storeBad p x = false → exec (.sampleStart p) s = .next ((s.modRetr p (fun r => { r with
        pairs := r.pairs.filter (fun z => !(z.ctx = x.ctx && z.seq = x.seq))
        finished := tabSet [] r.finished x.ctx (addSeq x.seq (tabGet [] r.finished x.ctx))
        sampling := some (startSample p x s) })).bump (0x1800 + p) 0x36 (startSample p x s).beats))) ∧
    (∀ x, r.sampling = some x → howlGe s.howl (x.startedAt + BitVec.ofNat 64 x.beats) = true →
      let y := { x with readyAt := s.howl, seqno := s.hbmNum ((s.ctx x.ctx).stateAddr + 8) 4 }
      let t := (s.modRetr p (fun r => { r with sampling := none })).advancePack p
      let hold := t.modRetr p (fun r => { r with ready := r.ready ++ [y] })
      (x.kept = true → exec (.sampleReady p) s = .next ((sendFeedback p y t).bump 0x501B 6 1)) ∧
      (x.kept = false → r.ready.any (fun z => z.ctx = x.ctx) = true → exec (.sampleReady p) s = .next hold) ∧
      (x.kept = false → r.ready.any (fun z => z.ctx = x.ctx) = false → exec (.sampleReady p) s = .next ((issueCpl p y t).getD hold))) ∧
    (∀ n : CtxId, n % 16 = p.val → (s.ctx n).owner ≠ none → r.stopped = false →
      ((s.ctx n).stage = .refuse → exec (.completionWrite n) s = .next (ringRefuse n s)) ∧
      (∀ x u, (s.ctx n).stage ≠ .refuse → r.ready.find? (fun x => x.ctx = n.val) = some x →
        issueCpl p x (s.modRetr p (fun r => { r with ready := r.ready.erase x })) = some u →
        exec (.completionWrite n) s = .next u)) ∧
    (∀ q, lqHead c s = some q → q.hdr.ptype = 0x0A → bitsOf (nth 0 q.words 1) 30 2 = 1 →
      let tag := bitsOf (nth 0 q.words 1) 24 6
      let t := lqPop c s
      (bitsOf (nth 0 q.words 1) 32 8 ≠ (tabGet 0 r.tagGen tag).toNat → exec (.completionAccepted p) s = .next (t.bumpCore c 0x82 1)) ∧
      (∀ x, bitsOf (nth 0 q.words 1) 32 8 = (tabGet 0 r.tagGen tag).toNat → r.reqs.find? (fun x => x.tag = tag) = some x →
        let t := t.modRetr p (fun r => { r with reqs := r.reqs.filter (fun y => y.tag ≠ tag) })
        (bitsOf (nth 0 q.words 0) 56 8 = 0 → exec (.completionAccepted p) s = .next (
          let u := (cplAccepted portWrite x.ctx x.step t).bump (0x1800 + p) (if x.status ≤ 1 then 0x30 else 0x31) 1
          if x.irq then raiseCtx x.ctx u else u)) ∧
        (bitsOf (nth 0 q.words 0) 56 8 ≠ 0 → r.stopped = false → exec (.completionAccepted p) s = .next (retrieverFault 0x94 p x.ctx t))))

/-- At a live port, with the counted codewords noted: a frame that fails its CRC is dropped, counted, and a retry request is due; a good flit
or idle frame first frees the replay buffer up to its ACK; out of sequence it is dropped; in sequence its credits are returned and no
retry is due, and a flit's SEQ is then the last accepted. A retry request restarts the resending after the frame it names. Every other
port is unchanged by a frame that is dropped. -/
def Obligations.FramesAreAcceptedInSequence : Prop :=
  ∀ (f : PortId) (fr : Frame) (corr unc : Nat) (frac : Byte) (s : State), (s.port f).live = true →
    let t := (s.bump (0x2400 + f) 9 corr).bump (0x2400 + f) 0x0A unc
    let p := (s.port f).acked (frAck fr.trailer)
    let q := p.credit fr.trailer
    (fr.crcOk = false → exec (.frameReceive f fr corr unc frac) s = .next
      ((t.setPort f { s.port f with waiting := true, retryPending := true }).bump (0x2400 + f) 7 1)) ∧
    (fr.crcOk = true → 2 ≤ frKind fr.trailer → exec (.frameReceive f fr corr unc frac) s = .next t) ∧
    (fr.crcOk = true → frKind fr.trailer < 2 → frSeq fr.trailer ≠ (s.port f).rxNext → exec (.frameReceive f fr corr unc frac) s = .next
      (t.setPort f { p with waiting := true, retryPending := p.retryPending || !p.waiting })) ∧
    (fr.crcOk = true → frKind fr.trailer = 1 → frSeq fr.trailer = (s.port f).rxNext → exec (.frameReceive f fr corr unc frac) s = .next
      (t.setPort f { q with waiting := false, retryPending := false, retriesSince := 0 })) ∧
    (fr.crcOk = true → frKind fr.trailer = 0 → frSeq fr.trailer = (s.port f).rxNext → exec (.frameReceive f fr corr unc frac) s = .next
      (acceptFlit f fr (howl256 s + frac.setWidth 64) ((t.setPort f
        { q with rxNext := (q.rxNext + 1) % 4096, waiting := false, retryPending := false, retriesSince := 0 }).bump (0x2400 + f) 6 1))) ∧
    (fr.crcOk = true → frKind fr.trailer = 2 → exec (.retryRequest f fr) s = .next (s.setPort f { p with resend := 0 })) ∧
    (fr.crcOk = false ∨ frKind fr.trailer ≠ 2 → exec (.retryRequest f fr) s = .next s)

/-- A live port outside a job and outside the forming of one goes down and is counted. PORT_ENABLE written 0 or 1 is committed to flash and
puts the port into disabled or, with the rails on, training; it is answered a state error while HOLDUP_OK is low and a flash error where
the flash fails. A training port comes up when its link is ready. Every other port keeps its state. -/
def Obligations.PortsGoDownTrainAndComeUp : Prop :=
  ∀ (f : PortId) (s : State),
    ((s.port f).state = .up → s.job.state ≠ .forming → s.stat (0x2400 + f) 0x0D + 1 < 2 ^ 64 - 1 →
      ∃ t, exec (.portDown f) s = .next t ∧ t = { s with ports := t.ports, stats := t.stats } ∧
        t.port f = { Port.reset with
          state := .down, neighbour := (s.port f).neighbour, delay := (s.port f).delay, excluded := (s.port f).excluded } ∧
        t.stat (0x2400 + f) 0x0D = s.stat (0x2400 + f) 0x0D + 1 ∧ ∀ g, g ≠ f.val → t.port g = s.port g) ∧
    (Answering s → ∀ flash : Bool, let go (on : Bool) : Instr := if on then .portTrain f flash else .portDisable f flash
      ∀ on : Bool,
        (s.env.holdupOk = false → exec (go on) s = .next { s with out := [7] }) ∧
        (s.env.holdupOk = true → flash = false → exec (go on) s = .next { s with out := [0x0E] }) ∧
        (s.env.holdupOk = true → flash = true → ∃ t, exec (go on) s = .next t ∧
          t.port f = { Port.reset with
            state := if on && s.power.rails then .training else .disabled, neighbour := (s.port f).neighbour, delay := (s.port f).delay } ∧
          t.setting (0x2400 + f) 2 1 = bit01 on ∧ t.power.flashWrites = s.power.flashWrites + 1 ∧ t.out = [0] ∧
          t = { s with ports := t.ports, settings := t.settings, power := t.power, out := [0] } ∧
          t.power = { s.power with flashWrites := t.power.flashWrites } ∧ ∀ g, g ≠ f.val → t.port g = s.port g)) ∧
    ((s.port f).state = .training → s.job.state ≠ .forming → exec (.portUp f) s = .next (s.setPort f { s.port f with state := .up })) ∧
    ((s.port f).state = .training → s.job.state = .forming → s.jobPorts.contains f.val = true → s.job.listsFixed = false →
      exec (.portUp f) s = .next (sendHello f (s.setPort f { s.port f with state := .up })))

/-- In a frame time of a live port, once the ring has moved what it can: a retry request that is due is sent and counted, the sixteenth in a
row takes the port down; otherwise the next frame of the replay buffer still to be resent goes; otherwise, with fewer than 256 frames
unacknowledged, the first channel in the order of R396 with a flit and a credit sends it; otherwise an idle frame goes. The frame's bytes
are left in `out`. -/
def Obligations.FramesLeaveInOrderOfPrecedence : Prop :=
  ∀ (f : PortId) (s : State), let t := drainRing s
    let p := t.port f
    let o := p.nextOwed
    let idle : State := { t with out := (mkFrame [] p.txSeq (p.rxNext + 4095) 1 0 false false o.1 o.2).bytes }.setPort f
      { p with owed := tabMod 0 p.owed o.1 (· - o.2) }
    p.live = true →
    (p.retryPending = true →
      let u := ({ t with out := (mkFrame [] p.txSeq (p.rxNext + 4095) 2 0 false false 0 0).bytes }.setPort f
        { p with retryPending := false, retriesSince := p.retriesSince + 1 }).bump (0x2400 + f) 8 1
      (p.retriesSince + 1 < 16 → exec (.frameSend f) s = .next u) ∧
      (16 ≤ p.retriesSince + 1 → exec (.frameSend f) s = .next (portDown f u))) ∧
    (∀ fr, p.retryPending = false → p.replay[p.resend]? = some fr → exec (.frameSend f) s = .next
      ({ t with out := (fr.withAck (p.rxNext + 4095)).bytes }.setPort f { p with resend := p.resend + 1 })) ∧
    (p.retryPending = false → p.replay[p.resend]? = none → 256 ≤ p.replay.length ∨ p.nextVc = none → exec (.frameSend f) s = .next idle) ∧
    (∀ vc, p.retryPending = false → p.replay[p.resend]? = none → p.replay.length < 256 → p.nextVc = some vc → exec (.frameSend f) s = .next
      (let r := sendFlit f vc t; { r.2 with out := r.1.bytes }.advanceKey (statKey (0x2400 + f) 5) 1))

/-- Once the ring has moved what it can: the first arrival of a port that is not held is discarded and counted where its epoch is stale, kept
at the ring, handed to its row router or forwarded, and its credits are owed to the sender. An answer frees the reservation of the request
it matches and becomes a NACK unless it says delivered or gated. A request unanswered for 2^18 beats is counted and NACKed with reason
0x07. Requests and replies that have waited 2^10 beats are discarded and counted. After a Bark no packet of the Barked epoch stays in the
rings. -/
def Obligations.ArrivalsAnswersAndExpiries : Prop :=
  ∀ (s : State), let t := drainRing s
    (∀ (f : PortId) (r : RingPkt), t.ring.arrivals.find? (fun r => r.fromPort = f.val && t.arrivalAct r ≠ .wait) = some r →
      let u := owePkt r { t with ring := { t.ring with arrivals := t.ring.arrivals.erase r } }
      (t.arrivalAct r = .discard true → exec (.fabricPacketArrival f) s = .next ((u.bump (0x2400 + f) 0x0B 1).bump 0x501A 1 1)) ∧
      (t.arrivalAct r = .discard false → exec (.fabricPacketArrival f) s = .next u) ∧
      (t.arrivalAct r = .ring → exec (.fabricPacketArrival f) s = .next
        { u with ring := { u.ring with deliver := u.ring.deliver ++ [{ r with since := u.howl }] } }) ∧
      (t.arrivalAct r = .mesh → exec (.fabricPacketArrival f) s = .next (toMesh f r.pkt u)) ∧
      (t.arrivalAct r = .forward → exec (.fabricPacketArrival f) s = .next (depart r u))) ∧
    (∀ r q, t.ring.deliver.find? (fun r => r.pkt.hdr.ptype = 0x0D && !r.pkt.hdr.toRing) = some r → t.ring.awaiting.find? (answers r.pkt.hdr) = some q →
      let u := { t with ring := { t.ring with deliver := t.ring.deliver.erase r, awaiting := t.ring.awaiting.erase q } }
      let o := bitsOf (nth 0 r.pkt.words 0) 0 8
      (o = 0 ∨ o = 0xFF → exec .deliveryAnswer s = .next u) ∧
      (o ≠ 0 → o ≠ 0xFF → exec .deliveryAnswer s = .next (drainRing (nackSender q o u)))) ∧
    (∀ q, s.ring.awaiting.find? (fun q => howlGe s.howl (q.sentAt + BitVec.ofNat 64 (2 ^ 18))) = some q →
      let u := ({ s with ring := { s.ring with awaiting := s.ring.awaiting.erase q } } : State).bump 0x501A 5 1
      (q.mirror = false → exec .replyTimeout s = .next (drainRing (nackSender q 0x07 u))) ∧
      (q.mirror = true → u.mirror.state = 1 → exec .replyTimeout s = .next { u with mirror := { u.mirror with state := 3 } })) ∧
    (∃ u, exec .agedDiscard s = .next u ∧
      u.ring = { t.ring with arrivals := u.ring.arrivals, requests := u.ring.requests, replies := u.ring.replies, closed := u.ring.closed } ∧
      u.cores = t.cores ∧ u.hbm = t.hbm ∧
      ∀ r ∈ u.ring.arrivals ++ u.ring.requests ++ u.ring.replies ++ u.ring.closed, r.aged t.howl = false) ∧
    (∀ b, s.job.purgeFrom = some b → ∃ u, exec .epochPurge s = .next u ∧ u.job = { s.job with purgeFrom := none } ∧
      ∀ r ∈ u.ring.arrivals ++ u.ring.requests ++ u.ring.replies ++ u.ring.closed ++ u.ring.collectives, r.pkt.hdr.epoch ≠ s.job.purgeEpoch.toNat)

/-- JOB_COMMAND 1 is a state error outside Idle and Run, busy while a job forms or a pack holds a program, and a range error with coordinates
outside the extent; otherwise the device forms a job. JOB_COMMAND 2 leaves it. No START within 2^26 beats fails the start. While forming,
a HELLO with another part, stepping or coordinates excludes its port, a JOIN of a child that has not joined is added, and START of the
parent sets the Howl and enters the job. -/
def Obligations.JobsStartJoinAndLeave : Prop :=
  ∀ (s : State),
    (Answering s →
      (s.power.dev ≠ .idle → s.power.dev ≠ .run → exec .jobStart s = .next { s with out := [7] }) ∧
      (s.power.dev = .idle ∨ s.power.dev = .run →
        (s.job.state = .forming ∨ (∃ p < 16, (s.pack p).prog.isSome = true) → exec .jobStart s = .next { s with out := [6] }) ∧
        (s.job.state ≠ .forming → (∀ p < 16, (s.pack p).prog = none ∧ (s.pack p).teardown = none) →
          (devIn s.job.extent.toNat s.job.coord.toNat = false → exec .jobStart s = .next { s with out := [4] }) ∧
          (devIn s.job.extent.toNat s.job.coord.toNat = true → s.jobPorts.any (fun f => (s.port f).state = .up) = true → ∃ t, exec .jobStart s = .next t ∧ t.job.state = .forming ∧ t.out = [0] ∧
              t.job.startedAt = s.howl ∧ t.job.parent = BitVec.ofNat 16 (parentOf s.job.extent.toNat s.device) ∧ t.cores = s.cores ∧ t.hbm = s.hbm))) ∧
      ∃ t, exec .jobLeave s = .next t ∧ t.job = { s.job with state := .none, slew := 0 } ∧
        t = { s with job := t.job, ports := t.ports, out := [0] } ∧
        ∀ f < 18, t.port f = { s.port f with state := if (s.port f).state = .member ∨ (s.port f).state = .muzzled then .up else (s.port f).state }) ∧
    (s.job.state = .forming → howlGe s.howl (s.job.startedAt + BitVec.ofNat 64 (2 ^ 26)) = true → exec .jobStartTimeout s = .next
      { s with job := { s.job with state := .startFailed, startResult := if s.job.startResult = 0 then 4 else s.job.startResult } }) ∧
    (∀ (f : PortId) h m t2 t, takeCtrl f 1 s = some (h, .hello m, t2, t) → t.job.state = .forming → t.jobPorts.contains f.val = true →
      let p := { t.port f with neighbour := h.src, rxEcho := t2, txEcho := h.tTx }
      let p := if m.txEcho ≠ 0 then { p with delay := delayOf h.tTx t2 m.txEcho m.rxEcho, helloCount := p.helloCount + 1 } else p
      let u := t.setPort f p
      let want := hopFrom t.job.extent.toNat t.device (portDir f)
      (m.part ≠ partCode ∨ m.stepping ≠ steppingCode → exec (.hello f) s = .next (jobAdvance (excludePort f 3 u))) ∧
      (m.part = partCode → m.stepping = steppingCode → h.src ≠ want ∨ m.expect ≠ t.device → exec (.hello f) s = .next (jobAdvance (excludePort f 2 u))) ∧
      (m.part = partCode → m.stepping = steppingCode → h.src = want → m.expect = t.device →
        exec (.hello f) s = .next (jobAdvance (if p.helloSent < 3 then sendHello f u else u)))) ∧
    (∀ (f : PortId) h latest count t2 t, takeCtrl f 7 s = some (h, .join latest count, t2, t) → t.job.state = .forming →
      (childrenOf t.job.extent.toNat t.device).contains h.src = true → tabGet false t.job.joins h.src = false →
      exec (.join f) s = .next (jobAdvance { t with job := { t.job with
        joins := tabSet false t.job.joins h.src true, joinLatest := epochMax t.job.joinLatest latest, joinCount := t.job.joinCount + count } })) ∧
    (∀ (f : PortId) h epoch v t2 t, takeCtrl f 8 s = some (h, .start epoch v, t2, t) → t.job.state = .forming → h.src = t.job.parent.toNat →
      t.isMaster = false → exec (.start f) s = .next (enterJob epoch
        { t with howl := BitVec.ofNat 64 ((v + BitVec.ofInt 64 (t.port f).delay + (howl256 t - t2)).toNat / 256) }))

/-- In a formed job a period that starts at a multiple of 2^16 beats ends the one before and sends a beacon on every port that beacons. A
BEACON of the job's epoch from a neighbour marks it heard, or muzzled where it says so, and the parent's gives the offset from the master.
A neighbour unheard for 8 periods is reported suspect, for 24 silent. A SUSPECT of the epoch is held and re-sent. Sixteen periods in
contact with no more than half its neighbours self-muzzle the device: its job Barks and JOB_STATE becomes 4. -/
def Obligations.LivenessOfNeighbours : Prop :=
  ∀ (s : State),
    (s.inJob = true → s.howl.toNat % 65536 = 0 → s.job.lastPeriod ≠ s.howl.toNat / 65536 + 1 →
      let t := if s.job.lastPeriod = 0 then s else endPeriod s
      let t := { t with job := { t.job with lastPeriod := s.howl.toNat / 65536 + 1 } }
      exec .beaconSend s = .next (t.beaconPorts.foldl (fun u f => sendBeacon s.heardDirs f u) t)) ∧
    (∀ (f : PortId) h m t2 t, takeCtrl f 2 s = some (h, .beacon m, t2, t) → t.inJob = true → h.epoch = t.job.epoch →
      (neighbourDevs t.job.extent.toNat t.device).contains h.src = true → m.muzzled = false → h.src ≠ t.job.parent.toNat →
      exec (.beacon f) s = .next ((t.setPort f { t.port f with
          rxEcho := t2, txEcho := h.tTx, heardThis := true
          delay := if m.txEcho ≠ 0 then delayOf h.tTx t2 m.txEcho m.rxEcho else (t.port f).delay }).modNb h.src (fun n =>
        { n with
          heardNow := true, missed := 0, live := .heard
          hearsUs := (usedDirs t.job.extent.toNat).any (fun d => hopFrom t.job.extent.toNat h.src d = t.device && bitAt m.heard d) }))) ∧
    (∀ o : Int, let off := BitVec.ofInt 32 o
      let t := { s with job := { s.job with
        offset := off, offsetPeak := peakOffset s.job.offsetPeak off, slew := boundSlew (Config.slewFor off) } }
      (o.natAbs ≤ 1024 → measureOffset o s = t) ∧ (1024 < o.natAbs → s.job.state = .running → measureOffset o s = jobFault 0xB0 0xFF t)) ∧
    (∀ d : Fin 65536, s.inJob = true → (neighbourDevs s.job.extent.toNat s.device).contains d.val = true → (s.nb d).live = .heard →
      (8 ≤ (s.nb d).missed → exec (.neighbourSuspect d) s = .next (raiseSuspect d 1 (s.modNb d (fun n => { n with live := .suspect })))) ∧
      (24 ≤ (s.nb d).missed → exec (.neighbourSilent d) s = .next (raiseSuspect d 2 (s.modNb d (fun n => { n with live := .silent }))))) ∧
    (∀ (f : PortId) h subject reporter st t2 t, takeCtrl f 4 s = some (h, .suspect subject reporter st, t2, t) → t.inJob = true →
      t.job.state ≠ .selfMuzzled → h.epoch = t.job.epoch → exec (.suspect f) s = .next (holdReport (some f.val) subject reporter st t)) ∧
    (s.job.state = .running ∨ s.job.state = .barked → 16 ≤ s.job.poorPeriods → ∃ t, exec .selfMuzzle s = .next t ∧ t.job.state = .selfMuzzled ∧
      t.gen.running = false ∧ bitAt t.faults.alerts 3 = true)

/-- In the running job a READY of a child and a GO of the parent for the device's next step are taken, and one for another step Barks with
0xB6. The first BARK of the epoch is acted on. Writing BARK_COMMAND 1 Barks with 0xB4 and 0 does nothing. BARK_N is released 2^10 beats
after it was driven, and sensed low it Barks with 0xB5 where it is watched. -/
def Obligations.GatesAndBarksOfAJob : Prop :=
  ∀ (s : State),
    (∀ (f : PortId) h step t2 t, takeCtrl f 5 s = some (h, .ready step, t2, t) → t.job.state = .running → h.epoch = t.job.epoch →
      (childrenOf t.job.extent.toNat t.device).contains h.src = true →
      (step = t.jobNextStep → exec (.ready f) s = .next (deviceReady { t with job := { t.job with readys := tabSet false t.job.readys h.src true } })) ∧
      (step ≠ t.jobNextStep → exec (.ready f) s = .next (jobFault 0xB6 0xFF t))) ∧
    (∀ (f : PortId) h step v t2 t, takeCtrl f 6 s = some (h, .go step v, t2, t) → t.job.state = .running → h.epoch = t.job.epoch →
      h.src = t.job.parent.toNat →
      (step = t.jobNextStep → exec (.go f) s = .next (deviceGo step v t)) ∧ (step ≠ t.jobNextStep → exec (.go f) s = .next (jobFault 0xB6 0xFF t))) ∧
    (∀ (f : PortId) h origin reason v t2 t, takeCtrl f 3 s = some (h, .bark origin reason v, t2, t) → t.inJob = true → t.job.state ≠ .selfMuzzled →
      h.epoch = t.job.epoch →
      (t.job.barkActed = true → exec (.bark f) s = .next (barkDuplicate t)) ∧
      (t.job.barkActed = false → ∃ u, exec (.bark f) s = .next u ∧ u.job.barkActed = true ∧ u.job.lastBark = lastBarkWord origin f reason ∧
        u.job.lastBarkTime = t.howl ∧ u.job.state = .barked ∧ u.job.purgeEpoch = t.job.epoch ∧ u.gen.running = false)) ∧
    (Answering s → exec (.barkCommand false) s = .next { s with out := [0] } ∧
      (s.inJob = true → exec (.barkCommand true) s = .next { jobFault 0xB4 0xFF s with out := [0] }) ∧
      (s.inJob = false → s.jobProgs false = [] → exec (.barkCommand true) s = .next
        { localBark 0xB4 (writeFaultRecord 0xB4 4 0 0 0 s) with out := [0] })) ∧
    (∀ t, s.job.barkLineUntil = some t →
      (howlGe s.howl t = true → exec .barkLineRelease s = .next { s with job := { s.job with barkLineUntil := none } }) ∧
      (howlGe s.howl t = false → exec .barkLineRelease s = .next s)) ∧
    (s.job.state = .running → s.barkLineEnabled = true → s.job.barkLineUntil = none → exec .barkLineSense s = .next (jobFault 0xB5 0xFE s)) ∧
    (s.barkLineEnabled = false → exec .barkLineSense s = .next s)

/-- MIRROR_COMMAND 1 is busy while a pass runs and a state error outside a running job or with a partner outside it; otherwise the next pass
starts and its OPEN is sent. MIRROR_COMMAND 2 ends a running pass with 3. The answer to COMMIT ends the pass with 2, and a refusal ends it
with 3. The partner accepts an OPEN of the source it accepts from another failure domain, and a write inside its window beyond the record;
it answers 0, or 1 where a test fails or the place is read-only. -/
def Obligations.MirrorPassesOnBothSides : Prop :=
  ∀ (s : State),
    (Answering s →
      (s.mirror.state = 1 → exec .mirrorStart s = .next { s with out := [6] } ∧
        exec .mirrorAbort s = .next { s with mirror := { s.mirror with state := 3 }, out := [0] }) ∧
      (s.mirror.state ≠ 1 → exec .mirrorAbort s = .next { s with out := [0] } ∧
        (s.job.state ≠ .running ∨ devIn s.job.extent.toNat s.mirror.partner.toNat = false → exec .mirrorStart s = .next { s with out := [7] }) ∧
        (s.job.state = .running → devIn s.job.extent.toNat s.mirror.partner.toNat = true →
          let t := { s with mirror := { s.mirror with
            state := 1, seq := s.mirror.seq + 1, phase := 0, range := 0, offset := 0, bytes := s.mirror.total } }
          exec .mirrorStart s = .next { sendMirror (mirrorPkt t 0 t.domain t.mirror.bytes []) t with out := [0] }))) ∧
    (∀ r, s.ring.deliver.find? (fun r => r.pkt.hdr.isMirrorAns) = some r → s.ring.awaiting.find? (fun q => q.mirror) = none →
      let t := { s with ring := { s.ring with deliver := s.ring.deliver.erase r } }
      (s.mirror.state ≠ 1 → exec .mirrorAnswer s = .next t) ∧
      (s.mirror.state = 1 → nth 0 r.pkt.words 2 = s.mirror.seq.setWidth 64 →
        (nth 0 r.pkt.words 1 ≠ 0 → exec .mirrorAnswer s = .next { t with mirror := { t.mirror with state := 3 } }) ∧
        (nth 0 r.pkt.words 1 = 0 → s.mirror.phase = 2 → exec .mirrorAnswer s = .next { t with mirror := { t.mirror with state := 2 } }))) ∧
    (∀ r op, s.ring.deliver.find? (fun r => r.pkt.hdr.isMirrorReq && nth 0 r.pkt.words 0 = BitVec.ofNat 64 op) = some r →
      let t := { s with ring := { s.ring with deliver := s.ring.deliver.erase r } }
      let base := s.mirror.acceptBase.toNat
      (op = 0 → s.mirrorFrom r = true → (nth 0 r.pkt.words 2).toNat ≠ s.domain → s.readOnly base 64 = true →
        exec .mirrorOpen s = .next (answerMirror r 1 t)) ∧
      (op = 0 → s.mirrorFrom r = true → (nth 0 r.pkt.words 2).toNat ≠ s.domain → s.readOnly base 64 = false → ∀ l u,
        ringWrite base (passRecord s r.pkt.hdr.srcDev (bitsOf (nth 0 r.pkt.words 1) 0 32) 1 (nth 0 r.pkt.words 3).toNat) t = (.done l, u) →
        exec .mirrorOpen s = .next (answerMirror r 0 { u with mirror := { u.mirror with
          inSeq := BitVec.ofNat 32 (bitsOf (nth 0 r.pkt.words 1) 0 32), inOpen := true, inBytes := (nth 0 r.pkt.words 3).toNat } })) ∧
      (op = 0 → s.mirrorFrom r = false ∨ (nth 0 r.pkt.words 2).toNat = s.domain → exec .mirrorOpen s = .next (answerMirror r 1 t)) ∧
      (op = 1 → s.mirrorOpenFor r = true → base + 64 ≤ (nth 0 r.pkt.words 2).toNat →
        (nth 0 r.pkt.words 2).toNat + (nth 0 r.pkt.words 3).toNat ≤ base + s.mirror.acceptLen.toNat →
        (nth 0 r.pkt.words 3).toNat ≤ r.pkt.payload.length → s.readOnly (nth 0 r.pkt.words 2).toNat (nth 0 r.pkt.words 3).toNat = false → ∀ l u,
        ringWrite (nth 0 r.pkt.words 2).toNat (r.pkt.payload.take (nth 0 r.pkt.words 3).toNat) t = (.done l, u) →
        exec .mirrorWrite s = .next (answerMirror r 0 u)) ∧
      (op = 1 → s.mirrorOpenFor r = false → exec .mirrorWrite s = .next (answerMirror r 1 t)) ∧
      (op = 2 → s.mirrorOpenFor r = true → s.readOnly base 64 = false → ∀ l u,
        ringWrite base (passRecord s r.pkt.hdr.srcDev s.mirror.inSeq.toNat 2 s.mirror.inBytes) t = (.done l, u) →
        exec .mirrorCommit s = .next (answerMirror r 0 { u with mirror := { u.mirror with inOpen := false } })) ∧
      (op = 2 → s.mirrorOpenFor r = false → exec .mirrorCommit s = .next (answerMirror r 1 t)))

/-- A pack that runs slices starts the slice of the first unit in turn that is ready, and the turn moves past it; where its clock or supply is
outside the limits the unit is passed over alone. The core of the unit is in the slice, with its save area written where the pack has a
program; every other core is unchanged. A slice that has run its beats ends with its finding, if that fits the unit; one without a finding
on a Retriever counts as done and moves the Retriever to its next slice. An abandoned slice is counted and can be taken again. -/
def Obligations.VetSlicesRunAndEnd : Prop :=
  ∀ (p : PackId) (s : State),
    (∀ u, s.vetRuns p = true →
      ((List.range 69).map (fun i => ((s.vetPack p).turn + i) % 69)).find? (s.unitReady p) = some u →
      exec (.vetSliceStart p false) s = .next (s.modVet p (fun v => { v with turn := (u + 1) % 69 })) ∧
      ∃ t, exec (.vetSliceStart p true) s = .next t ∧ t = { s with vet := t.vet, cores := t.cores } ∧
        t.vet = (s.modVet p (fun v => { v with
          active := some { unit := u, slice := s.sliceOf p u, startedAt := s.clock }, turn := (u + 1) % 69 })).vet ∧
        (∀ c, u < 68 → s.unitRouter p u = some c →
          t.core c = (if (s.progOf p).isSome then ({ s.core c with vetting := true } : Core).saveState else { s.core c with vetting := true })) ∧
        (∀ c, 68 ≤ u ∨ s.unitRouter p u ≠ some c → t.core c = s.core c)) ∧
    (∀ a f, (s.vetPack p).active = some a → a.startedAt + sliceBeats (s.pack p).freq ≤ s.clock → f.fits a.unit a.slice = true →
      s.marched p f = true → exec (.vetSliceResult p f) s = .next (sliceResult p a f s)) ∧
    (∀ a, (s.vetPack p).active = some a → a.unit = 68 → a.startedAt + sliceBeats (s.pack p).freq ≤ s.clock →
      s.stat (0x1800 + p) 0x43 + 1 < 2 ^ 64 - 1 →
      ∃ t, exec (.vetSliceResult p .pass) s = .next t ∧ (t.vetPack p).active = none ∧ (t.vetPack p).retrSlice = (a.slice + 1) % 64 ∧
        t.stat (0x1800 + p) 0x43 = s.stat (0x1800 + p) 0x43 + 1 ∧ t.hbm = s.hbm ∧ t.packs = s.packs ∧ t.progs = s.progs ∧ t.faults.log = s.faults.log) ∧
    (∀ a, (s.vetPack p).active = some a → exec (.vetSliceAbandon p) s = .next (abandonSlice p s) ∧
      (a.unit = 68 → s.stat (0x1800 + p) 0x44 + 1 < 2 ^ 64 - 1 → (abandonSlice p s).vet = (s.modVet p (fun v => { v with active := none })).vet ∧
        (abandonSlice p s).stat (0x1800 + p) 0x44 = s.stat (0x1800 + p) 0x44 + 1))

/-- At the end of the drain window every core of the program's packs loses the work of the step and every Retriever what it holds of it, used
cores that keep their host take their launch snapshot back, and the shift follows where a core changes host, else the replay. The shift
moves each such core to its new host with its ledgers, or stops the program where a snapshot or a ledger could not be read. The reload
installs the cores that have moved, their routers being drained, and lets every participant post. A REWIND of the running job for the step
in progress starts order 1. -/
def Obligations.ReplacementDrainsShiftsAndReloads : Prop :=
  ∀ (p : PackId) (s : State) (r : Replace), s.replAt p = some r →
    ((s.prog r.prog).barked = false →
      (r.phase = .drain → howlGe s.howl (r.failAt + BitVec.ofNat 64 drainBeats) = true →
        let t := ((s.progPacks r.prog).flatMap packCores).foldl (fun s c => s.modCore c Core.clearStep) s
        let t := ((s.usedOf r.prog).filter (fun c => !(s.shiftedOf r).contains c)).foldl (fun s c => s.modCore c (fun k => k.restore (s.snapOf c))) t
        let t := (s.progPacks r.prog).foldl (fun s q => s.modPack q (fun k => { k with
          posted := false, goAt := none, retr := k.retr.clearStep (bitsOf r.step 0 16) })) t
        (s.shiftedOf r = [] → exec (.replacementDrainEnd p) s = .next (replaceReady r.prog t)) ∧
        (s.shiftedOf r ≠ [] → exec (.replacementDrainEnd p) s = .next (setPhase r.prog .shift t))) ∧
      (r.phase = .shift →
        let rd := readMoved (s.shiftedOf r) s
        exec (.replacementShiftDone p false) s = .next (abandonReplace r p s) ∧
        (rd.2.1 = false → exec (.replacementShiftDone p true) s = .next (abandonReplace r p rd.2.2)) ∧
        (rd.2.1 = true → exec (.replacementShiftDone p true) s = .next (
          let u := rd.1.foldl (fun t e => t.setCore e.1 (rd.2.2.movedCore r e.2 e.1)) rd.2.2
          { u with vet := { u.vet with repl := u.vet.repl.map (fun x => if x.prog = r.prog then
            { r with old := rd.2.2.hostTab r.prog, phase := .reload, moved := (r.moved ++ s.shiftedOf r).eraseDups } else x) } }))) ∧
      (r.phase = .reload → r.moved.all (fun c => (s.core c).routerEmpty) = true → exec (.replacementReloadDone p) s = .next (
        let m := s.image (s.prog r.prog).imageAddr r.prog
        replaceReady r.prog ((m.cores.filter (fun x => r.moved.contains x.core)).foldl (fun s x =>
          (readWeights m.hdr.base x s).2.modCore x.core (reloadCore x (readWeights m.hdr.base x s).1)) s)))) ∧
    ∀ (f : PortId) h origin step t2 t, takeCtrl f 9 s = some (h, .rewind origin step, t2, t) → t.job.state = .running → h.epoch = t.job.epoch →
      origin ≠ t.device → ∀ g gs, t.multiProgs.filter (fun g => t.stepOf g = step && (t.prog g).launched && (t.replOf g).isNone) = g :: gs →
      exec (.rewind f) s = .next ((g :: gs).foldl (fun u g => replaceHold g 0 step (u.hostTab g) u) (floodCtrl (some f.val) (.rewind origin step)
        { t with job := { t.job with flooded := tabSet false t.job.flooded (rewindKey origin step) true } }))

/-- A maintenance command is refused as busy while a pack it concerns holds a program or a load is checking or installing, and while an action
runs; fusing is also a state error below 40 V or with HOLDUP_OK low; otherwise MAINT_STATE becomes 1. A change of the muzzle map by a
retest adds 1 to MUZZLE_MAP_SEQ. An action that could not be carried out ends in state 4. Fusing marks every valid soft repair entry. A
retest clears the muzzle of every core that passed, except those muzzled for a row no spare absorbs, and a retest of packs releases those
that passed. -/
def Obligations.MaintenanceActions : Prop :=
  ∀ (s : State), let cmd (a : Nat) : Instr := if a = 1 then .fuseRepairs else if a = 2 then .retestMuzzled else .retestSafePacks
    (Answering s → ∀ a, 1 ≤ a → a ≤ 3 →
      (s.vet.maintState = 1 → exec (cmd a) s = .next { s with out := [6] }) ∧
      (s.vet.maintState ≠ 1 → (∃ p ∈ s.maintPacks a, (s.pack p).prog.isSome = true) ∨ s.load.state = .checking ∨ s.load.state = .installing →
        exec (cmd a) s = .next { s with vet := { s.vet with maintState := 3 }, out := [6] }) ∧
      (s.maintBusy a = false → a = 1 → f32Lt s.env.now.vin f40V = true ∨ s.env.holdupOk = false →
        exec (cmd a) s = .next { s with vet := { s.vet with maintState := 3 }, out := [7] }) ∧
      (s.maintBusy a = false → (a = 1 → f32Lt s.env.now.vin f40V = false ∧ s.env.holdupOk = true) →
        exec (cmd a) s = .next { s with vet := { s.vet with maintState := 1, maintAction := a }, out := [0] })) ∧
    (s.vet.maintState = 1 → ∀ passed : List (Fin 1088),
      exec (.maintDone false passed) s = .next { s with vet := { s.vet with maintState := 4 } } ∧
      (s.vet.maintAction = 1 → exec (.maintDone true passed) s = .next
        { s with vet := { s.vet with maintState := 2, phys := s.vet.phys.map (fun e => (e.1, e.2.fuse)) } }) ∧
      (s.vet.maintAction = 2 → ∃ t, exec (.maintDone true passed) s = .next t ∧ t.vet.maintState = 2 ∧
        (∀ l, l = (List.range 1088).filter (fun n => (s.phys n).muzzled && (s.phys n).reason ≠ 0xC8 && (passed.map Fin.val).contains n) →
          t.vet.maintCleared = l.length ∧ t.vet.mapSeq = (if l = [] then s.vet.mapSeq else s.vet.mapSeq + 1)) ∧
        ∀ n < 1088, (t.phys n).muzzled = ((s.phys n).muzzled && !((s.phys n).reason ≠ 0xC8 && (passed.map Fin.val).contains n))) ∧
      (s.vet.maintAction = 3 → ∃ t, exec (.maintDone true passed) s = .next t ∧ t.vet.maintState = 2 ∧
        ∀ p < 16, (t.vetPack p).held = ((s.vetPack p).held && !(passed.map Fin.val).contains p)))

/-- In a watched pack, once a window has passed without progress, counted at the earliest from when the pack came under watch: a parked stream
of an open step is fault 0xD3, a core with work is 0xD4 and resets its busy engines, a held output is 0xD5 and resets the packs at both
ends, a pack in an open step or with a held completion is 0xD6. A reset past its bound leads to the next rung. Before the bound nothing
happens. -/
def Obligations.WatchdogsActAfterTheirWindow : Prop :=
  ∀ (s : State),
    (∀ (c : CoreId) (i : StreamId), let t := (s.core c).stream i
      s.watched (packOf c) = true → s.stepOpen (packOf c) = true → t.st = .parkedCollar ∨ t.st = .parkedBowl ∨ t.st = .parkedClaim →
      (max t.lastIssue (s.pack (packOf c)).watchFrom + s.window 1 ≤ s.clock → exec (.streamHang c i) s = .next (hang 0xD3 [packOf c] c i s)) ∧
      (s.clock < max t.lastIssue (s.pack (packOf c)).watchFrom + s.window 1 → exec (.streamHang c i) s = .next s)) ∧
    (∀ (c : CoreId), s.watched (packOf c) = true → (s.core c).ops ≠ [] ∨ s.readyStalled c = true →
      s.coreQuiet c + s.window 2 ≤ s.clock →
      exec (.coreHang c) s = .next (Engine.all.foldl (fun t e => if (t.core c).engineBusy e then startEngineReset c e 0xD4 s.faults.seq.toNat t else t)
        (hang 0xD4 [packOf c] c 0 s))) ∧
    (∀ (c : CoreId) (d : Dir) b, s.outputHeldSince c d = some b → s.watched (packOf c) = true → (s.window 3 : Int) ≤ howlDiff s.howl b →
      max ((s.core c).advancedAt (0x65 + d.code)) (s.pack (packOf c)).watchFrom + s.window 3 ≤ s.clock →
      exec (.linkHang c d) s = .next ((linkPacks c d).foldl (fun t p => orderReset 0xD5 s.faults.seq.toNat p t) (hang 0xD5 (linkPacks c d) c 0 s))) ∧
    (∀ (p : PackId), s.watched p = true → s.stepOpen p = true ∨ (s.pack p).retr.ready ≠ [] →
      (max (s.pack p).lastProg (s.pack p).watchFrom + s.window 4 ≤ s.clock → exec (.packHang p) s = .next (hang 0xD6 [p] 0 0 s)) ∧
      (s.clock < max (s.pack p).lastProg (s.pack p).watchFrom + s.window 4 → exec (.packHang p) s = .next s)) ∧
    (∀ (c : CoreId) (e : Engine), tabGet false (s.core c).engReset e.code = true → tabGet 0 (s.core c).engAt e.code + msBeats ≤ s.clock →
      exec (.rungTimeout (.engine c e)) s = .next (startCoreReset c (s.core c).rstRecord (escalate (s.core c).rstRecord 2 (packOf c) c s))) ∧
    (∀ (p : PackId) b, (s.pack p).resetStarted = some b →
      (b + 50 * msBeats ≤ s.clock → exec (.rungTimeout (.pack p)) s = .next
        (startWarm 0xD7 (s.pack p).resetRecord true (escalate (s.pack p).resetRecord 4 p 0 s))) ∧
      (s.clock < b + 50 * msBeats → exec (.rungTimeout (.pack p)) s = .next s)) ∧
    (s.faults.recovery = 1 → s.faults.recoveryAt + 500 * msBeats ≤ s.clock → exec (.rungTimeout .warm) s = .next
      (startCold 0xD7 s.faults.recoveryRecord true (escalate s.faults.recoveryRecord 5 0 0 s))) ∧
    (s.faults.recovery = 2 → s.faults.recoveryAt + 9100 * msBeats ≤ s.clock → exec (.rungTimeout .cold) s = .next
      (enterSafe 5 (escalate s.faults.recoveryRecord 5 0 0 s)))

/-- UNLOAD_PACKS needs a program on every pack it names and Barks their jobs. At the drain window's end, or once every router is drained,
every pack still draining of the program is drained. The scratchpad part of zeroise ends on a pack drained and past its dump and reset,
its routers being empty; the HBM part for every pack of the program; quarantine 2^14 beats after the drain, or 2^18. SNIFF_COMMAND is busy
while a dump runs and starts one of the packs named while stack N0 serves. -/
def Obligations.TeardownAndDumps : Prop :=
  ∀ (s : State),
    (Answering s → ∀ m : BitVec 16,
      ((packsIn m.toNat).any (fun p => (s.progOf p).isNone) = true → exec (.unloadPacks m) s = .next { s with out := [7] }) ∧
      ((packsIn m.toNat).any (fun p => (s.progOf p).isNone) = false →
        exec (.unloadPacks m) s = .next { commandStop (packsIn m.toNat) s with out := [0] }) ∧
      (s.faults.dumps ≠ [] → exec (.sniffCommand m) s = .next { s with out := [6] }) ∧
      (s.faults.dumps = [] → m ≠ 0 → (s.stack 0).state = .serving → exec (.sniffCommand m) s = .next { s with
        faults := { s.faults with
          sniffState := 1, sniffSeq := s.faults.sniffSeq + 1
          dumps := [{ packs := m.toNat, device := false, seq := s.faults.sniffSeq + 1, startedAt := s.clock, howl := s.howl, reason := 0xDA }] }
        out := [0] }) ∧
      (s.faults.dumps = [] → m ≠ 0 → (s.stack 0).state ≠ .serving →
        exec (.sniffCommand m) s = .next { s with faults := { s.faults with sniffState := 4 }, out := [0] })) ∧
    (∀ (p : PackId) (t : Teardown), (s.pack p).teardown = some t →
      (∀ u, u = (s.drainingPacks t.prog).foldl (fun s p => match (s.pack p).teardown with | some t => drainPack t p s | none => s) s →
        t.drained = false → howlGe s.howl (t.startedAt + BitVec.ofNat 64 drainBeats) = true →
        ((s.drainingPacks t.prog).filter (fun p =>
          match (u.pack p).teardown with | some t => t.reset && (u.pack p).resetStarted.isNone | none => false)) = [] →
        exec (.teardownDrainEnd p) s = .next u) ∧
      (t.drained = true → t.zeroScratchOpen = true → t.dumpOpen = false → t.resetOpen = false →
        (s.usedCores p).all (fun c => (s.core c).routerEmpty) = true → exec (.zeroiseDone p false) s = .next
        (finishTeardown p (modTeardown p (fun t => { t with zeroScratchOpen := false })
          ((s.usedCores p).foldl (fun s c => s.modCore c Core.zeroiseProg) s)))) ∧
      (t.drained = true → t.zeroHbmOpen = true → exec (.zeroiseDone p true) s = .next (
        let u := (s.prog t.prog).ctxList.foldl zeroCtx s
        let packs := (List.range 16).filter (fun q => match (u.pack q).teardown with | some x => x.prog = t.prog | none => false)
        packs.foldl (fun s q => finishTeardown q s) (packs.foldl (fun s q => modTeardown q (fun t => { t with zeroHbmOpen := false }) s) u))) ∧
      (t.drained = true → t.quarantineOpen = true →
        howlGe s.howl (t.drainEnd + BitVec.ofNat 64 (if (s.prog t.prog).multi then 2 ^ 18 else 2 ^ 14)) = true →
        exec (.quarantineEnd p) s = .next (finishTeardown p (modTeardown p (fun t => { t with quarantineOpen := false }) s)))) ∧
    (∀ (seq : BitVec 32) d, s.dump seq = some d →
      exec (.sniffDumpDone seq) s = .next (endDump d 2 (d.cores s) s) ∧
      (∀ written : List CoreId, d.startedAt + (if d.device then 200 else 20) * msBeats ≤ s.clock →
        exec (.sniffDumpTimeout seq written) s = .next (endDump d 3 ((d.cores s).filter (fun c => (written.map Fin.val).contains c)) s)))

/-- An engine or core reset that ends sets LAST_RESET and counts; after a core reset every stream is Stopped. PACK_RESET of an unused pack
holds its units in reset. A pack reset that ends changes request tags' generation and leaves the pack Empty, or held safe. DEVICE_RESET is
a state error in Safe, busy during a start-up, and for a warm reset a state error in Service; otherwise it begins. Warm recovery ends in
Idle with its milliseconds recorded. -/
def Obligations.ResetsOfUnitsAndDevice : Prop :=
  ∀ (s : State),
    (∀ (c : CoreId) (e : Engine), tabGet false (s.core c).engReset e.code = true → s.stat (0x1000 + c) 0x0A + 1 < 2 ^ 64 - 1 →
      ∃ t, exec (.engineResetDone c e) s = .next t ∧ tabGet false (t.core c).engReset e.code = false ∧
        t.core c = { s.core c with engReset := (t.core c).engReset, engAt := (t.core c).engAt } ∧
        t.faults.lastReset = BitVec.ofNat 32 (at_ 29 1 + at_ 16 ((s.core c).rstCause % 256) + c) ∧
        t.stat (0x1000 + c) 0x0A = s.stat (0x1000 + c) 0x0A + 1 ∧ ∀ d, d ≠ c.val → t.core d = s.core d) ∧
    (∀ (c : CoreId) b, (s.core c).coreResetAt = some b → ∃ t, exec (.coreResetDone c) s = .next t ∧ (t.core c).coreResetAt = none ∧
      (t.core c).ops = [] ∧ (t.core c).mesh = [] ∧ (t.core c).reqs = [] ∧ (t.core c).inReset = (s.vetPack (packOf c)).held ∧
      (t.core c).spad = (s.core c).spad ∧ (∀ i < 8, ((t.core c).stream i).st = .stopped ∨ ((t.core c).stream i).st = .uninstalled) ∧
      ∀ d, d ≠ c.val → t.core d = s.core d) ∧
    (∀ (p : PackId), Answering s → (s.pack p).prog = none → (s.pack p).teardown = none → (s.pack p).resetStarted = none →
      exec (.packReset (BitVec.ofNat 16 (2 ^ p.val))) s = .next { startPackReset p 0xDA noRecord false s with out := [0] }) ∧
    (∀ (p : PackId) b, (s.pack p).resetStarted = some b → (s.pack p).prog = none → (s.pack p).teardown = none →
      ∃ t, exec (.packResetDone p) s = .next t ∧ (t.pack p).state = (if (s.vetPack p).held then .heldSafe else .empty) ∧
        (t.pack p).resetStarted = none ∧ (∀ c ∈ packCores p, t.core c = (s.core c).released (s.vetPack p).held) ∧
        (t.pack p).retr.tagGen = bumpTags 8 (s.pack p).retr.tagGen ∧ t.hbm = s.hbm) ∧
    (Answering s →
      (s.power.dev = .safe → exec .warmReset s = .next { s with out := [7] } ∧ exec .coldReset s = .next { s with out := [7] }) ∧
      (s.power.dev ≠ .safe → s.power.dev ≠ .off →
        (s.power.starting.isSome = true → exec .warmReset s = .next { s with out := [6] } ∧ exec .coldReset s = .next { s with out := [6] }) ∧
        (s.power.starting = none → (s.power.dev = .service → exec .warmReset s = .next { s with out := [7] }) ∧
          (s.power.dev ≠ .service → exec .warmReset s = .next { startWarm 0xDA noRecord false s with out := [0] }) ∧
          exec .coldReset s = .next { startCold 0xDA noRecord false s with out := [0] }))) ∧
    (∀ hbmStacks ports found, s.power.starting = some .warm → s.faults.dumps = [] → ∃ t, exec (.warmRecoveryDone hbmStacks ports found) s = .next t ∧
      t.power.dev = .idle ∧ t.power.starting = none ∧ t.power.ready = true ∧ t.faults.recovery = 0 ∧
      t.faults.warmMs = (s.clock - s.faults.recoveryAt) / msBeats)

/-- ALERT_ACK leaves the alert bits that it does not name and no others; with no change nothing else happens. Writing 1 to STATS_CLEAR sets
every statistics counter to 0, TOKENS_OUT of the owned contexts with them, and clears the saturation record; without such a context
nothing else changes. A statistics counter at its largest value stays there, the first to saturate is recorded and the alert of bit 7 is
set. -/
def Obligations.AlertsAndStatisticsAreCleared : Prop :=
  ∀ (s : State),
    (Answering s → ∀ m : BitVec 16,
      (s.stat 0x501E 6 + 1 < 2 ^ 64 - 1 → ∃ t, exec (.alertAck m) s = .next t ∧
        t.faults = { s.faults with alerts := s.faults.alerts &&& ~~~m } ∧ t.out = [0] ∧
        t = { s with faults := t.faults, mgmt := t.mgmt, stats := t.stats, out := [0] }) ∧
      (s.faults.alerts &&& m = 0 → exec (.alertAck m) s = .next { s with out := [0] }) ∧
      (∃ t, exec (.statsClear true) s = .next t ∧ t = { clearCounters s with out := [0] } ∧
        (∀ idx sub, t.stat idx sub = 0) ∧ t.statsSat = false ∧ t.statsFirst = 0) ∧
      ((∀ e ∈ s.ctxs, e.2.owner = none) →
        exec (.statsClear true) s = .next { s with stats := [], statsSat := false, statsFirst := 0, out := [0] }) ∧
      exec (.statsClear false) s = .next { s with out := [0] }) ∧
    ∀ idx sub n, 0 < n → 2 ^ 64 - 1 ≤ s.stat idx sub + n → let t := s.bump idx sub n
      t.stat idx sub = 2 ^ 64 - 1 ∧ t.statsSat = true ∧ bitAt t.faults.alerts 7 = true ∧
      t.statsFirst = (if s.statsSat then s.statsFirst else BitVec.ofNat 32 (statKey idx sub))

/-- In Off, POWER_ON begins start-up at step 0 in Service. POWER_OFF loses everything but management flash: no program, core, HBM byte or
session stays, while the job epoch, the owner, the firmware slots and the calibration record do. MOD_RESET_ASSERT does the same and begins
start-up. A start-up step that completes leads to the next; without firmware that verifies the boot ROM's recovery service stays, in which
no step completes; the last step reports Idle and Ready. -/
def Obligations.PowerOnOffAndStartup : Prop :=
  ∀ (s : State),
    (s.power.dev = .off → exec .powerOn s = .next
      { s with power := { s.power with dev := .service, starting := some .power, step := 0, doing := 0, vinAt := s.clock } } ∧
      exec .powerOff s = .next s ∧ exec .modResetAssert s = .next s) ∧
    (s.power.dev ≠ .off → exec .powerOn s = .next s ∧
      (∃ t, exec .powerOff s = .next t ∧ t.power.dev = .off ∧ t.power.booted = false ∧ t.power.rails = false ∧ t.cores = [] ∧ t.packs = [] ∧
        t.progs = [] ∧ t.hbm = [] ∧ t.ctxs = [] ∧ t.sec.sessions = [] ∧ t.sec.debug = false ∧ t.stats = [] ∧ t.pending = s.pending ∧
        t.job.epoch = s.job.epoch ∧ t.sec.owner = s.sec.owner ∧ t.upd.comps = s.upd.comps ∧ t.calib.flash = s.calib.flash) ∧
      ∃ t, exec .powerOff s = .next t ∧ exec .modResetAssert s = .next (powerUp t)) ∧
    ∀ (f : StartFindings) (k : StartKind), s.power.starting = some k → k ≠ .warm →
      (s.power.romService = true → exec (.startupStepDone f) s = .next s) ∧
      (s.power.romService = false →
      (s.power.doing = 0 → exec (.startupStepDone f) s = .next { s with power := { s.power with step := 0, doing := 1, stalled := false } }) ∧
      (∀ u, s.power.doing = 1 → bootRom f.badSlots s = (true, u) → exec (.startupStepDone f) s = .next (stepDone 1 (bootController f.nodeId u))) ∧
      (∀ u, s.power.doing = 1 → bootRom f.badSlots s = (false, u) →
        exec (.startupStepDone f) s = .next { u with power := { u.power with booted := true, romService := true } }) ∧
      (s.power.doing = 2 → exec (.startupStepDone f) s = .next (stepDone 2 (loadCal s))) ∧
      (s.power.doing = 3 → verifyPacks f.badSlots 2 s = none → exec (.startupStepDone f) s = .next { s with power := { s.power with stalled := true } }) ∧
      (∀ u v, s.power.doing = 3 → verifyPacks f.badSlots 2 s = some u → verifyPacks f.badSlots 5 u = some v →
        exec (.startupStepDone f) s = .next (stepDone 3 (startRails v))) ∧
      (s.power.doing = 4 → exec (.startupStepDone f) s = .next (startTraining (stepDone 4 s))) ∧
      (∀ u v, s.power.doing = 5 → verifyActive f.badSlots 3 s = some u → verifyActive f.badSlots 4 u = some v →
        exec (.startupStepDone f) s = .next (stepDone 5 (failPorts f.ports (trainStacks f.hbmStacks v)))) ∧
      (s.power.doing = 8 → s.power.mapChanged = false → exec (.startupStepDone f) s = .next
        { s with power := { s.power with dev := .idle, starting := none, step := 8, ready := true }, faults := { s.faults with recovery := 0 } }))

/-- STATE_COMMAND 1 in Idle, with nothing running that forbids it and no job, leads to Service at rest with the rails off; in Run it is a
state error. STATE_COMMAND 2 in Service at rest begins start-up and in Idle or Run changes nothing. A cause of Safe leads to Safe with the
valve open and every job Barked; the rails go off 2^16 beats later, at once for a falling VIN, and the valve is held for 60 s. When
HOLDUP_OK falls on a booted module every pack is clocked down and the alert of bit 9 is set; a per-pack commit in progress stays staged
with result 0x14. When it has been high again the module takes flash writes again and a trial's time counts on. -/
def Obligations.ServiceIdleSafeAndHoldup : Prop :=
  ∀ (s : State),
    (Answering s →
      (s.power.dev = .run → exec .stateService s = .next { s with out := [7] } ∧ exec .stateIdle s = .next { s with out := [0] }) ∧
      (s.power.dev = .idle → exec .stateIdle s = .next { s with out := [0] } ∧
        (s.shutdownBusy = true → exec .stateService s = .next { s with out := [6] }) ∧
        (s.shutdownBusy = false → s.job.state = .none → exec .stateService s = .next { toService (tapYield s) with out := [0] } ∧
          ∃ t, exec .stateService s = .next t ∧ t.power.dev = .service ∧ t.power.rails = false ∧ t.power.starting = none ∧ t.power.step = 1 ∧
            t.hbm = [] ∧ t.progs = [] ∧ t.stats = s.stats ∧ t.out = [0])) ∧
      (s.power.dev = .service → s.power.starting = none →
        (s.safeCausePersists = true → exec .stateIdle s = .next { s with out := [7] }) ∧
        (s.safeCausePersists = false → exec .stateIdle s = .next
          { tapYield s with power := { s.power with starting := some .cold, step := 1, doing := 2, stalled := false }, out := [0] })) ∧
      (s.power.dev = .safe → exec .stateIdle s = .next { s with out := [7] } ∧
        (s.mayLeaveSafe = false → exec .stateService s = .next { s with out := [7] }) ∧
        (s.mayLeaveSafe = true → exec .stateService s = .next { tapYield (toService s) with out := [0] }))) ∧
    (∀ cause : Fin 6, cause ≠ 0 → s.power.dev ≠ .off → s.power.dev ≠ .safe → s.power.booted = true →
      exec (.safeEntry cause) s = .next (enterSafe cause s) ∧
      ∃ t, exec (.safeEntry cause) s = .next t ∧ t.power.dev = .safe ∧ t.power.safeCause = cause ∧ t.power.safeAt = s.clock ∧
        t.power.valveHold = true ∧ t.power.ready = false ∧ t.env.valve = 0x42C80000 ∧ (cause = 3 → t.power.rails = false ∧ t.hbm = [])) ∧
    (s.power.dev = .safe → s.power.railsDue = true →
      (s.power.safeAt + 2 ^ 16 ≤ s.clock → exec .safeRailsOff s = .next (railsOff s)) ∧
      (s.clock < s.power.safeAt + 2 ^ 16 → exec .safeRailsOff s = .next s)) ∧
    (s.power.valveHold = true → s.power.safeAt + 60 * secBeats ≤ s.clock →
      exec .valveHoldEnd s = .next { s with power := { s.power with valveHold := false } }) ∧
    (s.env.holdupOk = true → s.power.booted = true → s.upd.moving = none → ¬ (s.vet.maintState = 1 ∧ s.vet.maintAction = 1) →
      exec .holdupLoss s = .next ((clockDown (List.range 16) { s with env := { s.env with holdupOk := false, holdupSince := s.clock } }).alert 9)) ∧
    (∀ p, s.env.holdupOk = true → s.power.booted = true → s.upd.moving = some p →
      ∃ t, exec .holdupLoss s = .next t ∧ t.upd.state = 4 ∧ t.upd.result = 0x14 ∧ t.upd.moving = none ∧ t.upd.todo = [] ∧
        t.env.holdupOk = false ∧ bitAt t.faults.alerts 9 = true) ∧
    (s.env.holdupOk = true → s.power.booted = false → exec .holdupLoss s = .next
      { s with env := { s.env with holdupOk := false, holdupSince := s.clock } }) ∧
    (s.env.holdupOk = false → exec .holdupLoss s = .next s ∧ exec .holdupRestore s = .next { s with
      env := { s.env with holdupOk := true }
      upd := { s.upd with trialSince := s.upd.trialSince + (s.clock - s.env.holdupSince) } }) ∧
    (s.env.holdupOk = true → exec .holdupRestore s = .next s)

/-- A function that exists enters D3hot and returns with every register kept, sending the pending messages that are not masked. A reset of a
VF stops its pack's program and clears its registers; a reset of PF0 does so for every pack. VF Enable takes the value written. A
retrained link takes a rate within the limit and is counted. A vector unmasked in a served BAR holds the address and data given, and its
pending message is sent. -/
def Obligations.FunctionsResetSleepAndSignal : Prop :=
  ∀ (s : State),
    (∀ fn : Fin 17, s.fnExists fn = true →
      exec (.d3hotEntry fn) s = .next (s.modFn fn (fun f => { f with d3hot := true })) ∧
      (∃ t, exec (.d0Return fn) s = .next t ∧ t = { s with host := t.host } ∧ (t.fn fn).d3hot = false ∧ (t.fn fn).msix = (s.fn fn).msix ∧
        (∀ v, tabGet false (s.fn fn).pba v = true → (s.fn fn).msixOn = true → (tabGet MsixVec.reset (s.fn fn).msix v).masked = false →
          (fn.val, v) ∈ t.host.sent ∧ tabGet false (t.fn fn).pba v = false) ∧ ∀ g, g ≠ fn.val → t.fn g = s.fn g)) ∧
    (∀ vf : VfId, s.fnExists (vf + 1) = true → exec (.vfFlr vf) s = .next
      (clearPackRegs (clearFn (commandStop (s.stoppable [vf.val]) s) (vf + 1)) vf)) ∧
    (s.power.booted = true →
      (∃ t, exec .pfReset s = .next t ∧ t.host.vfEnable = false ∧ t.host.mbBusy = false ∧ t.host.mbDone = false ∧ t.host.mbReq = [] ∧
        (∀ fn < 17, t.fn fn = HostFn.reset) ∧ t.mgmt.queue = s.mgmt.queue) ∧
      (∀ v : Bool, exec (.vfEnableWrite v) s = .next { s with host := { s.host with vfEnable := v } }) ∧
      (∀ rate width flit, s.stat 0x501D 7 + 1 < 2 ^ 64 - 1 → ∃ t, exec (.linkRecovery rate width flit) s = .next t ∧
        t.host = { s.host with rate := min rate.val (s.setting 0x0240 4 7), width := width,
                               flitMode := flit || decide (6 ≤ min rate.val (s.setting 0x0240 4 7)) } ∧
        t.stat 0x501D 7 = s.stat 0x501D 7 + 1 ∧ t = { s with host := t.host, stats := t.stats })) ∧
    (∀ (fn : Fin 17) (v : Fin 528) (on : Bool) (a : Word) (d : BitVec 32) (ide : Bool), BarOpen fn ide s → s.fnExists fn = true →
      (fn ≠ 0 → v.val < 33) → exec (.msixVectorUnmask fn v on a d ide) s = .next (sendPending fn (s.modFn fn (fun f => { f with
        msixOn := on, msix := tabSet MsixVec.reset f.msix v { addr := a, data := d, masked := false } })) v))

/-- A read that reaches HBM completes successfully with its bytes, and one a rule refuses completes with Unsupported Request or Completer
Abort and is counted; a refused write is discarded and counted; one that meets a recalibrating stack waits at its ring port. A function
whose BARs refuse the request answers Unsupported Request. A descriptor written to a window that the function owns queues its send, and
one that R510 discards sets the overflow flag. -/
def Obligations.HostReadsAndWritesOfHbm : Prop :=
  ∀ (fn : Fin 17) (off : BitVec 40) (ide : Bool) (s : State), s.power.booted = true → s.fnExists fn = true →
    (∀ n : Fin 4097,
      (s.barRefused fn ide = true → exec (.bar2Read fn off n ide) s = .next { s.bump 0x501D 1 1 with out := [1] }) ∧
      (s.barRefused fn ide = false →
        (∀ l t, bar2Read fn off.toNat n s = (.done l, t) → exec (.bar2Read fn off n ide) s = .next { t with out := 0 :: l }) ∧
        (∀ rule t, bar2Read fn off.toNat n s = (.refused rule, t) →
          exec (.bar2Read fn off n ide) s = .next { t.bump 0x501D 1 1 with out := [if rule ≤ 2 then 1 else 4] }) ∧
        (∀ t, bar2Read fn off.toNat n s = (.held, t) → exec (.bar2Read fn off n ide) s = .next { t with heldRing := t.heldRing ++ [.bar2Read fn off n ide] }) ∧
        (s.bar2Outside fn off.toNat n = true → bar2Read fn off.toNat n s = (.refused 1, s)))) ∧
    (∀ d : List Byte,
      (s.barRefused fn ide = true → exec (.bar2Write fn off d ide) s = .next (s.bump 0x501D 1 1)) ∧
      (s.barRefused fn ide = false →
        (∀ l t, bar2Write fn off.toNat d s = (.done l, t) → exec (.bar2Write fn off d ide) s = .next t) ∧
        (∀ rule t, bar2Write fn off.toNat d s = (.refused rule, t) → exec (.bar2Write fn off d ide) s = .next (t.bump 0x501D 1 1)) ∧
        (∀ t, bar2Write fn off.toNat d s = (.held, t) → exec (.bar2Write fn off d ide) s = .next { t with heldRing := t.heldRing ++ [.bar2Write fn off d ide] }) ∧
        (s.bar2Outside fn off.toNat d.length = false → s.hostReadOnly off.toNat d.length = true → bar2Write fn off.toNat d s = (.refused 3, s)))) ∧
    (∀ (ws : List Word) (desc : Word), BarOpen fn ide s →
      (s.ownsWindow fn = false → exec (.serviceSendDesc fn ws desc ide) s = .next s) ∧
      (s.ownsWindow fn = true →
        let t := s.modFn fn (fun f => { f with w := (List.range 16).foldl (fun t i => tabSet 0 t i (nth 0 ws i)) [], desc := desc })
        (8 ≤ t.pendingSends fn ∨ descBad desc = true → exec (.serviceSendDesc fn ws desc ide) s = .next
          ((t.modFn fn (fun f => { f with overflow := true })).bump 0x501D 4 1)) ∧
        (t.pendingSends fn < 8 → descBad desc = false → bitAt desc 63 = false → fn = 0 ∨ (bitsOf desc 32 16 = t.device ∧ packOf (bitsOf desc 0 10) + 1 = fn) →
          exec (.serviceSendDesc fn ws desc ide) s = .next (queueSend fn (fitTo 0 16 ws) desc [] t))))

/-- MAILBOX_GO in a served BAR takes the request and sets BUSY; while BUSY it sets OVERRUN and nothing else. A datagram is queued while fewer
than eight wait, otherwise it is discarded and counted, as every bad packet is; a multicast that is no READ is discarded; a silent port
takes no frame; failed duplicate address detection silences the port. Every transfer but KIND 2 that no message has named for 600 s ends,
and no other does. -/
def Obligations.MailboxFramesAndTimeouts : Prop :=
  ∀ (s : State),
    (∀ (req : List Byte) (n : Fin 2049) (irq ide : Bool), BarOpen 0 ide s →
      (s.host.mbBusy = true → exec (.mailboxGo req n irq ide) s = .next { s with host := { s.host with mbOver := true, mbLen := n } }) ∧
      (s.host.mbBusy = false → exec (.mailboxGo req n irq ide) s = .next (settle 9 { s with
        out := []
        host := { s.host with mbBusy := true, mbDone := false, mbOver := false, mbIrq := irq, mbLen := n, mbReq := fitTo 0 n req } }))) ∧
    (s.portSilent = true → ∀ f, exec (.mgmtFrame f) s = .next s) ∧
    (s.portSilent = false → let t := { s with out := [] }
      (∀ d : Datagram, d.bad = true → exec (.mgmtFrame (.udp d)) s = .next (t.bump 0x501E 3 1)) ∧
      (∀ d : Datagram, d.bad = false → d.multicast = false ∨ fld d.bytes 3 1 = 1 →
        (s.mgmt.queue.length < 8 → exec (.mgmtFrame (.udp d)) s = .next (settle 9
          { t with mgmt := { s.mgmt with queue := s.mgmt.queue ++ [{ addr := d.src.toNat, port := d.srcPort.toNat, bytes := d.bytes }] } })) ∧
        (8 ≤ s.mgmt.queue.length → exec (.mgmtFrame (.udp d)) s = .next (settle 9 (t.bump 0x501E 3 1)))) ∧
      (∀ d : Datagram, d.bad = false → d.multicast = true → fld d.bytes 3 1 ≠ 1 → exec (.mgmtFrame (.udp d)) s = .next (settle 9 t)) ∧
      (∀ src hop ext, exec (.mgmtFrame (.icmp src hop ext)) s = .next (if packetBad src hop ext then t.bump 0x501E 3 1 else t)) ∧
      exec (.mgmtFrame .other) s = .next t ∧
      exec (.mgmtFrame .collision) s = .next (if s.setting 0x0250 3 1 = 1 then t.bump 0x501E 5 1 else t) ∧
      (∃ u, exec (.mgmtFrame .dadFailed) s = .next u ∧ u.portSilent = true ∧ u.mgmt.queue = s.mgmt.queue)) ∧
    ∃ t, exec .segTimeout s = .next t ∧ t.hbm = s.hbm ∧ t.mgmt.queue = s.mgmt.queue ∧ ∀ k < 4,
      t.transfer k = if (s.transfer k).id ≠ 0 ∧ (s.transfer k).kind ≠ 2 ∧ (s.transfer k).lastAt + 600 * secBeats ≤ s.clock then .free else s.transfer k

/-- With firmware running, the request served next of the opcode, and none of the answers that R523 and R527 give at once due, the command
hands the request to its service and answers with the status and body that this gives; the session the request is in is used by it.
DESCRIBE gives an object's type, access and size, unknown object, or an access error on the path that does not reach it; SUBSCRIBE makes
the source the subscriber or cancels it. -/
def Obligations.RequestsAreServedByOpcode : Prop :=
  ∀ (s : State) (q : Request), s.power.booted = true → s.nextRequest = some q → settleOne q s = none →
    let t := touchSession q.sender { s with out := [] }
    (∀ e b u, u.power.booted = true → let answered := Host.Outcome.next (settle 9 (respond q e b u))
      (q.op = 0x01 → serveRead q t = (.reply e b, u) → exec .read s = answered) ∧
      (∀ flash, q.op = 0x02 → serveWrite flash q t = (.reply e b, u) → exec (.write flash) s = answered) ∧
      (q.op = 0x03 → serveReadMulti q t = (.reply e b, u) → exec .readMulti s = answered) ∧
      (q.op = 0x04 → serveDescribe q t = (.reply e b, u) → exec .describe s = answered) ∧
      (q.op = 0x05 → serveSubscribe q t = (.reply e b, u) → exec .subscribe s = answered) ∧
      (q.op = 0x10 → serveSegStart q t = (.reply e b, u) → exec .segStart s = answered) ∧
      (∀ flash, q.op = 0x11 → serveSegBlock flash q t = (.reply e b, u) → exec (.segBlock flash) s = answered) ∧
      (q.op = 0x12 → serveSegQuery q t = (.reply e b, u) → exec .segQuery s = answered) ∧
      (∀ flash, q.op = 0x13 → serveSegEnd flash q t = (.reply e b, u) → exec (.segEnd flash) s = answered) ∧
      (q.op = 0x14 → serveSegAbort q t = (.reply e b, u) → exec .segAbort s = answered) ∧
      (q.op = 0x20 → serveServiceSend q t = (.reply e b, u) → exec .serviceSend s = answered)) ∧
    (∀ r, q.op = 0x04 → q.body.length = 4 → fld q.body 3 1 = 0 → dictObj (fld q.body 0 2) (fld q.body 2 1) = some r →
      wrongPath q.mailbox (fld q.body 0 2) = true → exec .describe s = .next (settle 9 (respond q 2 [] t))) ∧
    (∀ r, q.op = 0x04 → q.body.length = 4 → fld q.body 3 1 = 0 → dictObj (fld q.body 0 2) (fld q.body 2 1) = some r →
      wrongPath q.mailbox (fld q.body 0 2) = false →
      exec .describe s = .next (settle 9 (respond q 0 (leBytes 1 r.typ.code ++ leBytes 1 r.acc.code ++ [0, 0] ++ leBytes 4 r.size) t))) ∧
    (q.op = 0x04 → q.body.length = 4 → fld q.body 3 1 = 0 → dictObj (fld q.body 0 2) (fld q.body 2 1) = none →
      exec .describe s = .next (settle 9 (respond q 1 [] t))) ∧
    (∀ m, q.op = 0x05 → q.body = [m] → q.mailbox = false → m ≠ 0 → exec .subscribe s = .next (settle 9 (respond q 0 []
      { t with mgmt := { t.mgmt with subAddr := q.addr, subPort := q.port, subMask := m.toNat } })))

/-- PIN_PEAK_READ answers the peak and resets it. A calibration object of its own size, written in Service at rest or Idle with no program and
HOLDUP_OK high, is the one in use and in flash but for its reserved bits, with origin 1. SETTINGS_COMMAND 1 in Service or Idle returns the
settings to their defaults. A debug access to a core without a host is a state error, and waits while a slice runs; a debug write of a
selection of the scratchpad writes it. -/
def Obligations.DictionaryCommandsAnswer : Prop :=
  ∀ (s : State), Answering s →
    (∀ mb : Bool, ∃ t, exec (.pinPeakRead mb) s = .next t ∧ t.out = 0 :: leBytes 4 s.env.pinPeak.toNat ∧ t.env = { s.env with pinPeak := 0 } ∧
      t = { s with env := t.env, out := t.out }) ∧
    (∀ (i : Fin 5) (d : List Byte) (r : Requester), s.sec.owner = .unowned → s.sec.sessions = [] → d.length = calSize i → s.calibBusy = false →
      s.env.holdupOk = true → ∃ t, exec (.calibrationWrite i d r .done) s = .next t ∧ t.out = [0] ∧ t.calib.inUse = t.calib.flash ∧
        t.calib.good = true ∧ t.calib.flash.origin = 1 ∧ tabGet [] t.calib.flash.objs i = calibKept i d ∧
        (∀ j, j ≠ i.val → tabGet [] t.calib.flash.objs j = tabGet [] s.calib.inUse.objs j)) ∧
    (∀ r : Requester, s.sec.owner ≠ .locked → s.power.dev = .service ∨ s.power.dev = .idle → s.env.holdupOk = true →
      s.sec.sessions = [] → exec (.settingsCommand 1 r .done) s = .next
        { settingsDefault s with power := { (settingsDefault s).power with flashWrites := (settingsDefault s).power.flashWrites + 1 }, out := [0] }) ∧
    (∀ mb : Bool, let w := s.dbgSelect (bit01 mb)
      (s.hostOf (dbgCore w) = none → exec (.dbgDataRead mb) s = .next { s with out := [7] }) ∧
      ((s.hostOf (dbgCore w)).isSome = true → dbgKind w ≠ 0 ∨ dbgOff w + dbgLen w ≤ saveBase →
        ((s.core (dbgCore w)).vetting = true → exec (.dbgDataRead mb) s = .next s) ∧
        ((s.core (dbgCore w)).vetting = false → ∃ t, exec (.dbgDataRead mb) s = .next t ∧ t.out = 0 :: (dbgData w s).1 ∧
          tabGet 0 t.mgmt.dbgBad (bit01 mb) = (dbgData w s).2.1))) ∧
    (∀ (d : List Byte) (r : Requester), s.sec.owner = .unowned → s.sec.sessions = [] → let w := s.dbgSelect r.path
      (s.hostOf (dbgCore w) = none → d.length ≤ 65536 → exec (.dbgWrite d r) s = .next { s with out := [7] }) ∧
      ((s.hostOf (dbgCore w)).isSome = true → dbgKind w = 0 → d.length = dbgLen w → d.length ≤ 65536 → dbgOff w + dbgLen w ≤ saveBase →
        (s.pack (packOf (dbgCore w))).state = .empty → (s.core (dbgCore w)).vetting = false →
        exec (.dbgWrite d r) s = .next { writePort (dbgCore w) 7 (dbgOff w) d s with out := [0] }))

/-- LOCK and UNLOCK are state errors in Unowned and lock errors outside an owner session; in one, LOCK takes Owned to Owned-Locked and UNLOCK
takes it back, and each is a state error in its own end state. A session without a request for 600 s closes and no other does. A token of
3,413 bytes that nothing refuses sets DEBUG_STATE until its hours; DEBUG_LOCK and the end of those hours clear it and turn the Sniff port
off. -/
def Obligations.OwnershipAndDebugUnlock : Prop :=
  ∀ (s : State),
    (∀ (lock : Bool) (r : Requester), Answering s → let cmd : Instr := if lock then .lock r else .unlock r
      let t := touchSession r s
      (s.sec.owner = .unowned → exec cmd s = .next { t with out := [7] }) ∧
      (s.sec.owner ≠ .unowned → t.inSession r = false → exec cmd s = .next { t with out := [3] }) ∧
      (t.inSession r = true → s.sec.owner = (if lock then .owned else .locked) →
        exec cmd s = .next { t with sec := { t.sec with owner := if lock then .locked else .owned }, out := [0] }) ∧
      (t.inSession r = true → s.sec.owner = (if lock then .locked else .owned) → exec cmd s = .next { t with out := [7] })) ∧
    (∃ t, exec .sessionTimeout s = .next t ∧ t = { s with sec := { s.sec with sessions := t.sec.sessions } } ∧
      ∀ x, x ∈ t.sec.sessions ↔ x ∈ s.sec.sessions ∧ s.clock < x.lastUse + 600 * secBeats) ∧
    (∀ (m : List Byte) (r : Requester), Answering s → let t := touchSession r s
      (m.length ≠ 3413 → exec (.debugUnlock m r) s = .next { t with out := [5] }) ∧
      (m.length = 3413 → t.tokenRefusal r m ≠ 0 → exec (.debugUnlock m r) s = .next { t with out := [0x0D, BitVec.ofNat 8 (t.tokenRefusal r m)] }) ∧
      (m.length = 3413 → t.tokenRefusal r m = 0 → exec (.debugUnlock m r) s = .next
        { t with sec := { t.sec with debug := true, debugSinceBoot := true, debugUntil := fld m 28 4 }, out := [0] })) ∧
    (Answering s → exec (.debugLock false) s = .next { s with out := [0] } ∧
      ∃ t, exec (.debugLock true) s = .next t ∧ t.sec = { s.sec with debug := false } ∧ t.setting 0x7000 1 0 = 0 ∧ t.out = [0] ∧
        t = { s with sec := t.sec, settings := t.settings, jtag := t.jtag, out := [0] }) ∧
    (s.sec.debug = true → s.sec.debugUntil ≤ s.hoursNow → ∃ t, exec .debugExpiry s = .next t ∧ t.sec = { s.sec with debug := false } ∧
      t.setting 0x7000 1 0 = 0) ∧
    (s.hoursNow < s.sec.debugUntil → exec .debugExpiry s = .next s)

/-- A nonce of 32 bytes starts the report of its path with the Howl of now and leaves the reports of the other paths as they are; one of
another length is a type error. A report that is pending completes with the nonce in it, and the DOE report is given back. A path with
none pending is unaffected. -/
def Obligations.AttestationReports : Prop :=
  ∀ (s : State),
    (Answering s →
      (∀ (mb : Bool) (l : List Byte), (l.length ≠ 32 → exec (.attestNonce mb l) s = .next { s with out := [5] }) ∧
        (l.length = 32 → ∃ t, exec (.attestNonce mb l) s = .next t ∧ t.out = [0] ∧ t = { s with sec := { s.sec with attest := t.sec.attest }, out := [0] } ∧
          tabGet Attest.none t.sec.attest (bit01 mb) = { nonce := l, startHowl := s.howl, pending := true, report := [] } ∧
          ∀ p, p ≠ bit01 mb → tabGet Attest.none t.sec.attest p = tabGet Attest.none s.sec.attest p)) ∧
      ∀ n : BitVec 256, ∃ t, exec (.doeRequest n) s = .next t ∧ t = { s with sec := { s.sec with attest := t.sec.attest } } ∧
        (tabGet Attest.none t.sec.attest 2).pending = true ∧ (tabGet Attest.none t.sec.attest 2).nonce = leBytes 32 n.toNat ∧
        ∀ p, p ≠ 2 → tabGet Attest.none t.sec.attest p = tabGet Attest.none s.sec.attest p) ∧
    ∀ p : Fin 3, let a := tabGet Attest.none s.sec.attest p
      (a.pending = false → exec (.attestReportDone p) s = .next s) ∧
      (a.pending = true → ∃ t, exec (.attestReportDone p) s = .next t ∧
        tabGet Attest.none t.sec.attest p = { a with pending := false, report := s.attestReport p a } ∧
        t.out = (if p = 2 then s.attestReport p a else s.out) ∧
        (∀ j, j ≠ p.val → tabGet Attest.none t.sec.attest j = tabGet Attest.none s.sec.attest j) ∧
        (s.attestReport p a).take 8 = strBytes "DVMATST1" ∧ bytesAt (s.attestReport p a) 16 32 = fitTo 0 32 a.nonce)

/-- Without a staged image UPDATE_COMMAND is busy while a commit runs and else a state error. A commit that a condition refuses records the
reason; a failed flash write ends in state 7 with 0x10; one of management firmware activates its slot on trial and restarts the module; a
per-pack one goes to the first pack. Abandoning leaves the slot invalid with 0x11. A trial is confirmed once, and after 30 s it is
reverted. -/
def Obligations.FirmwareIsCommittedOrAbandoned : Prop :=
  ∀ (s : State),
    (∀ (r : Requester) (flash : Bool), Answering s → let t := touchSession r s
      (s.upd.state ≠ 4 → exec (.updateCommit r flash) s = .next { t with out := [if s.upd.state = 3 then 6 else 7] } ∧
        exec (.updateAbandon r) s = .next { t with out := [if s.upd.state = 3 then 6 else 7] }) ∧
      (s.upd.state = 4 →
        (t.commitRefusal r ≠ 0 → exec (.updateCommit r flash) s = .next { t with upd := { t.upd with result := t.commitRefusal r }, out := [7] }) ∧
        (t.commitRefusal r = 0 →
          (flash = false → exec (.updateCommit r flash) s = .next { t with upd := { t.upd with state := 7, result := 0x10 }, out := [0x0E] }) ∧
          (flash = true → s.upd.comp = 1 → ∃ u, exec (.updateCommit r flash) s = .next u ∧ u.power.dev = .service ∧ u.power.starting = some .power ∧
            (u.fwComp 1).active = s.upd.slot ∧ (u.fwComp 1).trial = true ∧ u.hbm = [] ∧ u.out = [0]) ∧
          (flash = true → s.upd.comp = 2 ∨ s.upd.comp = 5 → exec (.updateCommit r flash) s = .next
            { nextMove { t with upd := { t.upd with
                state := 3, todo := s.updatePacks.filter (fun p => tabGet 0 (s.fwComp s.upd.comp).packSlot p ≠ s.upd.slot + 1) } } with out := [0] })) ∧
        (t.updateLocked r = true → exec (.updateAbandon r) s = .next { t with upd := { t.upd with result := 0x0D }, out := [7] }) ∧
        (t.updateLocked r = false → ∃ u, exec (.updateAbandon r) s = .next u ∧ u.upd.state = 0 ∧ u.upd.result = 0x11 ∧
          (u.fwComp s.upd.comp).fwSlot s.upd.slot = .empty ∧ u = { t with upd := u.upd, out := [0] }))) ∧
    (∀ p found, s.upd.moving = some p → exec (.packCommitDone found) s = .next (
      let t := if s.upd.comp = 2 then packVet p found s else s
      nextMove (releaseMoved p (t.modComp t.upd.comp (fun c => { c with packSlot := tabSet 0 c.packSlot p (t.upd.slot + 1) }))))) ∧
    (Answering s → (s.fwComp 1).trial = true → s.upd.tried = true → s.env.holdupOk = true →
      ∃ t, exec .trialConfirm s = .next t ∧ (t.fwComp 1).trial = false ∧ (t.fwComp 1).active = (s.fwComp 1).active ∧ t.upd.state = 5 ∧
        t.upd.result = 0 ∧ t.upd.tried = false ∧ t = { s with upd := t.upd }) ∧
    ((s.fwComp 1).trial = true → s.upd.tried = true → s.env.holdupOk = true → s.upd.trialSince + 30 * secBeats ≤ s.clock →
      ∃ t, exec .trialTimeout s = .next t ∧ t.upd.state = 7 ∧ t.upd.result = 0x13 ∧ (t.fwComp 1).trial = false ∧
        (t.fwComp 1).active = 1 - (s.fwComp 1).active ∧ t.power.starting = some .power)

/-- A thermal update of a booted module takes the readings, keeps the peak input power and accumulates energy. A hot pack's throttle step
rises by one, at most every 10 ms and to 15, and falls by one after 100 ms cool. The valve is fully open during an emergency clock-down,
takes the automatic duty in mode 0 and VALVE_MANUAL else, and stays while it is held. IIN beyond the envelope clocks every pack down. Two
seconds of low flow cut the power limit. -/
def Obligations.EnvelopeControllerActs : Prop :=
  ∀ (s : State),
    (∀ r : Readings, s.power.booted = true → ∃ t, exec (.thermalModelUpdate r) s = .next t ∧ t.env.now = r.seen ∧
      t.env.pinPeak = (if f32Lt s.env.pinPeak r.pin then r.pin else s.env.pinPeak) ∧
      t.env.energy = (s.env.energy + microJoules r.pin) % 1000000 ∧
      (∀ i < 8, (t.stack i).temp = nth 0 r.stackTemp i) ∧ t.packs = s.packs ∧ t.hbm = s.hbm) ∧
    (∀ p : PackId, anyAtLeast [nth 0 s.env.now.packTemp p] (s.dieLimit 0) = true → tabGet 0 s.env.raisedAt p ≤ s.clock →
      let t := { s with env := { s.env with raisedAt := tabSet 0 s.env.raisedAt p (s.clock + 10 * msBeats) } }
      (15 ≤ (s.pack p).throttle → exec (.throttleRaise (some p)) s = .next t) ∧
      ((s.pack p).throttle < 15 → ∃ u, exec (.throttleRaise (some p)) s = .next u ∧ (u.pack p).throttle = (s.pack p).throttle + 1 ∧
        bitAt u.faults.alerts 11 = true ∧ u.env = t.env ∧ ∀ q, q ≠ p.val → u.pack q = s.pack q)) ∧
    (∀ p : PackId, let b := tabGet 0 s.env.coolSince p
      fieldOf s.env.clockdown p 1 = 0 → 0 < (s.pack p).throttle → b ≠ 0 → b - 1 + 100 * msBeats ≤ s.clock →
      ∃ u, exec (.throttleLower (some p)) s = .next u ∧ (u.pack p).throttle = (s.pack p).throttle - 1 ∧
        u.env = { s.env with coolSince := tabSet 0 s.env.coolSince p (s.clock + 1) } ∧ ∀ q, q ≠ p.val → u.pack q = s.pack q) ∧
    (numLt s.powerLimit (f32Num s.env.now.pinAvg) = false → exec (.throttleRaise none) s = .next s) ∧
    (s.power.booted = true → s.power.valveHold = false → ∃ t, exec .valveUpdate s = .next t ∧ t = { s with env := t.env } ∧
      t.env = { s.env with valve := t.env.valve, integral := t.env.integral } ∧
      (s.env.clockdown ≠ 0 → t.env.valve = 0x42C80000) ∧
      (s.env.clockdown = 0 → s.setting 0x0402 6 0 = 0 → t.env.valve = f32Of (valveDuty s).1 ∧ t.env.integral = f32Of (valveDuty s).2) ∧
      (s.env.clockdown = 0 → s.setting 0x0402 6 0 ≠ 0 → t.env.valve = BitVec.ofNat 32 (s.setting 0x0402 7 0x42C80000) ∧ t.env.integral = s.env.integral)) ∧
    (s.power.valveHold = true → exec .valveUpdate s = .next s) ∧
    (∀ i : BitVec 32, s.power.booted = true → numLt (addF32 (f32Num s.env.ienv) (natNum 4)) (f32Num i) = true → exec (.iinExcess i) s = .next
      (clockDown (List.range 16) { s with env := { s.env with ienv := i, now := { s.env.now with iin := i } } })) ∧
    (∀ b, s.env.flowLowSince = some b → b + 2 * secBeats ≤ s.clock → exec .flowLow s = .next { s with env := { s.env with flowCut := true } })

/-- IDCODE, SAMPLE/PRELOAD, BYPASS and Test-Logic-Reset always take effect. EXTEST, CLAMP and HIGHZ do in Service at rest with DEBUG_STATE 1,
the LBIST instructions with DEBUG_STATE 1, and LBIST_RUN only in Idle on a pack without a program; otherwise each acts as BYPASS. A slice
through LBIST_RUN has a run-time slice's result. What the boundary register samples and the signature are free values. -/
def Obligations.TapInstructions : Prop :=
  ∀ (s : State), let sel (i : TapInsn) : State := { s with jtag := { s.jtag with
      insn := i, pinsDriven := i = .extest || i = .clamp, pinsFloat := i = .highz } }
    exec .idcode s = .next { sel .idcode with out := leBytes 4 idCode } ∧ exec .bypass s = .next (sel .bypass) ∧
    exec .tapReset s = .next (sel .idcode) ∧
    idCode % 2 = 1 ∧ idCode / 2 ^ 12 % 2 ^ 16 = 0x1088 ∧ idCode / 2 ^ 28 = 2 ∧
    (∀ v : Word, ∃ t, exec (.samplePreload v) s = .next t ∧ t.jtag = { (sel .samplePreload).jtag with boundary := v } ∧ t.nonce = s.nonce + 1 ∧
      t.out = leBytes 8 (Config.freeWord s.nonce).toNat ∧ t = { s with jtag := t.jtag, nonce := t.nonce, out := t.out }) ∧
    (s.sec.debug = true → s.power.dev = .service → s.power.starting = none →
      exec .extest s = .next (sel .extest) ∧ exec .clamp s = .next (sel .clamp) ∧ exec .highz s = .next (sel .highz)) ∧
    (s.sec.debug = false ∨ s.power.dev ≠ .service ∨ s.power.starting.isSome = true →
      exec .extest s = .next (sel .bypass) ∧ exec .clamp s = .next (sel .bypass) ∧ exec .highz s = .next (sel .bypass)) ∧
    (∀ v : BitVec 24, s.sec.debug = true → exec (.lbistSelect v) s = .next
      { sel .lbistSelect with jtag := { (sel .lbistSelect).jtag with select := v &&& 0x01FFFF } }) ∧
    (s.sec.debug = true → exec .lbistResult s = .next { sel .lbistResult with out := leBytes 9 s.jtag.result.toNat }) ∧
    (∀ (v : BitVec 24) found, s.sec.debug = false → exec (.lbistSelect v) s = .next (sel .bypass) ∧ exec .lbistResult s = .next (sel .bypass) ∧
      exec (.lbistRun found) s = .next (sel .bypass)) ∧
    (∀ n found, s.jtag.core = some n → s.sec.debug = true → s.power.dev = .idle → (s.pack (physPack n)).state = .empty →
      (s.vetPack (physPack n)).held = false → (s.vetPack (physPack n)).active = none →
      exec (.lbistRun found) s = .next (lbistRun n found (sel .lbistRun)))

/-- With command c at the front, step is exec of c on the state with the rest of the queue. With nothing queued, what the end of a beat brings
about by itself happens while the Howl runs, the model's clock counts the beat and the Howl does while its generator runs (log entry 1:
the queue and the idle beat are the model's). The table gives no bits, so no word spells a command. -/
def Obligations.StepTakesTheFrontCommand : Prop :=
  ∀ (s : State),
    (∀ c rest, s.pending = c :: rest → step s = exec c { s with pending := rest }) ∧
    (s.pending = [] → step s = .next (let t := if s.power.howlOn then beatEnds s else s
      { t with clock := t.clock + 1, howl := if t.power.howlOn then t.howl + 1 else t.howl })) ∧
    ∀ nbits w, decodeTableWord nbits w = none ∧ s.withFetchWord nbits w = s

/-- After reset the module is in Off with no rail up and no firmware running; it is Unowned and debug-locked; no command waits; HBM lists
nothing; every stack, core, pack, context and port is at its reset; no statistics counter has counted. HBM is canonical and ownership
lawful. (The calibration record and firmware slots are those of manufacture, which log entry 22 leaves free.) -/
def Obligations.ResetIsAModuleWithoutPower : Prop :=
  State.reset.power.dev = .off ∧ State.reset.power.rails = false ∧ State.reset.power.booted = false ∧ State.reset.pending = [] ∧
  State.reset.hbm = [] ∧ State.reset.sec.owner = .unowned ∧ State.reset.sec.debug = false ∧ State.reset.howl = 0 ∧
  (∀ c, State.reset.core c = Core.reset) ∧ (∀ p, State.reset.pack p = Pack.reset) ∧ (∀ i, State.reset.stack i = Stack.reset) ∧
  (∀ f, State.reset.port f = Port.reset) ∧ (∀ idx sub, State.reset.stat idx sub = 0) ∧ HbmCanonical State.reset ∧ OwnershipLawful State.reset

/-- For every command and every state exec answers a next state, in which the same commands wait as before; so a step takes exactly the front
command off the queue and the block never stops. -/
def Obligations.EveryCommandCompletesAndLeavesTheQueue : Prop :=
  (∀ (c : Instr) (s : State), ∃ t, exec c s = .next t ∧ t.pending = s.pending) ∧
  ∀ (s : State), ∃ t, step s = .next t ∧ t.pending = s.pending.drop 1

/-- From every state whose HBM lists its bytes by strictly rising address with no byte that an unlisted address reads as, a step leads to such
a state: equal memories stay equal data whatever the commands do. -/
def Obligations.HbmStaysCanonical : Prop :=
  ∀ (s t : State), HbmCanonical s → step s = .next t → HbmCanonical t

/-- From every state in which an Unowned module holds no owner keys and no session, at most four owner sessions are open and DEBUG_STATE 1
shows in the record of this boot, a step leads to such a state. -/
def Obligations.OwnershipStaysLawful : Prop :=
  ∀ (s t : State), OwnershipLawful s → step s = .next t → OwnershipLawful t
end

