-- ==== Sys2Proof/Laws/Tab.lean ====
section
/-! SUPPORT. Laws of sparse tables and of the byte memories made of them: reading after writing, and the canonical form. -/
namespace Sys2Proof.Machine

section Tables
variable {α : Type} [DecidableEq α] (d : α)

omit [DecidableEq α] in
/-- An erased key reads as the default. -/
@[simp] theorem tabGet_tabErase_self (t : Tab α) (k : Nat) : tabGet d (tabErase t k) k = d := by
  induction t with
  | nil => rfl
  | cons e t ih => obtain ⟨a, v⟩ := e; by_cases h : a = k <;> simp [tabErase, tabGet, h, ih]

omit [DecidableEq α] in
/-- Erasing a key leaves every other key. -/
theorem tabGet_tabErase_other (t : Tab α) {k j : Nat} (h : j ≠ k) : tabGet d (tabErase t k) j = tabGet d t j := by
  induction t with
  | nil => rfl
  | cons e t ih =>
    obtain ⟨a, v⟩ := e
    by_cases ha : a = k
    · subst ha; simp [tabErase, tabGet, ih, Ne.symm h]
    · by_cases hj : a = j
      · subst hj; simp [tabErase, tabGet, h]
      · simp [tabErase, tabGet, ha, hj, ih]

omit [DecidableEq α] in
/-- An inserted key that the table did not hold reads as its value. -/
theorem tabGet_tabInsert_self (t : Tab α) (k : Nat) (v : α) : tabGet d (tabInsert (tabErase t k) k v) k = v := by
  induction t with
  | nil => simp [tabErase, tabInsert, tabGet]
  | cons e t ih =>
    obtain ⟨a, w⟩ := e
    by_cases ha : a = k
    · simpa [tabErase, ha] using ih
    · by_cases hk : k < a <;> simp [tabErase, ha, tabInsert, hk, tabGet, ih]

omit [DecidableEq α] in
/-- Inserting a key leaves every other key. -/
theorem tabGet_tabInsert_other (t : Tab α) {k j : Nat} (v : α) (h : j ≠ k) : tabGet d (tabInsert t k v) j = tabGet d t j := by
  induction t with
  | nil => simp [tabInsert, tabGet, Ne.symm h]
  | cons e t ih =>
    obtain ⟨a, w⟩ := e
    by_cases hk : k < a
    · simp [tabInsert, hk, tabGet, Ne.symm h]
    · by_cases hj : a = j
      · subst hj; simp [tabInsert, hk, tabGet]
      · simp [tabInsert, hk, tabGet, hj, ih]

omit [DecidableEq α] in
/-- Erasing a key twice is erasing it once. -/
@[simp] theorem tabErase_tabErase (t : Tab α) (k : Nat) : tabErase (tabErase t k) k = tabErase t k := by
  induction t with
  | nil => rfl
  | cons e t ih => obtain ⟨a, v⟩ := e; by_cases h : a = k <;> simp [tabErase, h, ih]

omit [DecidableEq α] in
/-- Erasing a key just inserted leaves what was there without it. -/
@[simp] theorem tabErase_tabInsert (t : Tab α) (k : Nat) (v : α) : tabErase (tabInsert t k v) k = tabErase t k := by
  induction t with
  | nil => simp [tabInsert, tabErase]
  | cons e t ih =>
    obtain ⟨a, w⟩ := e
    by_cases hk : k < a
    · simp [tabInsert, hk, tabErase]
    · by_cases h : a = k <;> simp [tabInsert, hk, tabErase, h, ih]

/-- Of two writes to one key the second stands. -/
@[simp] theorem tabSet_tabSet (t : Tab α) (k : Nat) (v w : α) : tabSet d (tabSet d t k v) k w = tabSet d t k w := by
  have h : tabErase (tabSet d t k v) k = tabErase t k := by
    by_cases hv : v = d <;> simp [tabSet, hv]
  have e (x : Tab α) : tabSet d x k w = if w = d then tabErase x k else tabInsert (tabErase x k) k w := rfl
  rw [e, e, h]

/-- A key reads as what was written to it last. -/
@[simp] theorem tabGet_tabSet_self (t : Tab α) (k : Nat) (v : α) : tabGet d (tabSet d t k v) k = v := by
  by_cases h : v = d
  · simp [tabSet, h]
  · simp [tabSet, h, tabGet_tabInsert_self]

/-- A write leaves every other key. -/
theorem tabGet_tabSet_other (t : Tab α) {k j : Nat} (v : α) (h : j ≠ k) : tabGet d (tabSet d t k v) j = tabGet d t j := by
  by_cases hv : v = d
  · simp [tabSet, hv, tabGet_tabErase_other d t h]
  · simp [tabSet, hv, tabGet_tabInsert_other d _ v h, tabGet_tabErase_other d t h]

/-- A changed key reads as the function of what it read. -/
@[simp] theorem tabGet_tabMod_self (t : Tab α) (k : Nat) (f : α → α) : tabGet d (tabMod d t k f) k = f (tabGet d t k) := by
  simp [tabMod]

/-- A change leaves every other key. -/
theorem tabGet_tabMod_other (t : Tab α) {k j : Nat} (f : α → α) (h : j ≠ k) : tabGet d (tabMod d t k f) j = tabGet d t j := by
  simp [tabMod, tabGet_tabSet_other d t _ h]

omit [DecidableEq α] in
/-- The empty table reads as the default. -/
@[simp] theorem tabGet_nil (k : Nat) : tabGet d ([] : Tab α) k = d := rfl

/-- The canonical form from a bound holds from every smaller one. -/
theorem tabWfFrom_mono {t : Tab α} {m n : Nat} (h : m ≤ n) (hw : tabWfFrom d n t = true) : tabWfFrom d m t = true := by
  cases t with
  | nil => rfl
  | cons e t =>
    obtain ⟨a, v⟩ := e
    simp only [tabWfFrom, Bool.and_eq_true, decide_eq_true_eq] at hw ⊢
    exact ⟨⟨h.trans hw.1.1, hw.1.2⟩, hw.2⟩

/-- Erasing keeps the canonical form. -/
theorem tabWfFrom_tabErase {t : Tab α} {n : Nat} (k : Nat) (hw : tabWfFrom d n t = true) : tabWfFrom d n (tabErase t k) = true := by
  induction t generalizing n with
  | nil => rfl
  | cons e t ih =>
    obtain ⟨a, v⟩ := e
    simp only [tabWfFrom, Bool.and_eq_true, decide_eq_true_eq] at hw
    by_cases ha : a = k
    · simp only [tabErase, ha, if_true]
      exact tabWfFrom_mono d (by omega) (ih hw.2)
    · simp only [tabErase, ha, if_false, tabWfFrom, Bool.and_eq_true, decide_eq_true_eq]
      exact ⟨hw.1, ih hw.2⟩

/-- Inserting a value other than the default at an absent key keeps the canonical form. -/
theorem tabWfFrom_tabInsert {t : Tab α} {n k : Nat} {v : α} (hv : v ≠ d) (hk : n ≤ k) (hw : tabWfFrom d n t = true)
    (hfree : ∀ e ∈ t, e.1 ≠ k) : tabWfFrom d n (tabInsert t k v) = true := by
  induction t generalizing n with
  | nil => simp [tabInsert, tabWfFrom, hv, hk]
  | cons e t ih =>
    obtain ⟨a, w⟩ := e
    simp only [tabWfFrom, Bool.and_eq_true, decide_eq_true_eq] at hw
    have hne : a ≠ k := hfree (a, w) (by simp)
    by_cases ha : k < a
    · simp only [tabInsert, ha, if_true, tabWfFrom, Bool.and_eq_true, decide_eq_true_eq]
      exact ⟨⟨hk, by simpa using hv⟩, ⟨by omega, hw.1.2⟩, hw.2⟩
    · simp only [tabInsert, ha, if_false, tabWfFrom, Bool.and_eq_true, decide_eq_true_eq]
      exact ⟨hw.1, ih (by omega) hw.2 (fun e he => hfree e (by simp [he]))⟩

omit [DecidableEq α] in
/-- An erased key is not listed. -/
theorem tabErase_fresh (t : Tab α) (k : Nat) : ∀ e ∈ tabErase t k, e.1 ≠ k := by
  induction t with
  | nil => simp [tabErase]
  | cons e t ih =>
    obtain ⟨a, v⟩ := e
    by_cases ha : a = k
    · simpa [tabErase, ha] using ih
    · simp only [tabErase, ha, if_false, List.mem_cons]
      rintro x (rfl | hx)
      · exact ha
      · exact ih x hx

/-- A write keeps the canonical form. -/
theorem tabWf_tabSet {t : Tab α} (k : Nat) (v : α) (hw : tabWf d t = true) : tabWf d (tabSet d t k v) = true := by
  unfold tabWf tabSet at *
  by_cases hv : v = d
  · simpa [hv] using tabWfFrom_tabErase d k hw
  · simp only [hv, if_false]
    exact tabWfFrom_tabInsert d hv (Nat.zero_le k) (tabWfFrom_tabErase d k hw) (tabErase_fresh t k)

/-- Erasing keeps the canonical form. -/
theorem tabWf_tabErase {t : Tab α} (k : Nat) (hw : tabWf d t = true) : tabWf d (tabErase t k) = true := tabWfFrom_tabErase d k hw

/-- Dropping entries keeps the canonical form. -/
theorem tabWfFrom_filter {t : Tab α} {n : Nat} (p : Nat × α → Bool) (hw : tabWfFrom d n t = true) :
    tabWfFrom d n (t.filter p) = true := by
  induction t generalizing n with
  | nil => rfl
  | cons e t ih =>
    obtain ⟨a, v⟩ := e
    simp only [tabWfFrom, Bool.and_eq_true, decide_eq_true_eq] at hw
    by_cases hp : p (a, v) = true
    · simp only [List.filter_cons, hp, if_true, tabWfFrom, Bool.and_eq_true, decide_eq_true_eq]
      exact ⟨hw.1, ih hw.2⟩
    · simp only [List.filter_cons, hp, if_false, Bool.false_eq_true]
      exact tabWfFrom_mono d (by omega) (ih hw.2)

/-- Dropping entries keeps the canonical form. -/
theorem tabWf_filter {t : Tab α} (p : Nat × α → Bool) (hw : tabWf d t = true) : tabWf d (t.filter p) = true := tabWfFrom_filter d p hw

end Tables

/-- Writing bytes keeps a memory's canonical form. -/
theorem tabWf_memWrite {m : Tab Byte} (a : Nat) (l : List Byte) (hw : tabWf 0 m = true) : tabWf 0 (memWrite m a l) = true := by
  induction l generalizing m a with
  | nil => exact hw
  | cons b t ih => exact ih (a + 1) (tabWf_tabSet 0 a b hw)

/-- Zeroing a range keeps a memory's canonical form. -/
theorem tabWf_memZero {m : Tab Byte} (a n : Nat) (hw : tabWf 0 m = true) : tabWf 0 (memZero m a n) = true := tabWf_filter 0 _ hw

/-- A byte outside the bytes written reads as before. -/
theorem memWrite_outside {m : Tab Byte} {a x : Nat} (l : List Byte) (h : x < a ∨ a + l.length ≤ x) :
    tabGet 0 (memWrite m a l) x = tabGet 0 m x := by
  induction l generalizing m a with
  | nil => rfl
  | cons b t ih =>
    simp only [List.length_cons] at h
    rw [memWrite, ih (by omega), tabGet_tabSet_other 0 m b (by omega)]

/-- A byte written reads as its new value. -/
theorem memWrite_inside {m : Tab Byte} {a : Nat} (l : List Byte) {i : Nat} (h : i < l.length) :
    tabGet 0 (memWrite m a l) (a + i) = l[i] := by
  induction l generalizing m a i with
  | nil => simp at h
  | cons b t ih =>
    cases i with
    | zero =>
      rw [memWrite]
      simp only [Nat.add_zero]
      rw [memWrite_outside t (by omega), tabGet_tabSet_self]
      rfl
    | succ n =>
      have := ih (m := tabSet 0 m a b) (a := a + 1) (i := n) (by simpa using h)
      simpa [memWrite, Nat.add_assoc, Nat.add_comm 1 n] using this

/-- Reading the bytes just written gives them. -/
theorem memRead_memWrite (m : Tab Byte) (a : Nat) (l : List Byte) : memRead (memWrite m a l) a l.length = l := by
  apply List.ext_getElem
  · simp [memRead]
  · intro i h1 h2
    simp only [memRead, List.getElem_map, List.getElem_range]
    exact memWrite_inside l h2

end Sys2Proof.Machine
end

