-- ==== Sys2Proof/Laws/State.lean ====
section
/-! SUPPORT. What each update operation of the state leaves unchanged, field by field, and what it writes. -/
namespace Sys2Proof.Machine

section setCore
variable (s : State) (c : Nat) (k : Core)
@[simp] theorem State.setCore_clock : (s.setCore c k).clock = s.clock := rfl
@[simp] theorem State.setCore_howl : (s.setCore c k).howl = s.howl := rfl
@[simp] theorem State.setCore_nonce : (s.setCore c k).nonce = s.nonce := rfl
@[simp] theorem State.setCore_packs : (s.setCore c k).packs = s.packs := rfl
@[simp] theorem State.setCore_progs : (s.setCore c k).progs = s.progs := rfl
@[simp] theorem State.setCore_load : (s.setCore c k).load = s.load := rfl
@[simp] theorem State.setCore_gen : (s.setCore c k).gen = s.gen := rfl
@[simp] theorem State.setCore_ctxs : (s.setCore c k).ctxs = s.ctxs := rfl
@[simp] theorem State.setCore_hbm : (s.setCore c k).hbm = s.hbm := rfl
@[simp] theorem State.setCore_hbmKey : (s.setCore c k).hbmKey = s.hbmKey := rfl
@[simp] theorem State.setCore_hbmStacks : (s.setCore c k).hbmStacks = s.hbmStacks := rfl
@[simp] theorem State.setCore_ports : (s.setCore c k).ports = s.ports := rfl
@[simp] theorem State.setCore_ring : (s.setCore c k).ring = s.ring := rfl
@[simp] theorem State.setCore_job : (s.setCore c k).job = s.job := rfl
@[simp] theorem State.setCore_mirror : (s.setCore c k).mirror = s.mirror := rfl
@[simp] theorem State.setCore_faults : (s.setCore c k).faults = s.faults := rfl
@[simp] theorem State.setCore_stats : (s.setCore c k).stats = s.stats := rfl
@[simp] theorem State.setCore_progress : (s.setCore c k).progress = s.progress := rfl
@[simp] theorem State.setCore_settings : (s.setCore c k).settings = s.settings := rfl
@[simp] theorem State.setCore_statsSat : (s.setCore c k).statsSat = s.statsSat := rfl
@[simp] theorem State.setCore_statsFirst : (s.setCore c k).statsFirst = s.statsFirst := rfl
@[simp] theorem State.setCore_lastMismatchTime : (s.setCore c k).lastMismatchTime = s.lastMismatchTime := rfl
@[simp] theorem State.setCore_lastMismatchPlace : (s.setCore c k).lastMismatchPlace = s.lastMismatchPlace := rfl
@[simp] theorem State.setCore_meshFaultHeld : (s.setCore c k).meshFaultHeld = s.meshFaultHeld := rfl
@[simp] theorem State.setCore_meshFaultTime : (s.setCore c k).meshFaultTime = s.meshFaultTime := rfl
@[simp] theorem State.setCore_meshFault : (s.setCore c k).meshFault = s.meshFault := rfl
@[simp] theorem State.setCore_slipHeld : (s.setCore c k).slipHeld = s.slipHeld := rfl
@[simp] theorem State.setCore_slipTime : (s.setCore c k).slipTime = s.slipTime := rfl
@[simp] theorem State.setCore_slipPlace : (s.setCore c k).slipPlace = s.slipPlace := rfl
@[simp] theorem State.setCore_vet : (s.setCore c k).vet = s.vet := rfl
@[simp] theorem State.setCore_power : (s.setCore c k).power = s.power := rfl
@[simp] theorem State.setCore_env : (s.setCore c k).env = s.env := rfl
@[simp] theorem State.setCore_host : (s.setCore c k).host = s.host := rfl
@[simp] theorem State.setCore_heldRing : (s.setCore c k).heldRing = s.heldRing := rfl
@[simp] theorem State.setCore_mgmt : (s.setCore c k).mgmt = s.mgmt := rfl
@[simp] theorem State.setCore_calib : (s.setCore c k).calib = s.calib := rfl
@[simp] theorem State.setCore_sec : (s.setCore c k).sec = s.sec := rfl
@[simp] theorem State.setCore_upd : (s.setCore c k).upd = s.upd := rfl
@[simp] theorem State.setCore_jtag : (s.setCore c k).jtag = s.jtag := rfl
@[simp] theorem State.setCore_out : (s.setCore c k).out = s.out := rfl
@[simp] theorem State.setCore_pending : (s.setCore c k).pending = s.pending := rfl
/-- What `setCore` wrote reads back. -/
@[simp] theorem State.setCore_self : (s.setCore c k).core c = k := tabGet_tabSet_self _ _ _ _
/-- `setCore` leaves every other entry. -/
theorem State.setCore_other {j : Nat} (h : j ≠ c) : (s.setCore c k).core j = s.core j := tabGet_tabSet_other _ _ _ h
@[simp] theorem State.setCore_pack (j : Nat) : (s.setCore c k).pack j = s.pack j := rfl
@[simp] theorem State.setCore_prog (j : Nat) : (s.setCore c k).prog j = s.prog j := rfl
@[simp] theorem State.setCore_ctx (j : Nat) : (s.setCore c k).ctx j = s.ctx j := rfl
@[simp] theorem State.setCore_stack (j : Nat) : (s.setCore c k).stack j = s.stack j := rfl
@[simp] theorem State.setCore_port (j : Nat) : (s.setCore c k).port j = s.port j := rfl
@[simp] theorem State.setCore_stat (i j : Nat) : (s.setCore c k).stat i j = s.stat i j := rfl
@[simp] theorem State.setCore_setting (i j d : Nat) : (s.setCore c k).setting i j d = s.setting i j d := rfl
end setCore

section modCore
variable (s : State) (c : Nat) (f : Core → Core)
@[simp] theorem State.modCore_clock : (s.modCore c f).clock = s.clock := rfl
@[simp] theorem State.modCore_howl : (s.modCore c f).howl = s.howl := rfl
@[simp] theorem State.modCore_nonce : (s.modCore c f).nonce = s.nonce := rfl
@[simp] theorem State.modCore_packs : (s.modCore c f).packs = s.packs := rfl
@[simp] theorem State.modCore_progs : (s.modCore c f).progs = s.progs := rfl
@[simp] theorem State.modCore_load : (s.modCore c f).load = s.load := rfl
@[simp] theorem State.modCore_gen : (s.modCore c f).gen = s.gen := rfl
@[simp] theorem State.modCore_ctxs : (s.modCore c f).ctxs = s.ctxs := rfl
@[simp] theorem State.modCore_hbm : (s.modCore c f).hbm = s.hbm := rfl
@[simp] theorem State.modCore_hbmKey : (s.modCore c f).hbmKey = s.hbmKey := rfl
@[simp] theorem State.modCore_hbmStacks : (s.modCore c f).hbmStacks = s.hbmStacks := rfl
@[simp] theorem State.modCore_ports : (s.modCore c f).ports = s.ports := rfl
@[simp] theorem State.modCore_ring : (s.modCore c f).ring = s.ring := rfl
@[simp] theorem State.modCore_job : (s.modCore c f).job = s.job := rfl
@[simp] theorem State.modCore_mirror : (s.modCore c f).mirror = s.mirror := rfl
@[simp] theorem State.modCore_faults : (s.modCore c f).faults = s.faults := rfl
@[simp] theorem State.modCore_stats : (s.modCore c f).stats = s.stats := rfl
@[simp] theorem State.modCore_progress : (s.modCore c f).progress = s.progress := rfl
@[simp] theorem State.modCore_settings : (s.modCore c f).settings = s.settings := rfl
@[simp] theorem State.modCore_statsSat : (s.modCore c f).statsSat = s.statsSat := rfl
@[simp] theorem State.modCore_statsFirst : (s.modCore c f).statsFirst = s.statsFirst := rfl
@[simp] theorem State.modCore_lastMismatchTime : (s.modCore c f).lastMismatchTime = s.lastMismatchTime := rfl
@[simp] theorem State.modCore_lastMismatchPlace : (s.modCore c f).lastMismatchPlace = s.lastMismatchPlace := rfl
@[simp] theorem State.modCore_meshFaultHeld : (s.modCore c f).meshFaultHeld = s.meshFaultHeld := rfl
@[simp] theorem State.modCore_meshFaultTime : (s.modCore c f).meshFaultTime = s.meshFaultTime := rfl
@[simp] theorem State.modCore_meshFault : (s.modCore c f).meshFault = s.meshFault := rfl
@[simp] theorem State.modCore_slipHeld : (s.modCore c f).slipHeld = s.slipHeld := rfl
@[simp] theorem State.modCore_slipTime : (s.modCore c f).slipTime = s.slipTime := rfl
@[simp] theorem State.modCore_slipPlace : (s.modCore c f).slipPlace = s.slipPlace := rfl
@[simp] theorem State.modCore_vet : (s.modCore c f).vet = s.vet := rfl
@[simp] theorem State.modCore_power : (s.modCore c f).power = s.power := rfl
@[simp] theorem State.modCore_env : (s.modCore c f).env = s.env := rfl
@[simp] theorem State.modCore_host : (s.modCore c f).host = s.host := rfl
@[simp] theorem State.modCore_heldRing : (s.modCore c f).heldRing = s.heldRing := rfl
@[simp] theorem State.modCore_mgmt : (s.modCore c f).mgmt = s.mgmt := rfl
@[simp] theorem State.modCore_calib : (s.modCore c f).calib = s.calib := rfl
@[simp] theorem State.modCore_sec : (s.modCore c f).sec = s.sec := rfl
@[simp] theorem State.modCore_upd : (s.modCore c f).upd = s.upd := rfl
@[simp] theorem State.modCore_jtag : (s.modCore c f).jtag = s.jtag := rfl
@[simp] theorem State.modCore_out : (s.modCore c f).out = s.out := rfl
@[simp] theorem State.modCore_pending : (s.modCore c f).pending = s.pending := rfl
/-- What `modCore` wrote reads back. -/
@[simp] theorem State.modCore_self : (s.modCore c f).core c = (f (s.core c)) := tabGet_tabSet_self _ _ _ _
/-- `modCore` leaves every other entry. -/
theorem State.modCore_other {j : Nat} (h : j ≠ c) : (s.modCore c f).core j = s.core j := tabGet_tabSet_other _ _ _ h
/-- Two changes of one entry are one. -/
@[simp] theorem State.modCore_modCore (f2 : Core → Core) : (s.modCore c f).modCore c f2 = s.modCore c (fun x => f2 (f x)) := by
  have h : (s.modCore c f).core c = f (s.core c) := tabGet_tabSet_self _ _ _ _
  simp only [State.modCore, State.setCore, tabSet_tabSet] at *
  simp only [h]
@[simp] theorem State.modCore_pack (j : Nat) : (s.modCore c f).pack j = s.pack j := rfl
@[simp] theorem State.modCore_prog (j : Nat) : (s.modCore c f).prog j = s.prog j := rfl
@[simp] theorem State.modCore_ctx (j : Nat) : (s.modCore c f).ctx j = s.ctx j := rfl
@[simp] theorem State.modCore_stack (j : Nat) : (s.modCore c f).stack j = s.stack j := rfl
@[simp] theorem State.modCore_port (j : Nat) : (s.modCore c f).port j = s.port j := rfl
@[simp] theorem State.modCore_stat (i j : Nat) : (s.modCore c f).stat i j = s.stat i j := rfl
@[simp] theorem State.modCore_setting (i j d : Nat) : (s.modCore c f).setting i j d = s.setting i j d := rfl
end modCore

section setPack
variable (s : State) (p : Nat) (k : Pack)
@[simp] theorem State.setPack_clock : (s.setPack p k).clock = s.clock := rfl
@[simp] theorem State.setPack_howl : (s.setPack p k).howl = s.howl := rfl
@[simp] theorem State.setPack_nonce : (s.setPack p k).nonce = s.nonce := rfl
@[simp] theorem State.setPack_cores : (s.setPack p k).cores = s.cores := rfl
@[simp] theorem State.setPack_progs : (s.setPack p k).progs = s.progs := rfl
@[simp] theorem State.setPack_load : (s.setPack p k).load = s.load := rfl
@[simp] theorem State.setPack_gen : (s.setPack p k).gen = s.gen := rfl
@[simp] theorem State.setPack_ctxs : (s.setPack p k).ctxs = s.ctxs := rfl
@[simp] theorem State.setPack_hbm : (s.setPack p k).hbm = s.hbm := rfl
@[simp] theorem State.setPack_hbmKey : (s.setPack p k).hbmKey = s.hbmKey := rfl
@[simp] theorem State.setPack_hbmStacks : (s.setPack p k).hbmStacks = s.hbmStacks := rfl
@[simp] theorem State.setPack_ports : (s.setPack p k).ports = s.ports := rfl
@[simp] theorem State.setPack_ring : (s.setPack p k).ring = s.ring := rfl
@[simp] theorem State.setPack_job : (s.setPack p k).job = s.job := rfl
@[simp] theorem State.setPack_mirror : (s.setPack p k).mirror = s.mirror := rfl
@[simp] theorem State.setPack_faults : (s.setPack p k).faults = s.faults := rfl
@[simp] theorem State.setPack_stats : (s.setPack p k).stats = s.stats := rfl
@[simp] theorem State.setPack_progress : (s.setPack p k).progress = s.progress := rfl
@[simp] theorem State.setPack_settings : (s.setPack p k).settings = s.settings := rfl
@[simp] theorem State.setPack_statsSat : (s.setPack p k).statsSat = s.statsSat := rfl
@[simp] theorem State.setPack_statsFirst : (s.setPack p k).statsFirst = s.statsFirst := rfl
@[simp] theorem State.setPack_lastMismatchTime : (s.setPack p k).lastMismatchTime = s.lastMismatchTime := rfl
@[simp] theorem State.setPack_lastMismatchPlace : (s.setPack p k).lastMismatchPlace = s.lastMismatchPlace := rfl
@[simp] theorem State.setPack_meshFaultHeld : (s.setPack p k).meshFaultHeld = s.meshFaultHeld := rfl
@[simp] theorem State.setPack_meshFaultTime : (s.setPack p k).meshFaultTime = s.meshFaultTime := rfl
@[simp] theorem State.setPack_meshFault : (s.setPack p k).meshFault = s.meshFault := rfl
@[simp] theorem State.setPack_slipHeld : (s.setPack p k).slipHeld = s.slipHeld := rfl
@[simp] theorem State.setPack_slipTime : (s.setPack p k).slipTime = s.slipTime := rfl
@[simp] theorem State.setPack_slipPlace : (s.setPack p k).slipPlace = s.slipPlace := rfl
@[simp] theorem State.setPack_vet : (s.setPack p k).vet = s.vet := rfl
@[simp] theorem State.setPack_power : (s.setPack p k).power = s.power := rfl
@[simp] theorem State.setPack_env : (s.setPack p k).env = s.env := rfl
@[simp] theorem State.setPack_host : (s.setPack p k).host = s.host := rfl
@[simp] theorem State.setPack_heldRing : (s.setPack p k).heldRing = s.heldRing := rfl
@[simp] theorem State.setPack_mgmt : (s.setPack p k).mgmt = s.mgmt := rfl
@[simp] theorem State.setPack_calib : (s.setPack p k).calib = s.calib := rfl
@[simp] theorem State.setPack_sec : (s.setPack p k).sec = s.sec := rfl
@[simp] theorem State.setPack_upd : (s.setPack p k).upd = s.upd := rfl
@[simp] theorem State.setPack_jtag : (s.setPack p k).jtag = s.jtag := rfl
@[simp] theorem State.setPack_out : (s.setPack p k).out = s.out := rfl
@[simp] theorem State.setPack_pending : (s.setPack p k).pending = s.pending := rfl
/-- What `setPack` wrote reads back. -/
@[simp] theorem State.setPack_self : (s.setPack p k).pack p = k := tabGet_tabSet_self _ _ _ _
/-- `setPack` leaves every other entry. -/
theorem State.setPack_other {j : Nat} (h : j ≠ p) : (s.setPack p k).pack j = s.pack j := tabGet_tabSet_other _ _ _ h
@[simp] theorem State.setPack_core (j : Nat) : (s.setPack p k).core j = s.core j := rfl
@[simp] theorem State.setPack_prog (j : Nat) : (s.setPack p k).prog j = s.prog j := rfl
@[simp] theorem State.setPack_ctx (j : Nat) : (s.setPack p k).ctx j = s.ctx j := rfl
@[simp] theorem State.setPack_stack (j : Nat) : (s.setPack p k).stack j = s.stack j := rfl
@[simp] theorem State.setPack_port (j : Nat) : (s.setPack p k).port j = s.port j := rfl
@[simp] theorem State.setPack_stat (i j : Nat) : (s.setPack p k).stat i j = s.stat i j := rfl
@[simp] theorem State.setPack_setting (i j d : Nat) : (s.setPack p k).setting i j d = s.setting i j d := rfl
end setPack

section modPack
variable (s : State) (p : Nat) (f : Pack → Pack)
@[simp] theorem State.modPack_clock : (s.modPack p f).clock = s.clock := rfl
@[simp] theorem State.modPack_howl : (s.modPack p f).howl = s.howl := rfl
@[simp] theorem State.modPack_nonce : (s.modPack p f).nonce = s.nonce := rfl
@[simp] theorem State.modPack_cores : (s.modPack p f).cores = s.cores := rfl
@[simp] theorem State.modPack_progs : (s.modPack p f).progs = s.progs := rfl
@[simp] theorem State.modPack_load : (s.modPack p f).load = s.load := rfl
@[simp] theorem State.modPack_gen : (s.modPack p f).gen = s.gen := rfl
@[simp] theorem State.modPack_ctxs : (s.modPack p f).ctxs = s.ctxs := rfl
@[simp] theorem State.modPack_hbm : (s.modPack p f).hbm = s.hbm := rfl
@[simp] theorem State.modPack_hbmKey : (s.modPack p f).hbmKey = s.hbmKey := rfl
@[simp] theorem State.modPack_hbmStacks : (s.modPack p f).hbmStacks = s.hbmStacks := rfl
@[simp] theorem State.modPack_ports : (s.modPack p f).ports = s.ports := rfl
@[simp] theorem State.modPack_ring : (s.modPack p f).ring = s.ring := rfl
@[simp] theorem State.modPack_job : (s.modPack p f).job = s.job := rfl
@[simp] theorem State.modPack_mirror : (s.modPack p f).mirror = s.mirror := rfl
@[simp] theorem State.modPack_faults : (s.modPack p f).faults = s.faults := rfl
@[simp] theorem State.modPack_stats : (s.modPack p f).stats = s.stats := rfl
@[simp] theorem State.modPack_progress : (s.modPack p f).progress = s.progress := rfl
@[simp] theorem State.modPack_settings : (s.modPack p f).settings = s.settings := rfl
@[simp] theorem State.modPack_statsSat : (s.modPack p f).statsSat = s.statsSat := rfl
@[simp] theorem State.modPack_statsFirst : (s.modPack p f).statsFirst = s.statsFirst := rfl
@[simp] theorem State.modPack_lastMismatchTime : (s.modPack p f).lastMismatchTime = s.lastMismatchTime := rfl
@[simp] theorem State.modPack_lastMismatchPlace : (s.modPack p f).lastMismatchPlace = s.lastMismatchPlace := rfl
@[simp] theorem State.modPack_meshFaultHeld : (s.modPack p f).meshFaultHeld = s.meshFaultHeld := rfl
@[simp] theorem State.modPack_meshFaultTime : (s.modPack p f).meshFaultTime = s.meshFaultTime := rfl
@[simp] theorem State.modPack_meshFault : (s.modPack p f).meshFault = s.meshFault := rfl
@[simp] theorem State.modPack_slipHeld : (s.modPack p f).slipHeld = s.slipHeld := rfl
@[simp] theorem State.modPack_slipTime : (s.modPack p f).slipTime = s.slipTime := rfl
@[simp] theorem State.modPack_slipPlace : (s.modPack p f).slipPlace = s.slipPlace := rfl
@[simp] theorem State.modPack_vet : (s.modPack p f).vet = s.vet := rfl
@[simp] theorem State.modPack_power : (s.modPack p f).power = s.power := rfl
@[simp] theorem State.modPack_env : (s.modPack p f).env = s.env := rfl
@[simp] theorem State.modPack_host : (s.modPack p f).host = s.host := rfl
@[simp] theorem State.modPack_heldRing : (s.modPack p f).heldRing = s.heldRing := rfl
@[simp] theorem State.modPack_mgmt : (s.modPack p f).mgmt = s.mgmt := rfl
@[simp] theorem State.modPack_calib : (s.modPack p f).calib = s.calib := rfl
@[simp] theorem State.modPack_sec : (s.modPack p f).sec = s.sec := rfl
@[simp] theorem State.modPack_upd : (s.modPack p f).upd = s.upd := rfl
@[simp] theorem State.modPack_jtag : (s.modPack p f).jtag = s.jtag := rfl
@[simp] theorem State.modPack_out : (s.modPack p f).out = s.out := rfl
@[simp] theorem State.modPack_pending : (s.modPack p f).pending = s.pending := rfl
/-- What `modPack` wrote reads back. -/
@[simp] theorem State.modPack_self : (s.modPack p f).pack p = (f (s.pack p)) := tabGet_tabSet_self _ _ _ _
/-- `modPack` leaves every other entry. -/
theorem State.modPack_other {j : Nat} (h : j ≠ p) : (s.modPack p f).pack j = s.pack j := tabGet_tabSet_other _ _ _ h
/-- Two changes of one entry are one. -/
@[simp] theorem State.modPack_modPack (f2 : Pack → Pack) : (s.modPack p f).modPack p f2 = s.modPack p (fun x => f2 (f x)) := by
  have h : (s.modPack p f).pack p = f (s.pack p) := tabGet_tabSet_self _ _ _ _
  simp only [State.modPack, State.setPack, tabSet_tabSet] at *
  simp only [h]
@[simp] theorem State.modPack_core (j : Nat) : (s.modPack p f).core j = s.core j := rfl
@[simp] theorem State.modPack_prog (j : Nat) : (s.modPack p f).prog j = s.prog j := rfl
@[simp] theorem State.modPack_ctx (j : Nat) : (s.modPack p f).ctx j = s.ctx j := rfl
@[simp] theorem State.modPack_stack (j : Nat) : (s.modPack p f).stack j = s.stack j := rfl
@[simp] theorem State.modPack_port (j : Nat) : (s.modPack p f).port j = s.port j := rfl
@[simp] theorem State.modPack_stat (i j : Nat) : (s.modPack p f).stat i j = s.stat i j := rfl
@[simp] theorem State.modPack_setting (i j d : Nat) : (s.modPack p f).setting i j d = s.setting i j d := rfl
end modPack

section setProg
variable (s : State) (g : Nat) (k : Program)
@[simp] theorem State.setProg_clock : (s.setProg g k).clock = s.clock := rfl
@[simp] theorem State.setProg_howl : (s.setProg g k).howl = s.howl := rfl
@[simp] theorem State.setProg_nonce : (s.setProg g k).nonce = s.nonce := rfl
@[simp] theorem State.setProg_cores : (s.setProg g k).cores = s.cores := rfl
@[simp] theorem State.setProg_packs : (s.setProg g k).packs = s.packs := rfl
@[simp] theorem State.setProg_load : (s.setProg g k).load = s.load := rfl
@[simp] theorem State.setProg_gen : (s.setProg g k).gen = s.gen := rfl
@[simp] theorem State.setProg_ctxs : (s.setProg g k).ctxs = s.ctxs := rfl
@[simp] theorem State.setProg_hbm : (s.setProg g k).hbm = s.hbm := rfl
@[simp] theorem State.setProg_hbmKey : (s.setProg g k).hbmKey = s.hbmKey := rfl
@[simp] theorem State.setProg_hbmStacks : (s.setProg g k).hbmStacks = s.hbmStacks := rfl
@[simp] theorem State.setProg_ports : (s.setProg g k).ports = s.ports := rfl
@[simp] theorem State.setProg_ring : (s.setProg g k).ring = s.ring := rfl
@[simp] theorem State.setProg_job : (s.setProg g k).job = s.job := rfl
@[simp] theorem State.setProg_mirror : (s.setProg g k).mirror = s.mirror := rfl
@[simp] theorem State.setProg_faults : (s.setProg g k).faults = s.faults := rfl
@[simp] theorem State.setProg_stats : (s.setProg g k).stats = s.stats := rfl
@[simp] theorem State.setProg_progress : (s.setProg g k).progress = s.progress := rfl
@[simp] theorem State.setProg_settings : (s.setProg g k).settings = s.settings := rfl
@[simp] theorem State.setProg_statsSat : (s.setProg g k).statsSat = s.statsSat := rfl
@[simp] theorem State.setProg_statsFirst : (s.setProg g k).statsFirst = s.statsFirst := rfl
@[simp] theorem State.setProg_lastMismatchTime : (s.setProg g k).lastMismatchTime = s.lastMismatchTime := rfl
@[simp] theorem State.setProg_lastMismatchPlace : (s.setProg g k).lastMismatchPlace = s.lastMismatchPlace := rfl
@[simp] theorem State.setProg_meshFaultHeld : (s.setProg g k).meshFaultHeld = s.meshFaultHeld := rfl
@[simp] theorem State.setProg_meshFaultTime : (s.setProg g k).meshFaultTime = s.meshFaultTime := rfl
@[simp] theorem State.setProg_meshFault : (s.setProg g k).meshFault = s.meshFault := rfl
@[simp] theorem State.setProg_slipHeld : (s.setProg g k).slipHeld = s.slipHeld := rfl
@[simp] theorem State.setProg_slipTime : (s.setProg g k).slipTime = s.slipTime := rfl
@[simp] theorem State.setProg_slipPlace : (s.setProg g k).slipPlace = s.slipPlace := rfl
@[simp] theorem State.setProg_vet : (s.setProg g k).vet = s.vet := rfl
@[simp] theorem State.setProg_power : (s.setProg g k).power = s.power := rfl
@[simp] theorem State.setProg_env : (s.setProg g k).env = s.env := rfl
@[simp] theorem State.setProg_host : (s.setProg g k).host = s.host := rfl
@[simp] theorem State.setProg_heldRing : (s.setProg g k).heldRing = s.heldRing := rfl
@[simp] theorem State.setProg_mgmt : (s.setProg g k).mgmt = s.mgmt := rfl
@[simp] theorem State.setProg_calib : (s.setProg g k).calib = s.calib := rfl
@[simp] theorem State.setProg_sec : (s.setProg g k).sec = s.sec := rfl
@[simp] theorem State.setProg_upd : (s.setProg g k).upd = s.upd := rfl
@[simp] theorem State.setProg_jtag : (s.setProg g k).jtag = s.jtag := rfl
@[simp] theorem State.setProg_out : (s.setProg g k).out = s.out := rfl
@[simp] theorem State.setProg_pending : (s.setProg g k).pending = s.pending := rfl
/-- What `setProg` wrote reads back. -/
@[simp] theorem State.setProg_self : (s.setProg g k).prog g = k := tabGet_tabSet_self _ _ _ _
/-- `setProg` leaves every other entry. -/
theorem State.setProg_other {j : Nat} (h : j ≠ g) : (s.setProg g k).prog j = s.prog j := tabGet_tabSet_other _ _ _ h
@[simp] theorem State.setProg_core (j : Nat) : (s.setProg g k).core j = s.core j := rfl
@[simp] theorem State.setProg_pack (j : Nat) : (s.setProg g k).pack j = s.pack j := rfl
@[simp] theorem State.setProg_ctx (j : Nat) : (s.setProg g k).ctx j = s.ctx j := rfl
@[simp] theorem State.setProg_stack (j : Nat) : (s.setProg g k).stack j = s.stack j := rfl
@[simp] theorem State.setProg_port (j : Nat) : (s.setProg g k).port j = s.port j := rfl
@[simp] theorem State.setProg_stat (i j : Nat) : (s.setProg g k).stat i j = s.stat i j := rfl
@[simp] theorem State.setProg_setting (i j d : Nat) : (s.setProg g k).setting i j d = s.setting i j d := rfl
end setProg

section modProg
variable (s : State) (g : Nat) (f : Program → Program)
@[simp] theorem State.modProg_clock : (s.modProg g f).clock = s.clock := rfl
@[simp] theorem State.modProg_howl : (s.modProg g f).howl = s.howl := rfl
@[simp] theorem State.modProg_nonce : (s.modProg g f).nonce = s.nonce := rfl
@[simp] theorem State.modProg_cores : (s.modProg g f).cores = s.cores := rfl
@[simp] theorem State.modProg_packs : (s.modProg g f).packs = s.packs := rfl
@[simp] theorem State.modProg_load : (s.modProg g f).load = s.load := rfl
@[simp] theorem State.modProg_gen : (s.modProg g f).gen = s.gen := rfl
@[simp] theorem State.modProg_ctxs : (s.modProg g f).ctxs = s.ctxs := rfl
@[simp] theorem State.modProg_hbm : (s.modProg g f).hbm = s.hbm := rfl
@[simp] theorem State.modProg_hbmKey : (s.modProg g f).hbmKey = s.hbmKey := rfl
@[simp] theorem State.modProg_hbmStacks : (s.modProg g f).hbmStacks = s.hbmStacks := rfl
@[simp] theorem State.modProg_ports : (s.modProg g f).ports = s.ports := rfl
@[simp] theorem State.modProg_ring : (s.modProg g f).ring = s.ring := rfl
@[simp] theorem State.modProg_job : (s.modProg g f).job = s.job := rfl
@[simp] theorem State.modProg_mirror : (s.modProg g f).mirror = s.mirror := rfl
@[simp] theorem State.modProg_faults : (s.modProg g f).faults = s.faults := rfl
@[simp] theorem State.modProg_stats : (s.modProg g f).stats = s.stats := rfl
@[simp] theorem State.modProg_progress : (s.modProg g f).progress = s.progress := rfl
@[simp] theorem State.modProg_settings : (s.modProg g f).settings = s.settings := rfl
@[simp] theorem State.modProg_statsSat : (s.modProg g f).statsSat = s.statsSat := rfl
@[simp] theorem State.modProg_statsFirst : (s.modProg g f).statsFirst = s.statsFirst := rfl
@[simp] theorem State.modProg_lastMismatchTime : (s.modProg g f).lastMismatchTime = s.lastMismatchTime := rfl
@[simp] theorem State.modProg_lastMismatchPlace : (s.modProg g f).lastMismatchPlace = s.lastMismatchPlace := rfl
@[simp] theorem State.modProg_meshFaultHeld : (s.modProg g f).meshFaultHeld = s.meshFaultHeld := rfl
@[simp] theorem State.modProg_meshFaultTime : (s.modProg g f).meshFaultTime = s.meshFaultTime := rfl
@[simp] theorem State.modProg_meshFault : (s.modProg g f).meshFault = s.meshFault := rfl
@[simp] theorem State.modProg_slipHeld : (s.modProg g f).slipHeld = s.slipHeld := rfl
@[simp] theorem State.modProg_slipTime : (s.modProg g f).slipTime = s.slipTime := rfl
@[simp] theorem State.modProg_slipPlace : (s.modProg g f).slipPlace = s.slipPlace := rfl
@[simp] theorem State.modProg_vet : (s.modProg g f).vet = s.vet := rfl
@[simp] theorem State.modProg_power : (s.modProg g f).power = s.power := rfl
@[simp] theorem State.modProg_env : (s.modProg g f).env = s.env := rfl
@[simp] theorem State.modProg_host : (s.modProg g f).host = s.host := rfl
@[simp] theorem State.modProg_heldRing : (s.modProg g f).heldRing = s.heldRing := rfl
@[simp] theorem State.modProg_mgmt : (s.modProg g f).mgmt = s.mgmt := rfl
@[simp] theorem State.modProg_calib : (s.modProg g f).calib = s.calib := rfl
@[simp] theorem State.modProg_sec : (s.modProg g f).sec = s.sec := rfl
@[simp] theorem State.modProg_upd : (s.modProg g f).upd = s.upd := rfl
@[simp] theorem State.modProg_jtag : (s.modProg g f).jtag = s.jtag := rfl
@[simp] theorem State.modProg_out : (s.modProg g f).out = s.out := rfl
@[simp] theorem State.modProg_pending : (s.modProg g f).pending = s.pending := rfl
/-- What `modProg` wrote reads back. -/
@[simp] theorem State.modProg_self : (s.modProg g f).prog g = (f (s.prog g)) := tabGet_tabSet_self _ _ _ _
/-- `modProg` leaves every other entry. -/
theorem State.modProg_other {j : Nat} (h : j ≠ g) : (s.modProg g f).prog j = s.prog j := tabGet_tabSet_other _ _ _ h
/-- Two changes of one entry are one. -/
@[simp] theorem State.modProg_modProg (f2 : Program → Program) : (s.modProg g f).modProg g f2 = s.modProg g (fun x => f2 (f x)) := by
  have h : (s.modProg g f).prog g = f (s.prog g) := tabGet_tabSet_self _ _ _ _
  simp only [State.modProg, State.setProg, tabSet_tabSet] at *
  simp only [h]
@[simp] theorem State.modProg_core (j : Nat) : (s.modProg g f).core j = s.core j := rfl
@[simp] theorem State.modProg_pack (j : Nat) : (s.modProg g f).pack j = s.pack j := rfl
@[simp] theorem State.modProg_ctx (j : Nat) : (s.modProg g f).ctx j = s.ctx j := rfl
@[simp] theorem State.modProg_stack (j : Nat) : (s.modProg g f).stack j = s.stack j := rfl
@[simp] theorem State.modProg_port (j : Nat) : (s.modProg g f).port j = s.port j := rfl
@[simp] theorem State.modProg_stat (i j : Nat) : (s.modProg g f).stat i j = s.stat i j := rfl
@[simp] theorem State.modProg_setting (i j d : Nat) : (s.modProg g f).setting i j d = s.setting i j d := rfl
end modProg

section setCtx
variable (s : State) (n : Nat) (k : Ctx)
@[simp] theorem State.setCtx_clock : (s.setCtx n k).clock = s.clock := rfl
@[simp] theorem State.setCtx_howl : (s.setCtx n k).howl = s.howl := rfl
@[simp] theorem State.setCtx_nonce : (s.setCtx n k).nonce = s.nonce := rfl
@[simp] theorem State.setCtx_cores : (s.setCtx n k).cores = s.cores := rfl
@[simp] theorem State.setCtx_packs : (s.setCtx n k).packs = s.packs := rfl
@[simp] theorem State.setCtx_progs : (s.setCtx n k).progs = s.progs := rfl
@[simp] theorem State.setCtx_load : (s.setCtx n k).load = s.load := rfl
@[simp] theorem State.setCtx_gen : (s.setCtx n k).gen = s.gen := rfl
@[simp] theorem State.setCtx_hbm : (s.setCtx n k).hbm = s.hbm := rfl
@[simp] theorem State.setCtx_hbmKey : (s.setCtx n k).hbmKey = s.hbmKey := rfl
@[simp] theorem State.setCtx_hbmStacks : (s.setCtx n k).hbmStacks = s.hbmStacks := rfl
@[simp] theorem State.setCtx_ports : (s.setCtx n k).ports = s.ports := rfl
@[simp] theorem State.setCtx_ring : (s.setCtx n k).ring = s.ring := rfl
@[simp] theorem State.setCtx_job : (s.setCtx n k).job = s.job := rfl
@[simp] theorem State.setCtx_mirror : (s.setCtx n k).mirror = s.mirror := rfl
@[simp] theorem State.setCtx_faults : (s.setCtx n k).faults = s.faults := rfl
@[simp] theorem State.setCtx_stats : (s.setCtx n k).stats = s.stats := rfl
@[simp] theorem State.setCtx_progress : (s.setCtx n k).progress = s.progress := rfl
@[simp] theorem State.setCtx_settings : (s.setCtx n k).settings = s.settings := rfl
@[simp] theorem State.setCtx_statsSat : (s.setCtx n k).statsSat = s.statsSat := rfl
@[simp] theorem State.setCtx_statsFirst : (s.setCtx n k).statsFirst = s.statsFirst := rfl
@[simp] theorem State.setCtx_lastMismatchTime : (s.setCtx n k).lastMismatchTime = s.lastMismatchTime := rfl
@[simp] theorem State.setCtx_lastMismatchPlace : (s.setCtx n k).lastMismatchPlace = s.lastMismatchPlace := rfl
@[simp] theorem State.setCtx_meshFaultHeld : (s.setCtx n k).meshFaultHeld = s.meshFaultHeld := rfl
@[simp] theorem State.setCtx_meshFaultTime : (s.setCtx n k).meshFaultTime = s.meshFaultTime := rfl
@[simp] theorem State.setCtx_meshFault : (s.setCtx n k).meshFault = s.meshFault := rfl
@[simp] theorem State.setCtx_slipHeld : (s.setCtx n k).slipHeld = s.slipHeld := rfl
@[simp] theorem State.setCtx_slipTime : (s.setCtx n k).slipTime = s.slipTime := rfl
@[simp] theorem State.setCtx_slipPlace : (s.setCtx n k).slipPlace = s.slipPlace := rfl
@[simp] theorem State.setCtx_vet : (s.setCtx n k).vet = s.vet := rfl
@[simp] theorem State.setCtx_power : (s.setCtx n k).power = s.power := rfl
@[simp] theorem State.setCtx_env : (s.setCtx n k).env = s.env := rfl
@[simp] theorem State.setCtx_host : (s.setCtx n k).host = s.host := rfl
@[simp] theorem State.setCtx_heldRing : (s.setCtx n k).heldRing = s.heldRing := rfl
@[simp] theorem State.setCtx_mgmt : (s.setCtx n k).mgmt = s.mgmt := rfl
@[simp] theorem State.setCtx_calib : (s.setCtx n k).calib = s.calib := rfl
@[simp] theorem State.setCtx_sec : (s.setCtx n k).sec = s.sec := rfl
@[simp] theorem State.setCtx_upd : (s.setCtx n k).upd = s.upd := rfl
@[simp] theorem State.setCtx_jtag : (s.setCtx n k).jtag = s.jtag := rfl
@[simp] theorem State.setCtx_out : (s.setCtx n k).out = s.out := rfl
@[simp] theorem State.setCtx_pending : (s.setCtx n k).pending = s.pending := rfl
/-- What `setCtx` wrote reads back. -/
@[simp] theorem State.setCtx_self : (s.setCtx n k).ctx n = k := tabGet_tabSet_self _ _ _ _
/-- `setCtx` leaves every other entry. -/
theorem State.setCtx_other {j : Nat} (h : j ≠ n) : (s.setCtx n k).ctx j = s.ctx j := tabGet_tabSet_other _ _ _ h
@[simp] theorem State.setCtx_core (j : Nat) : (s.setCtx n k).core j = s.core j := rfl
@[simp] theorem State.setCtx_pack (j : Nat) : (s.setCtx n k).pack j = s.pack j := rfl
@[simp] theorem State.setCtx_prog (j : Nat) : (s.setCtx n k).prog j = s.prog j := rfl
@[simp] theorem State.setCtx_stack (j : Nat) : (s.setCtx n k).stack j = s.stack j := rfl
@[simp] theorem State.setCtx_port (j : Nat) : (s.setCtx n k).port j = s.port j := rfl
@[simp] theorem State.setCtx_stat (i j : Nat) : (s.setCtx n k).stat i j = s.stat i j := rfl
@[simp] theorem State.setCtx_setting (i j d : Nat) : (s.setCtx n k).setting i j d = s.setting i j d := rfl
end setCtx

section modCtx
variable (s : State) (n : Nat) (f : Ctx → Ctx)
@[simp] theorem State.modCtx_clock : (s.modCtx n f).clock = s.clock := rfl
@[simp] theorem State.modCtx_howl : (s.modCtx n f).howl = s.howl := rfl
@[simp] theorem State.modCtx_nonce : (s.modCtx n f).nonce = s.nonce := rfl
@[simp] theorem State.modCtx_cores : (s.modCtx n f).cores = s.cores := rfl
@[simp] theorem State.modCtx_packs : (s.modCtx n f).packs = s.packs := rfl
@[simp] theorem State.modCtx_progs : (s.modCtx n f).progs = s.progs := rfl
@[simp] theorem State.modCtx_load : (s.modCtx n f).load = s.load := rfl
@[simp] theorem State.modCtx_gen : (s.modCtx n f).gen = s.gen := rfl
@[simp] theorem State.modCtx_hbm : (s.modCtx n f).hbm = s.hbm := rfl
@[simp] theorem State.modCtx_hbmKey : (s.modCtx n f).hbmKey = s.hbmKey := rfl
@[simp] theorem State.modCtx_hbmStacks : (s.modCtx n f).hbmStacks = s.hbmStacks := rfl
@[simp] theorem State.modCtx_ports : (s.modCtx n f).ports = s.ports := rfl
@[simp] theorem State.modCtx_ring : (s.modCtx n f).ring = s.ring := rfl
@[simp] theorem State.modCtx_job : (s.modCtx n f).job = s.job := rfl
@[simp] theorem State.modCtx_mirror : (s.modCtx n f).mirror = s.mirror := rfl
@[simp] theorem State.modCtx_faults : (s.modCtx n f).faults = s.faults := rfl
@[simp] theorem State.modCtx_stats : (s.modCtx n f).stats = s.stats := rfl
@[simp] theorem State.modCtx_progress : (s.modCtx n f).progress = s.progress := rfl
@[simp] theorem State.modCtx_settings : (s.modCtx n f).settings = s.settings := rfl
@[simp] theorem State.modCtx_statsSat : (s.modCtx n f).statsSat = s.statsSat := rfl
@[simp] theorem State.modCtx_statsFirst : (s.modCtx n f).statsFirst = s.statsFirst := rfl
@[simp] theorem State.modCtx_lastMismatchTime : (s.modCtx n f).lastMismatchTime = s.lastMismatchTime := rfl
@[simp] theorem State.modCtx_lastMismatchPlace : (s.modCtx n f).lastMismatchPlace = s.lastMismatchPlace := rfl
@[simp] theorem State.modCtx_meshFaultHeld : (s.modCtx n f).meshFaultHeld = s.meshFaultHeld := rfl
@[simp] theorem State.modCtx_meshFaultTime : (s.modCtx n f).meshFaultTime = s.meshFaultTime := rfl
@[simp] theorem State.modCtx_meshFault : (s.modCtx n f).meshFault = s.meshFault := rfl
@[simp] theorem State.modCtx_slipHeld : (s.modCtx n f).slipHeld = s.slipHeld := rfl
@[simp] theorem State.modCtx_slipTime : (s.modCtx n f).slipTime = s.slipTime := rfl
@[simp] theorem State.modCtx_slipPlace : (s.modCtx n f).slipPlace = s.slipPlace := rfl
@[simp] theorem State.modCtx_vet : (s.modCtx n f).vet = s.vet := rfl
@[simp] theorem State.modCtx_power : (s.modCtx n f).power = s.power := rfl
@[simp] theorem State.modCtx_env : (s.modCtx n f).env = s.env := rfl
@[simp] theorem State.modCtx_host : (s.modCtx n f).host = s.host := rfl
@[simp] theorem State.modCtx_heldRing : (s.modCtx n f).heldRing = s.heldRing := rfl
@[simp] theorem State.modCtx_mgmt : (s.modCtx n f).mgmt = s.mgmt := rfl
@[simp] theorem State.modCtx_calib : (s.modCtx n f).calib = s.calib := rfl
@[simp] theorem State.modCtx_sec : (s.modCtx n f).sec = s.sec := rfl
@[simp] theorem State.modCtx_upd : (s.modCtx n f).upd = s.upd := rfl
@[simp] theorem State.modCtx_jtag : (s.modCtx n f).jtag = s.jtag := rfl
@[simp] theorem State.modCtx_out : (s.modCtx n f).out = s.out := rfl
@[simp] theorem State.modCtx_pending : (s.modCtx n f).pending = s.pending := rfl
/-- What `modCtx` wrote reads back. -/
@[simp] theorem State.modCtx_self : (s.modCtx n f).ctx n = (f (s.ctx n)) := tabGet_tabSet_self _ _ _ _
/-- `modCtx` leaves every other entry. -/
theorem State.modCtx_other {j : Nat} (h : j ≠ n) : (s.modCtx n f).ctx j = s.ctx j := tabGet_tabSet_other _ _ _ h
/-- Two changes of one entry are one. -/
@[simp] theorem State.modCtx_modCtx (f2 : Ctx → Ctx) : (s.modCtx n f).modCtx n f2 = s.modCtx n (fun x => f2 (f x)) := by
  have h : (s.modCtx n f).ctx n = f (s.ctx n) := tabGet_tabSet_self _ _ _ _
  simp only [State.modCtx, State.setCtx, tabSet_tabSet] at *
  simp only [h]
@[simp] theorem State.modCtx_core (j : Nat) : (s.modCtx n f).core j = s.core j := rfl
@[simp] theorem State.modCtx_pack (j : Nat) : (s.modCtx n f).pack j = s.pack j := rfl
@[simp] theorem State.modCtx_prog (j : Nat) : (s.modCtx n f).prog j = s.prog j := rfl
@[simp] theorem State.modCtx_stack (j : Nat) : (s.modCtx n f).stack j = s.stack j := rfl
@[simp] theorem State.modCtx_port (j : Nat) : (s.modCtx n f).port j = s.port j := rfl
@[simp] theorem State.modCtx_stat (i j : Nat) : (s.modCtx n f).stat i j = s.stat i j := rfl
@[simp] theorem State.modCtx_setting (i j d : Nat) : (s.modCtx n f).setting i j d = s.setting i j d := rfl
end modCtx

section setStack
variable (s : State) (n : Nat) (k : Stack)
@[simp] theorem State.setStack_clock : (s.setStack n k).clock = s.clock := rfl
@[simp] theorem State.setStack_howl : (s.setStack n k).howl = s.howl := rfl
@[simp] theorem State.setStack_nonce : (s.setStack n k).nonce = s.nonce := rfl
@[simp] theorem State.setStack_cores : (s.setStack n k).cores = s.cores := rfl
@[simp] theorem State.setStack_packs : (s.setStack n k).packs = s.packs := rfl
@[simp] theorem State.setStack_progs : (s.setStack n k).progs = s.progs := rfl
@[simp] theorem State.setStack_load : (s.setStack n k).load = s.load := rfl
@[simp] theorem State.setStack_gen : (s.setStack n k).gen = s.gen := rfl
@[simp] theorem State.setStack_ctxs : (s.setStack n k).ctxs = s.ctxs := rfl
@[simp] theorem State.setStack_hbm : (s.setStack n k).hbm = s.hbm := rfl
@[simp] theorem State.setStack_hbmKey : (s.setStack n k).hbmKey = s.hbmKey := rfl
@[simp] theorem State.setStack_ports : (s.setStack n k).ports = s.ports := rfl
@[simp] theorem State.setStack_ring : (s.setStack n k).ring = s.ring := rfl
@[simp] theorem State.setStack_job : (s.setStack n k).job = s.job := rfl
@[simp] theorem State.setStack_mirror : (s.setStack n k).mirror = s.mirror := rfl
@[simp] theorem State.setStack_faults : (s.setStack n k).faults = s.faults := rfl
@[simp] theorem State.setStack_stats : (s.setStack n k).stats = s.stats := rfl
@[simp] theorem State.setStack_progress : (s.setStack n k).progress = s.progress := rfl
@[simp] theorem State.setStack_settings : (s.setStack n k).settings = s.settings := rfl
@[simp] theorem State.setStack_statsSat : (s.setStack n k).statsSat = s.statsSat := rfl
@[simp] theorem State.setStack_statsFirst : (s.setStack n k).statsFirst = s.statsFirst := rfl
@[simp] theorem State.setStack_lastMismatchTime : (s.setStack n k).lastMismatchTime = s.lastMismatchTime := rfl
@[simp] theorem State.setStack_lastMismatchPlace : (s.setStack n k).lastMismatchPlace = s.lastMismatchPlace := rfl
@[simp] theorem State.setStack_meshFaultHeld : (s.setStack n k).meshFaultHeld = s.meshFaultHeld := rfl
@[simp] theorem State.setStack_meshFaultTime : (s.setStack n k).meshFaultTime = s.meshFaultTime := rfl
@[simp] theorem State.setStack_meshFault : (s.setStack n k).meshFault = s.meshFault := rfl
@[simp] theorem State.setStack_slipHeld : (s.setStack n k).slipHeld = s.slipHeld := rfl
@[simp] theorem State.setStack_slipTime : (s.setStack n k).slipTime = s.slipTime := rfl
@[simp] theorem State.setStack_slipPlace : (s.setStack n k).slipPlace = s.slipPlace := rfl
@[simp] theorem State.setStack_vet : (s.setStack n k).vet = s.vet := rfl
@[simp] theorem State.setStack_power : (s.setStack n k).power = s.power := rfl
@[simp] theorem State.setStack_env : (s.setStack n k).env = s.env := rfl
@[simp] theorem State.setStack_host : (s.setStack n k).host = s.host := rfl
@[simp] theorem State.setStack_heldRing : (s.setStack n k).heldRing = s.heldRing := rfl
@[simp] theorem State.setStack_mgmt : (s.setStack n k).mgmt = s.mgmt := rfl
@[simp] theorem State.setStack_calib : (s.setStack n k).calib = s.calib := rfl
@[simp] theorem State.setStack_sec : (s.setStack n k).sec = s.sec := rfl
@[simp] theorem State.setStack_upd : (s.setStack n k).upd = s.upd := rfl
@[simp] theorem State.setStack_jtag : (s.setStack n k).jtag = s.jtag := rfl
@[simp] theorem State.setStack_out : (s.setStack n k).out = s.out := rfl
@[simp] theorem State.setStack_pending : (s.setStack n k).pending = s.pending := rfl
/-- What `setStack` wrote reads back. -/
@[simp] theorem State.setStack_self : (s.setStack n k).stack n = k := tabGet_tabSet_self _ _ _ _
/-- `setStack` leaves every other entry. -/
theorem State.setStack_other {j : Nat} (h : j ≠ n) : (s.setStack n k).stack j = s.stack j := tabGet_tabSet_other _ _ _ h
@[simp] theorem State.setStack_core (j : Nat) : (s.setStack n k).core j = s.core j := rfl
@[simp] theorem State.setStack_pack (j : Nat) : (s.setStack n k).pack j = s.pack j := rfl
@[simp] theorem State.setStack_prog (j : Nat) : (s.setStack n k).prog j = s.prog j := rfl
@[simp] theorem State.setStack_ctx (j : Nat) : (s.setStack n k).ctx j = s.ctx j := rfl
@[simp] theorem State.setStack_port (j : Nat) : (s.setStack n k).port j = s.port j := rfl
@[simp] theorem State.setStack_stat (i j : Nat) : (s.setStack n k).stat i j = s.stat i j := rfl
@[simp] theorem State.setStack_setting (i j d : Nat) : (s.setStack n k).setting i j d = s.setting i j d := rfl
end setStack

section modStack
variable (s : State) (n : Nat) (f : Stack → Stack)
@[simp] theorem State.modStack_clock : (s.modStack n f).clock = s.clock := rfl
@[simp] theorem State.modStack_howl : (s.modStack n f).howl = s.howl := rfl
@[simp] theorem State.modStack_nonce : (s.modStack n f).nonce = s.nonce := rfl
@[simp] theorem State.modStack_cores : (s.modStack n f).cores = s.cores := rfl
@[simp] theorem State.modStack_packs : (s.modStack n f).packs = s.packs := rfl
@[simp] theorem State.modStack_progs : (s.modStack n f).progs = s.progs := rfl
@[simp] theorem State.modStack_load : (s.modStack n f).load = s.load := rfl
@[simp] theorem State.modStack_gen : (s.modStack n f).gen = s.gen := rfl
@[simp] theorem State.modStack_ctxs : (s.modStack n f).ctxs = s.ctxs := rfl
@[simp] theorem State.modStack_hbm : (s.modStack n f).hbm = s.hbm := rfl
@[simp] theorem State.modStack_hbmKey : (s.modStack n f).hbmKey = s.hbmKey := rfl
@[simp] theorem State.modStack_ports : (s.modStack n f).ports = s.ports := rfl
@[simp] theorem State.modStack_ring : (s.modStack n f).ring = s.ring := rfl
@[simp] theorem State.modStack_job : (s.modStack n f).job = s.job := rfl
@[simp] theorem State.modStack_mirror : (s.modStack n f).mirror = s.mirror := rfl
@[simp] theorem State.modStack_faults : (s.modStack n f).faults = s.faults := rfl
@[simp] theorem State.modStack_stats : (s.modStack n f).stats = s.stats := rfl
@[simp] theorem State.modStack_progress : (s.modStack n f).progress = s.progress := rfl
@[simp] theorem State.modStack_settings : (s.modStack n f).settings = s.settings := rfl
@[simp] theorem State.modStack_statsSat : (s.modStack n f).statsSat = s.statsSat := rfl
@[simp] theorem State.modStack_statsFirst : (s.modStack n f).statsFirst = s.statsFirst := rfl
@[simp] theorem State.modStack_lastMismatchTime : (s.modStack n f).lastMismatchTime = s.lastMismatchTime := rfl
@[simp] theorem State.modStack_lastMismatchPlace : (s.modStack n f).lastMismatchPlace = s.lastMismatchPlace := rfl
@[simp] theorem State.modStack_meshFaultHeld : (s.modStack n f).meshFaultHeld = s.meshFaultHeld := rfl
@[simp] theorem State.modStack_meshFaultTime : (s.modStack n f).meshFaultTime = s.meshFaultTime := rfl
@[simp] theorem State.modStack_meshFault : (s.modStack n f).meshFault = s.meshFault := rfl
@[simp] theorem State.modStack_slipHeld : (s.modStack n f).slipHeld = s.slipHeld := rfl
@[simp] theorem State.modStack_slipTime : (s.modStack n f).slipTime = s.slipTime := rfl
@[simp] theorem State.modStack_slipPlace : (s.modStack n f).slipPlace = s.slipPlace := rfl
@[simp] theorem State.modStack_vet : (s.modStack n f).vet = s.vet := rfl
@[simp] theorem State.modStack_power : (s.modStack n f).power = s.power := rfl
@[simp] theorem State.modStack_env : (s.modStack n f).env = s.env := rfl
@[simp] theorem State.modStack_host : (s.modStack n f).host = s.host := rfl
@[simp] theorem State.modStack_heldRing : (s.modStack n f).heldRing = s.heldRing := rfl
@[simp] theorem State.modStack_mgmt : (s.modStack n f).mgmt = s.mgmt := rfl
@[simp] theorem State.modStack_calib : (s.modStack n f).calib = s.calib := rfl
@[simp] theorem State.modStack_sec : (s.modStack n f).sec = s.sec := rfl
@[simp] theorem State.modStack_upd : (s.modStack n f).upd = s.upd := rfl
@[simp] theorem State.modStack_jtag : (s.modStack n f).jtag = s.jtag := rfl
@[simp] theorem State.modStack_out : (s.modStack n f).out = s.out := rfl
@[simp] theorem State.modStack_pending : (s.modStack n f).pending = s.pending := rfl
/-- What `modStack` wrote reads back. -/
@[simp] theorem State.modStack_self : (s.modStack n f).stack n = (f (s.stack n)) := tabGet_tabSet_self _ _ _ _
/-- `modStack` leaves every other entry. -/
theorem State.modStack_other {j : Nat} (h : j ≠ n) : (s.modStack n f).stack j = s.stack j := tabGet_tabSet_other _ _ _ h
/-- Two changes of one entry are one. -/
@[simp] theorem State.modStack_modStack (f2 : Stack → Stack) : (s.modStack n f).modStack n f2 = s.modStack n (fun x => f2 (f x)) := by
  have h : (s.modStack n f).stack n = f (s.stack n) := tabGet_tabSet_self _ _ _ _
  simp only [State.modStack, State.setStack, tabSet_tabSet] at *
  simp only [h]
@[simp] theorem State.modStack_core (j : Nat) : (s.modStack n f).core j = s.core j := rfl
@[simp] theorem State.modStack_pack (j : Nat) : (s.modStack n f).pack j = s.pack j := rfl
@[simp] theorem State.modStack_prog (j : Nat) : (s.modStack n f).prog j = s.prog j := rfl
@[simp] theorem State.modStack_ctx (j : Nat) : (s.modStack n f).ctx j = s.ctx j := rfl
@[simp] theorem State.modStack_port (j : Nat) : (s.modStack n f).port j = s.port j := rfl
@[simp] theorem State.modStack_stat (i j : Nat) : (s.modStack n f).stat i j = s.stat i j := rfl
@[simp] theorem State.modStack_setting (i j d : Nat) : (s.modStack n f).setting i j d = s.setting i j d := rfl
end modStack

section setPort
variable (s : State) (n : Nat) (k : Port)
@[simp] theorem State.setPort_clock : (s.setPort n k).clock = s.clock := rfl
@[simp] theorem State.setPort_howl : (s.setPort n k).howl = s.howl := rfl
@[simp] theorem State.setPort_nonce : (s.setPort n k).nonce = s.nonce := rfl
@[simp] theorem State.setPort_cores : (s.setPort n k).cores = s.cores := rfl
@[simp] theorem State.setPort_packs : (s.setPort n k).packs = s.packs := rfl
@[simp] theorem State.setPort_progs : (s.setPort n k).progs = s.progs := rfl
@[simp] theorem State.setPort_load : (s.setPort n k).load = s.load := rfl
@[simp] theorem State.setPort_gen : (s.setPort n k).gen = s.gen := rfl
@[simp] theorem State.setPort_ctxs : (s.setPort n k).ctxs = s.ctxs := rfl
@[simp] theorem State.setPort_hbm : (s.setPort n k).hbm = s.hbm := rfl
@[simp] theorem State.setPort_hbmKey : (s.setPort n k).hbmKey = s.hbmKey := rfl
@[simp] theorem State.setPort_hbmStacks : (s.setPort n k).hbmStacks = s.hbmStacks := rfl
@[simp] theorem State.setPort_ring : (s.setPort n k).ring = s.ring := rfl
@[simp] theorem State.setPort_job : (s.setPort n k).job = s.job := rfl
@[simp] theorem State.setPort_mirror : (s.setPort n k).mirror = s.mirror := rfl
@[simp] theorem State.setPort_faults : (s.setPort n k).faults = s.faults := rfl
@[simp] theorem State.setPort_stats : (s.setPort n k).stats = s.stats := rfl
@[simp] theorem State.setPort_progress : (s.setPort n k).progress = s.progress := rfl
@[simp] theorem State.setPort_settings : (s.setPort n k).settings = s.settings := rfl
@[simp] theorem State.setPort_statsSat : (s.setPort n k).statsSat = s.statsSat := rfl
@[simp] theorem State.setPort_statsFirst : (s.setPort n k).statsFirst = s.statsFirst := rfl
@[simp] theorem State.setPort_lastMismatchTime : (s.setPort n k).lastMismatchTime = s.lastMismatchTime := rfl
@[simp] theorem State.setPort_lastMismatchPlace : (s.setPort n k).lastMismatchPlace = s.lastMismatchPlace := rfl
@[simp] theorem State.setPort_meshFaultHeld : (s.setPort n k).meshFaultHeld = s.meshFaultHeld := rfl
@[simp] theorem State.setPort_meshFaultTime : (s.setPort n k).meshFaultTime = s.meshFaultTime := rfl
@[simp] theorem State.setPort_meshFault : (s.setPort n k).meshFault = s.meshFault := rfl
@[simp] theorem State.setPort_slipHeld : (s.setPort n k).slipHeld = s.slipHeld := rfl
@[simp] theorem State.setPort_slipTime : (s.setPort n k).slipTime = s.slipTime := rfl
@[simp] theorem State.setPort_slipPlace : (s.setPort n k).slipPlace = s.slipPlace := rfl
@[simp] theorem State.setPort_vet : (s.setPort n k).vet = s.vet := rfl
@[simp] theorem State.setPort_power : (s.setPort n k).power = s.power := rfl
@[simp] theorem State.setPort_env : (s.setPort n k).env = s.env := rfl
@[simp] theorem State.setPort_host : (s.setPort n k).host = s.host := rfl
@[simp] theorem State.setPort_heldRing : (s.setPort n k).heldRing = s.heldRing := rfl
@[simp] theorem State.setPort_mgmt : (s.setPort n k).mgmt = s.mgmt := rfl
@[simp] theorem State.setPort_calib : (s.setPort n k).calib = s.calib := rfl
@[simp] theorem State.setPort_sec : (s.setPort n k).sec = s.sec := rfl
@[simp] theorem State.setPort_upd : (s.setPort n k).upd = s.upd := rfl
@[simp] theorem State.setPort_jtag : (s.setPort n k).jtag = s.jtag := rfl
@[simp] theorem State.setPort_out : (s.setPort n k).out = s.out := rfl
@[simp] theorem State.setPort_pending : (s.setPort n k).pending = s.pending := rfl
/-- What `setPort` wrote reads back. -/
@[simp] theorem State.setPort_self : (s.setPort n k).port n = k := tabGet_tabSet_self _ _ _ _
/-- `setPort` leaves every other entry. -/
theorem State.setPort_other {j : Nat} (h : j ≠ n) : (s.setPort n k).port j = s.port j := tabGet_tabSet_other _ _ _ h
@[simp] theorem State.setPort_core (j : Nat) : (s.setPort n k).core j = s.core j := rfl
@[simp] theorem State.setPort_pack (j : Nat) : (s.setPort n k).pack j = s.pack j := rfl
@[simp] theorem State.setPort_prog (j : Nat) : (s.setPort n k).prog j = s.prog j := rfl
@[simp] theorem State.setPort_ctx (j : Nat) : (s.setPort n k).ctx j = s.ctx j := rfl
@[simp] theorem State.setPort_stack (j : Nat) : (s.setPort n k).stack j = s.stack j := rfl
@[simp] theorem State.setPort_stat (i j : Nat) : (s.setPort n k).stat i j = s.stat i j := rfl
@[simp] theorem State.setPort_setting (i j d : Nat) : (s.setPort n k).setting i j d = s.setting i j d := rfl
end setPort

section modPort
variable (s : State) (n : Nat) (f : Port → Port)
@[simp] theorem State.modPort_clock : (s.modPort n f).clock = s.clock := rfl
@[simp] theorem State.modPort_howl : (s.modPort n f).howl = s.howl := rfl
@[simp] theorem State.modPort_nonce : (s.modPort n f).nonce = s.nonce := rfl
@[simp] theorem State.modPort_cores : (s.modPort n f).cores = s.cores := rfl
@[simp] theorem State.modPort_packs : (s.modPort n f).packs = s.packs := rfl
@[simp] theorem State.modPort_progs : (s.modPort n f).progs = s.progs := rfl
@[simp] theorem State.modPort_load : (s.modPort n f).load = s.load := rfl
@[simp] theorem State.modPort_gen : (s.modPort n f).gen = s.gen := rfl
@[simp] theorem State.modPort_ctxs : (s.modPort n f).ctxs = s.ctxs := rfl
@[simp] theorem State.modPort_hbm : (s.modPort n f).hbm = s.hbm := rfl
@[simp] theorem State.modPort_hbmKey : (s.modPort n f).hbmKey = s.hbmKey := rfl
@[simp] theorem State.modPort_hbmStacks : (s.modPort n f).hbmStacks = s.hbmStacks := rfl
@[simp] theorem State.modPort_ring : (s.modPort n f).ring = s.ring := rfl
@[simp] theorem State.modPort_job : (s.modPort n f).job = s.job := rfl
@[simp] theorem State.modPort_mirror : (s.modPort n f).mirror = s.mirror := rfl
@[simp] theorem State.modPort_faults : (s.modPort n f).faults = s.faults := rfl
@[simp] theorem State.modPort_stats : (s.modPort n f).stats = s.stats := rfl
@[simp] theorem State.modPort_progress : (s.modPort n f).progress = s.progress := rfl
@[simp] theorem State.modPort_settings : (s.modPort n f).settings = s.settings := rfl
@[simp] theorem State.modPort_statsSat : (s.modPort n f).statsSat = s.statsSat := rfl
@[simp] theorem State.modPort_statsFirst : (s.modPort n f).statsFirst = s.statsFirst := rfl
@[simp] theorem State.modPort_lastMismatchTime : (s.modPort n f).lastMismatchTime = s.lastMismatchTime := rfl
@[simp] theorem State.modPort_lastMismatchPlace : (s.modPort n f).lastMismatchPlace = s.lastMismatchPlace := rfl
@[simp] theorem State.modPort_meshFaultHeld : (s.modPort n f).meshFaultHeld = s.meshFaultHeld := rfl
@[simp] theorem State.modPort_meshFaultTime : (s.modPort n f).meshFaultTime = s.meshFaultTime := rfl
@[simp] theorem State.modPort_meshFault : (s.modPort n f).meshFault = s.meshFault := rfl
@[simp] theorem State.modPort_slipHeld : (s.modPort n f).slipHeld = s.slipHeld := rfl
@[simp] theorem State.modPort_slipTime : (s.modPort n f).slipTime = s.slipTime := rfl
@[simp] theorem State.modPort_slipPlace : (s.modPort n f).slipPlace = s.slipPlace := rfl
@[simp] theorem State.modPort_vet : (s.modPort n f).vet = s.vet := rfl
@[simp] theorem State.modPort_power : (s.modPort n f).power = s.power := rfl
@[simp] theorem State.modPort_env : (s.modPort n f).env = s.env := rfl
@[simp] theorem State.modPort_host : (s.modPort n f).host = s.host := rfl
@[simp] theorem State.modPort_heldRing : (s.modPort n f).heldRing = s.heldRing := rfl
@[simp] theorem State.modPort_mgmt : (s.modPort n f).mgmt = s.mgmt := rfl
@[simp] theorem State.modPort_calib : (s.modPort n f).calib = s.calib := rfl
@[simp] theorem State.modPort_sec : (s.modPort n f).sec = s.sec := rfl
@[simp] theorem State.modPort_upd : (s.modPort n f).upd = s.upd := rfl
@[simp] theorem State.modPort_jtag : (s.modPort n f).jtag = s.jtag := rfl
@[simp] theorem State.modPort_out : (s.modPort n f).out = s.out := rfl
@[simp] theorem State.modPort_pending : (s.modPort n f).pending = s.pending := rfl
/-- What `modPort` wrote reads back. -/
@[simp] theorem State.modPort_self : (s.modPort n f).port n = (f (s.port n)) := tabGet_tabSet_self _ _ _ _
/-- `modPort` leaves every other entry. -/
theorem State.modPort_other {j : Nat} (h : j ≠ n) : (s.modPort n f).port j = s.port j := tabGet_tabSet_other _ _ _ h
/-- Two changes of one entry are one. -/
@[simp] theorem State.modPort_modPort (f2 : Port → Port) : (s.modPort n f).modPort n f2 = s.modPort n (fun x => f2 (f x)) := by
  have h : (s.modPort n f).port n = f (s.port n) := tabGet_tabSet_self _ _ _ _
  simp only [State.modPort, State.setPort, tabSet_tabSet] at *
  simp only [h]
@[simp] theorem State.modPort_core (j : Nat) : (s.modPort n f).core j = s.core j := rfl
@[simp] theorem State.modPort_pack (j : Nat) : (s.modPort n f).pack j = s.pack j := rfl
@[simp] theorem State.modPort_prog (j : Nat) : (s.modPort n f).prog j = s.prog j := rfl
@[simp] theorem State.modPort_ctx (j : Nat) : (s.modPort n f).ctx j = s.ctx j := rfl
@[simp] theorem State.modPort_stack (j : Nat) : (s.modPort n f).stack j = s.stack j := rfl
@[simp] theorem State.modPort_stat (i j : Nat) : (s.modPort n f).stat i j = s.stat i j := rfl
@[simp] theorem State.modPort_setting (i j d : Nat) : (s.modPort n f).setting i j d = s.setting i j d := rfl
end modPort

section modFn
variable (s : State) (n : Nat) (f : HostFn → HostFn)
@[simp] theorem State.modFn_clock : (s.modFn n f).clock = s.clock := rfl
@[simp] theorem State.modFn_howl : (s.modFn n f).howl = s.howl := rfl
@[simp] theorem State.modFn_nonce : (s.modFn n f).nonce = s.nonce := rfl
@[simp] theorem State.modFn_cores : (s.modFn n f).cores = s.cores := rfl
@[simp] theorem State.modFn_packs : (s.modFn n f).packs = s.packs := rfl
@[simp] theorem State.modFn_progs : (s.modFn n f).progs = s.progs := rfl
@[simp] theorem State.modFn_load : (s.modFn n f).load = s.load := rfl
@[simp] theorem State.modFn_gen : (s.modFn n f).gen = s.gen := rfl
@[simp] theorem State.modFn_ctxs : (s.modFn n f).ctxs = s.ctxs := rfl
@[simp] theorem State.modFn_hbm : (s.modFn n f).hbm = s.hbm := rfl
@[simp] theorem State.modFn_hbmKey : (s.modFn n f).hbmKey = s.hbmKey := rfl
@[simp] theorem State.modFn_hbmStacks : (s.modFn n f).hbmStacks = s.hbmStacks := rfl
@[simp] theorem State.modFn_ports : (s.modFn n f).ports = s.ports := rfl
@[simp] theorem State.modFn_ring : (s.modFn n f).ring = s.ring := rfl
@[simp] theorem State.modFn_job : (s.modFn n f).job = s.job := rfl
@[simp] theorem State.modFn_mirror : (s.modFn n f).mirror = s.mirror := rfl
@[simp] theorem State.modFn_faults : (s.modFn n f).faults = s.faults := rfl
@[simp] theorem State.modFn_stats : (s.modFn n f).stats = s.stats := rfl
@[simp] theorem State.modFn_progress : (s.modFn n f).progress = s.progress := rfl
@[simp] theorem State.modFn_settings : (s.modFn n f).settings = s.settings := rfl
@[simp] theorem State.modFn_statsSat : (s.modFn n f).statsSat = s.statsSat := rfl
@[simp] theorem State.modFn_statsFirst : (s.modFn n f).statsFirst = s.statsFirst := rfl
@[simp] theorem State.modFn_lastMismatchTime : (s.modFn n f).lastMismatchTime = s.lastMismatchTime := rfl
@[simp] theorem State.modFn_lastMismatchPlace : (s.modFn n f).lastMismatchPlace = s.lastMismatchPlace := rfl
@[simp] theorem State.modFn_meshFaultHeld : (s.modFn n f).meshFaultHeld = s.meshFaultHeld := rfl
@[simp] theorem State.modFn_meshFaultTime : (s.modFn n f).meshFaultTime = s.meshFaultTime := rfl
@[simp] theorem State.modFn_meshFault : (s.modFn n f).meshFault = s.meshFault := rfl
@[simp] theorem State.modFn_slipHeld : (s.modFn n f).slipHeld = s.slipHeld := rfl
@[simp] theorem State.modFn_slipTime : (s.modFn n f).slipTime = s.slipTime := rfl
@[simp] theorem State.modFn_slipPlace : (s.modFn n f).slipPlace = s.slipPlace := rfl
@[simp] theorem State.modFn_vet : (s.modFn n f).vet = s.vet := rfl
@[simp] theorem State.modFn_power : (s.modFn n f).power = s.power := rfl
@[simp] theorem State.modFn_env : (s.modFn n f).env = s.env := rfl
@[simp] theorem State.modFn_heldRing : (s.modFn n f).heldRing = s.heldRing := rfl
@[simp] theorem State.modFn_mgmt : (s.modFn n f).mgmt = s.mgmt := rfl
@[simp] theorem State.modFn_calib : (s.modFn n f).calib = s.calib := rfl
@[simp] theorem State.modFn_sec : (s.modFn n f).sec = s.sec := rfl
@[simp] theorem State.modFn_upd : (s.modFn n f).upd = s.upd := rfl
@[simp] theorem State.modFn_jtag : (s.modFn n f).jtag = s.jtag := rfl
@[simp] theorem State.modFn_out : (s.modFn n f).out = s.out := rfl
@[simp] theorem State.modFn_pending : (s.modFn n f).pending = s.pending := rfl
/-- What `modFn` wrote reads back. -/
@[simp] theorem State.modFn_self : (s.modFn n f).fn n = (f (s.fn n)) := tabGet_tabMod_self _ _ _ _
/-- `modFn` leaves every other entry. -/
theorem State.modFn_other {j : Nat} (h : j ≠ n) : (s.modFn n f).fn j = s.fn j := tabGet_tabMod_other _ _ _ h
@[simp] theorem State.modFn_core (j : Nat) : (s.modFn n f).core j = s.core j := rfl
@[simp] theorem State.modFn_pack (j : Nat) : (s.modFn n f).pack j = s.pack j := rfl
@[simp] theorem State.modFn_prog (j : Nat) : (s.modFn n f).prog j = s.prog j := rfl
@[simp] theorem State.modFn_ctx (j : Nat) : (s.modFn n f).ctx j = s.ctx j := rfl
@[simp] theorem State.modFn_stack (j : Nat) : (s.modFn n f).stack j = s.stack j := rfl
@[simp] theorem State.modFn_port (j : Nat) : (s.modFn n f).port j = s.port j := rfl
@[simp] theorem State.modFn_stat (i j : Nat) : (s.modFn n f).stat i j = s.stat i j := rfl
@[simp] theorem State.modFn_setting (i j d : Nat) : (s.modFn n f).setting i j d = s.setting i j d := rfl
end modFn

section hbmWrite
variable (s : State) (a : Nat) (l : List Byte)
@[simp] theorem State.hbmWrite_clock : (s.hbmWrite a l).clock = s.clock := rfl
@[simp] theorem State.hbmWrite_howl : (s.hbmWrite a l).howl = s.howl := rfl
@[simp] theorem State.hbmWrite_nonce : (s.hbmWrite a l).nonce = s.nonce := rfl
@[simp] theorem State.hbmWrite_cores : (s.hbmWrite a l).cores = s.cores := rfl
@[simp] theorem State.hbmWrite_packs : (s.hbmWrite a l).packs = s.packs := rfl
@[simp] theorem State.hbmWrite_progs : (s.hbmWrite a l).progs = s.progs := rfl
@[simp] theorem State.hbmWrite_load : (s.hbmWrite a l).load = s.load := rfl
@[simp] theorem State.hbmWrite_gen : (s.hbmWrite a l).gen = s.gen := rfl
@[simp] theorem State.hbmWrite_ctxs : (s.hbmWrite a l).ctxs = s.ctxs := rfl
@[simp] theorem State.hbmWrite_hbmKey : (s.hbmWrite a l).hbmKey = s.hbmKey := rfl
@[simp] theorem State.hbmWrite_ports : (s.hbmWrite a l).ports = s.ports := rfl
@[simp] theorem State.hbmWrite_ring : (s.hbmWrite a l).ring = s.ring := rfl
@[simp] theorem State.hbmWrite_job : (s.hbmWrite a l).job = s.job := rfl
@[simp] theorem State.hbmWrite_mirror : (s.hbmWrite a l).mirror = s.mirror := rfl
@[simp] theorem State.hbmWrite_faults : (s.hbmWrite a l).faults = s.faults := rfl
@[simp] theorem State.hbmWrite_stats : (s.hbmWrite a l).stats = s.stats := rfl
@[simp] theorem State.hbmWrite_progress : (s.hbmWrite a l).progress = s.progress := rfl
@[simp] theorem State.hbmWrite_settings : (s.hbmWrite a l).settings = s.settings := rfl
@[simp] theorem State.hbmWrite_statsSat : (s.hbmWrite a l).statsSat = s.statsSat := rfl
@[simp] theorem State.hbmWrite_statsFirst : (s.hbmWrite a l).statsFirst = s.statsFirst := rfl
@[simp] theorem State.hbmWrite_lastMismatchTime : (s.hbmWrite a l).lastMismatchTime = s.lastMismatchTime := rfl
@[simp] theorem State.hbmWrite_lastMismatchPlace : (s.hbmWrite a l).lastMismatchPlace = s.lastMismatchPlace := rfl
@[simp] theorem State.hbmWrite_meshFaultHeld : (s.hbmWrite a l).meshFaultHeld = s.meshFaultHeld := rfl
@[simp] theorem State.hbmWrite_meshFaultTime : (s.hbmWrite a l).meshFaultTime = s.meshFaultTime := rfl
@[simp] theorem State.hbmWrite_meshFault : (s.hbmWrite a l).meshFault = s.meshFault := rfl
@[simp] theorem State.hbmWrite_slipHeld : (s.hbmWrite a l).slipHeld = s.slipHeld := rfl
@[simp] theorem State.hbmWrite_slipTime : (s.hbmWrite a l).slipTime = s.slipTime := rfl
@[simp] theorem State.hbmWrite_slipPlace : (s.hbmWrite a l).slipPlace = s.slipPlace := rfl
@[simp] theorem State.hbmWrite_vet : (s.hbmWrite a l).vet = s.vet := rfl
@[simp] theorem State.hbmWrite_power : (s.hbmWrite a l).power = s.power := rfl
@[simp] theorem State.hbmWrite_env : (s.hbmWrite a l).env = s.env := rfl
@[simp] theorem State.hbmWrite_host : (s.hbmWrite a l).host = s.host := rfl
@[simp] theorem State.hbmWrite_heldRing : (s.hbmWrite a l).heldRing = s.heldRing := rfl
@[simp] theorem State.hbmWrite_mgmt : (s.hbmWrite a l).mgmt = s.mgmt := rfl
@[simp] theorem State.hbmWrite_calib : (s.hbmWrite a l).calib = s.calib := rfl
@[simp] theorem State.hbmWrite_sec : (s.hbmWrite a l).sec = s.sec := rfl
@[simp] theorem State.hbmWrite_upd : (s.hbmWrite a l).upd = s.upd := rfl
@[simp] theorem State.hbmWrite_jtag : (s.hbmWrite a l).jtag = s.jtag := rfl
@[simp] theorem State.hbmWrite_out : (s.hbmWrite a l).out = s.out := rfl
@[simp] theorem State.hbmWrite_pending : (s.hbmWrite a l).pending = s.pending := rfl
@[simp] theorem State.hbmWrite_core (j : Nat) : (s.hbmWrite a l).core j = s.core j := rfl
@[simp] theorem State.hbmWrite_pack (j : Nat) : (s.hbmWrite a l).pack j = s.pack j := rfl
@[simp] theorem State.hbmWrite_prog (j : Nat) : (s.hbmWrite a l).prog j = s.prog j := rfl
@[simp] theorem State.hbmWrite_ctx (j : Nat) : (s.hbmWrite a l).ctx j = s.ctx j := rfl
@[simp] theorem State.hbmWrite_port (j : Nat) : (s.hbmWrite a l).port j = s.port j := rfl
@[simp] theorem State.hbmWrite_stat (i j : Nat) : (s.hbmWrite a l).stat i j = s.stat i j := rfl
@[simp] theorem State.hbmWrite_setting (i j d : Nat) : (s.hbmWrite a l).setting i j d = s.setting i j d := rfl
end hbmWrite

section hbmZero
variable (s : State) (a n : Nat)
@[simp] theorem State.hbmZero_clock : (s.hbmZero a n).clock = s.clock := rfl
@[simp] theorem State.hbmZero_howl : (s.hbmZero a n).howl = s.howl := rfl
@[simp] theorem State.hbmZero_nonce : (s.hbmZero a n).nonce = s.nonce := rfl
@[simp] theorem State.hbmZero_cores : (s.hbmZero a n).cores = s.cores := rfl
@[simp] theorem State.hbmZero_packs : (s.hbmZero a n).packs = s.packs := rfl
@[simp] theorem State.hbmZero_progs : (s.hbmZero a n).progs = s.progs := rfl
@[simp] theorem State.hbmZero_load : (s.hbmZero a n).load = s.load := rfl
@[simp] theorem State.hbmZero_gen : (s.hbmZero a n).gen = s.gen := rfl
@[simp] theorem State.hbmZero_ctxs : (s.hbmZero a n).ctxs = s.ctxs := rfl
@[simp] theorem State.hbmZero_hbmKey : (s.hbmZero a n).hbmKey = s.hbmKey := rfl
@[simp] theorem State.hbmZero_ports : (s.hbmZero a n).ports = s.ports := rfl
@[simp] theorem State.hbmZero_ring : (s.hbmZero a n).ring = s.ring := rfl
@[simp] theorem State.hbmZero_job : (s.hbmZero a n).job = s.job := rfl
@[simp] theorem State.hbmZero_mirror : (s.hbmZero a n).mirror = s.mirror := rfl
@[simp] theorem State.hbmZero_faults : (s.hbmZero a n).faults = s.faults := rfl
@[simp] theorem State.hbmZero_stats : (s.hbmZero a n).stats = s.stats := rfl
@[simp] theorem State.hbmZero_progress : (s.hbmZero a n).progress = s.progress := rfl
@[simp] theorem State.hbmZero_settings : (s.hbmZero a n).settings = s.settings := rfl
@[simp] theorem State.hbmZero_statsSat : (s.hbmZero a n).statsSat = s.statsSat := rfl
@[simp] theorem State.hbmZero_statsFirst : (s.hbmZero a n).statsFirst = s.statsFirst := rfl
@[simp] theorem State.hbmZero_lastMismatchTime : (s.hbmZero a n).lastMismatchTime = s.lastMismatchTime := rfl
@[simp] theorem State.hbmZero_lastMismatchPlace : (s.hbmZero a n).lastMismatchPlace = s.lastMismatchPlace := rfl
@[simp] theorem State.hbmZero_meshFaultHeld : (s.hbmZero a n).meshFaultHeld = s.meshFaultHeld := rfl
@[simp] theorem State.hbmZero_meshFaultTime : (s.hbmZero a n).meshFaultTime = s.meshFaultTime := rfl
@[simp] theorem State.hbmZero_meshFault : (s.hbmZero a n).meshFault = s.meshFault := rfl
@[simp] theorem State.hbmZero_slipHeld : (s.hbmZero a n).slipHeld = s.slipHeld := rfl
@[simp] theorem State.hbmZero_slipTime : (s.hbmZero a n).slipTime = s.slipTime := rfl
@[simp] theorem State.hbmZero_slipPlace : (s.hbmZero a n).slipPlace = s.slipPlace := rfl
@[simp] theorem State.hbmZero_vet : (s.hbmZero a n).vet = s.vet := rfl
@[simp] theorem State.hbmZero_power : (s.hbmZero a n).power = s.power := rfl
@[simp] theorem State.hbmZero_env : (s.hbmZero a n).env = s.env := rfl
@[simp] theorem State.hbmZero_host : (s.hbmZero a n).host = s.host := rfl
@[simp] theorem State.hbmZero_heldRing : (s.hbmZero a n).heldRing = s.heldRing := rfl
@[simp] theorem State.hbmZero_mgmt : (s.hbmZero a n).mgmt = s.mgmt := rfl
@[simp] theorem State.hbmZero_calib : (s.hbmZero a n).calib = s.calib := rfl
@[simp] theorem State.hbmZero_sec : (s.hbmZero a n).sec = s.sec := rfl
@[simp] theorem State.hbmZero_upd : (s.hbmZero a n).upd = s.upd := rfl
@[simp] theorem State.hbmZero_jtag : (s.hbmZero a n).jtag = s.jtag := rfl
@[simp] theorem State.hbmZero_out : (s.hbmZero a n).out = s.out := rfl
@[simp] theorem State.hbmZero_pending : (s.hbmZero a n).pending = s.pending := rfl
@[simp] theorem State.hbmZero_core (j : Nat) : (s.hbmZero a n).core j = s.core j := rfl
@[simp] theorem State.hbmZero_pack (j : Nat) : (s.hbmZero a n).pack j = s.pack j := rfl
@[simp] theorem State.hbmZero_prog (j : Nat) : (s.hbmZero a n).prog j = s.prog j := rfl
@[simp] theorem State.hbmZero_ctx (j : Nat) : (s.hbmZero a n).ctx j = s.ctx j := rfl
@[simp] theorem State.hbmZero_port (j : Nat) : (s.hbmZero a n).port j = s.port j := rfl
@[simp] theorem State.hbmZero_stat (i j : Nat) : (s.hbmZero a n).stat i j = s.stat i j := rfl
@[simp] theorem State.hbmZero_setting (i j d : Nat) : (s.hbmZero a n).setting i j d = s.setting i j d := rfl
end hbmZero

section setSetting
variable (s : State) (idx sub v : Nat)
@[simp] theorem State.setSetting_clock : (s.setSetting idx sub v).clock = s.clock := rfl
@[simp] theorem State.setSetting_howl : (s.setSetting idx sub v).howl = s.howl := rfl
@[simp] theorem State.setSetting_nonce : (s.setSetting idx sub v).nonce = s.nonce := rfl
@[simp] theorem State.setSetting_cores : (s.setSetting idx sub v).cores = s.cores := rfl
@[simp] theorem State.setSetting_packs : (s.setSetting idx sub v).packs = s.packs := rfl
@[simp] theorem State.setSetting_progs : (s.setSetting idx sub v).progs = s.progs := rfl
@[simp] theorem State.setSetting_load : (s.setSetting idx sub v).load = s.load := rfl
@[simp] theorem State.setSetting_gen : (s.setSetting idx sub v).gen = s.gen := rfl
@[simp] theorem State.setSetting_ctxs : (s.setSetting idx sub v).ctxs = s.ctxs := rfl
@[simp] theorem State.setSetting_hbm : (s.setSetting idx sub v).hbm = s.hbm := rfl
@[simp] theorem State.setSetting_hbmKey : (s.setSetting idx sub v).hbmKey = s.hbmKey := rfl
@[simp] theorem State.setSetting_hbmStacks : (s.setSetting idx sub v).hbmStacks = s.hbmStacks := rfl
@[simp] theorem State.setSetting_ports : (s.setSetting idx sub v).ports = s.ports := rfl
@[simp] theorem State.setSetting_ring : (s.setSetting idx sub v).ring = s.ring := rfl
@[simp] theorem State.setSetting_job : (s.setSetting idx sub v).job = s.job := rfl
@[simp] theorem State.setSetting_mirror : (s.setSetting idx sub v).mirror = s.mirror := rfl
@[simp] theorem State.setSetting_faults : (s.setSetting idx sub v).faults = s.faults := rfl
@[simp] theorem State.setSetting_stats : (s.setSetting idx sub v).stats = s.stats := rfl
@[simp] theorem State.setSetting_progress : (s.setSetting idx sub v).progress = s.progress := rfl
@[simp] theorem State.setSetting_statsSat : (s.setSetting idx sub v).statsSat = s.statsSat := rfl
@[simp] theorem State.setSetting_statsFirst : (s.setSetting idx sub v).statsFirst = s.statsFirst := rfl
@[simp] theorem State.setSetting_lastMismatchTime : (s.setSetting idx sub v).lastMismatchTime = s.lastMismatchTime := rfl
@[simp] theorem State.setSetting_lastMismatchPlace : (s.setSetting idx sub v).lastMismatchPlace = s.lastMismatchPlace := rfl
@[simp] theorem State.setSetting_meshFaultHeld : (s.setSetting idx sub v).meshFaultHeld = s.meshFaultHeld := rfl
@[simp] theorem State.setSetting_meshFaultTime : (s.setSetting idx sub v).meshFaultTime = s.meshFaultTime := rfl
@[simp] theorem State.setSetting_meshFault : (s.setSetting idx sub v).meshFault = s.meshFault := rfl
@[simp] theorem State.setSetting_slipHeld : (s.setSetting idx sub v).slipHeld = s.slipHeld := rfl
@[simp] theorem State.setSetting_slipTime : (s.setSetting idx sub v).slipTime = s.slipTime := rfl
@[simp] theorem State.setSetting_slipPlace : (s.setSetting idx sub v).slipPlace = s.slipPlace := rfl
@[simp] theorem State.setSetting_vet : (s.setSetting idx sub v).vet = s.vet := rfl
@[simp] theorem State.setSetting_power : (s.setSetting idx sub v).power = s.power := rfl
@[simp] theorem State.setSetting_env : (s.setSetting idx sub v).env = s.env := rfl
@[simp] theorem State.setSetting_host : (s.setSetting idx sub v).host = s.host := rfl
@[simp] theorem State.setSetting_heldRing : (s.setSetting idx sub v).heldRing = s.heldRing := rfl
@[simp] theorem State.setSetting_mgmt : (s.setSetting idx sub v).mgmt = s.mgmt := rfl
@[simp] theorem State.setSetting_calib : (s.setSetting idx sub v).calib = s.calib := rfl
@[simp] theorem State.setSetting_sec : (s.setSetting idx sub v).sec = s.sec := rfl
@[simp] theorem State.setSetting_upd : (s.setSetting idx sub v).upd = s.upd := rfl
@[simp] theorem State.setSetting_jtag : (s.setSetting idx sub v).jtag = s.jtag := rfl
@[simp] theorem State.setSetting_out : (s.setSetting idx sub v).out = s.out := rfl
@[simp] theorem State.setSetting_pending : (s.setSetting idx sub v).pending = s.pending := rfl
@[simp] theorem State.setSetting_core (j : Nat) : (s.setSetting idx sub v).core j = s.core j := rfl
@[simp] theorem State.setSetting_pack (j : Nat) : (s.setSetting idx sub v).pack j = s.pack j := rfl
@[simp] theorem State.setSetting_prog (j : Nat) : (s.setSetting idx sub v).prog j = s.prog j := rfl
@[simp] theorem State.setSetting_ctx (j : Nat) : (s.setSetting idx sub v).ctx j = s.ctx j := rfl
@[simp] theorem State.setSetting_stack (j : Nat) : (s.setSetting idx sub v).stack j = s.stack j := rfl
@[simp] theorem State.setSetting_port (j : Nat) : (s.setSetting idx sub v).port j = s.port j := rfl
@[simp] theorem State.setSetting_stat (i j : Nat) : (s.setSetting idx sub v).stat i j = s.stat i j := rfl
end setSetting

section advanceKey
variable (s : State) (key n : Nat)
@[simp] theorem State.advanceKey_clock : (s.advanceKey key n).clock = s.clock := rfl
@[simp] theorem State.advanceKey_howl : (s.advanceKey key n).howl = s.howl := rfl
@[simp] theorem State.advanceKey_nonce : (s.advanceKey key n).nonce = s.nonce := rfl
@[simp] theorem State.advanceKey_cores : (s.advanceKey key n).cores = s.cores := rfl
@[simp] theorem State.advanceKey_packs : (s.advanceKey key n).packs = s.packs := rfl
@[simp] theorem State.advanceKey_progs : (s.advanceKey key n).progs = s.progs := rfl
@[simp] theorem State.advanceKey_load : (s.advanceKey key n).load = s.load := rfl
@[simp] theorem State.advanceKey_gen : (s.advanceKey key n).gen = s.gen := rfl
@[simp] theorem State.advanceKey_ctxs : (s.advanceKey key n).ctxs = s.ctxs := rfl
@[simp] theorem State.advanceKey_hbm : (s.advanceKey key n).hbm = s.hbm := rfl
@[simp] theorem State.advanceKey_hbmKey : (s.advanceKey key n).hbmKey = s.hbmKey := rfl
@[simp] theorem State.advanceKey_hbmStacks : (s.advanceKey key n).hbmStacks = s.hbmStacks := rfl
@[simp] theorem State.advanceKey_ports : (s.advanceKey key n).ports = s.ports := rfl
@[simp] theorem State.advanceKey_ring : (s.advanceKey key n).ring = s.ring := rfl
@[simp] theorem State.advanceKey_job : (s.advanceKey key n).job = s.job := rfl
@[simp] theorem State.advanceKey_mirror : (s.advanceKey key n).mirror = s.mirror := rfl
@[simp] theorem State.advanceKey_faults : (s.advanceKey key n).faults = s.faults := rfl
@[simp] theorem State.advanceKey_stats : (s.advanceKey key n).stats = s.stats := rfl
@[simp] theorem State.advanceKey_settings : (s.advanceKey key n).settings = s.settings := rfl
@[simp] theorem State.advanceKey_statsSat : (s.advanceKey key n).statsSat = s.statsSat := rfl
@[simp] theorem State.advanceKey_statsFirst : (s.advanceKey key n).statsFirst = s.statsFirst := rfl
@[simp] theorem State.advanceKey_lastMismatchTime : (s.advanceKey key n).lastMismatchTime = s.lastMismatchTime := rfl
@[simp] theorem State.advanceKey_lastMismatchPlace : (s.advanceKey key n).lastMismatchPlace = s.lastMismatchPlace := rfl
@[simp] theorem State.advanceKey_meshFaultHeld : (s.advanceKey key n).meshFaultHeld = s.meshFaultHeld := rfl
@[simp] theorem State.advanceKey_meshFaultTime : (s.advanceKey key n).meshFaultTime = s.meshFaultTime := rfl
@[simp] theorem State.advanceKey_meshFault : (s.advanceKey key n).meshFault = s.meshFault := rfl
@[simp] theorem State.advanceKey_slipHeld : (s.advanceKey key n).slipHeld = s.slipHeld := rfl
@[simp] theorem State.advanceKey_slipTime : (s.advanceKey key n).slipTime = s.slipTime := rfl
@[simp] theorem State.advanceKey_slipPlace : (s.advanceKey key n).slipPlace = s.slipPlace := rfl
@[simp] theorem State.advanceKey_vet : (s.advanceKey key n).vet = s.vet := rfl
@[simp] theorem State.advanceKey_power : (s.advanceKey key n).power = s.power := rfl
@[simp] theorem State.advanceKey_env : (s.advanceKey key n).env = s.env := rfl
@[simp] theorem State.advanceKey_host : (s.advanceKey key n).host = s.host := rfl
@[simp] theorem State.advanceKey_heldRing : (s.advanceKey key n).heldRing = s.heldRing := rfl
@[simp] theorem State.advanceKey_mgmt : (s.advanceKey key n).mgmt = s.mgmt := rfl
@[simp] theorem State.advanceKey_calib : (s.advanceKey key n).calib = s.calib := rfl
@[simp] theorem State.advanceKey_sec : (s.advanceKey key n).sec = s.sec := rfl
@[simp] theorem State.advanceKey_upd : (s.advanceKey key n).upd = s.upd := rfl
@[simp] theorem State.advanceKey_jtag : (s.advanceKey key n).jtag = s.jtag := rfl
@[simp] theorem State.advanceKey_out : (s.advanceKey key n).out = s.out := rfl
@[simp] theorem State.advanceKey_pending : (s.advanceKey key n).pending = s.pending := rfl
@[simp] theorem State.advanceKey_core (j : Nat) : (s.advanceKey key n).core j = s.core j := rfl
@[simp] theorem State.advanceKey_pack (j : Nat) : (s.advanceKey key n).pack j = s.pack j := rfl
@[simp] theorem State.advanceKey_prog (j : Nat) : (s.advanceKey key n).prog j = s.prog j := rfl
@[simp] theorem State.advanceKey_ctx (j : Nat) : (s.advanceKey key n).ctx j = s.ctx j := rfl
@[simp] theorem State.advanceKey_stack (j : Nat) : (s.advanceKey key n).stack j = s.stack j := rfl
@[simp] theorem State.advanceKey_port (j : Nat) : (s.advanceKey key n).port j = s.port j := rfl
@[simp] theorem State.advanceKey_stat (i j : Nat) : (s.advanceKey key n).stat i j = s.stat i j := rfl
@[simp] theorem State.advanceKey_setting (i j d : Nat) : (s.advanceKey key n).setting i j d = s.setting i j d := rfl
end advanceKey

/-- An HBM write keeps memory's canonical form. -/
theorem State.hbmWrite_wf (s : State) (a : Nat) (l : List Byte) (h : tabWf 0 s.hbm = true) : tabWf 0 (s.hbmWrite a l).hbm = true :=
  tabWf_memWrite a l h

/-- Zeroing HBM keeps memory's canonical form. -/
theorem State.hbmZero_wf (s : State) (a n : Nat) (h : tabWf 0 s.hbm = true) : tabWf 0 (s.hbmZero a n).hbm = true :=
  tabWf_memZero a n h

/-- A stream written reads back. -/
@[simp] theorem Core.setStream_self (k : Core) (i : Nat) (t : Stream) : (k.setStream i t).stream i = t := tabGet_tabSet_self _ _ _ _
/-- Every other stream is left. -/
theorem Core.setStream_other (k : Core) (i : Nat) (t : Stream) {j : Nat} (h : j ≠ i) : (k.setStream i t).stream j = k.stream j :=
  tabGet_tabSet_other _ _ _ h
/-- A Collar written reads back. -/
@[simp] theorem Core.setCollar_self (k : Core) (i : Nat) (t : Collar) : (k.setCollar i t).collar i = t := tabGet_tabSet_self _ _ _ _
/-- Every other Collar is left. -/
theorem Core.setCollar_other (k : Core) (i : Nat) (t : Collar) {j : Nat} (h : j ≠ i) : (k.setCollar i t).collar j = k.collar j :=
  tabGet_tabSet_other _ _ _ h
/-- A Bowl written reads back. -/
@[simp] theorem Core.setBowl_self (k : Core) (i : Nat) (t : Bowl) : (k.setBowl i t).bowl i = t := tabGet_tabSet_self _ _ _ _
/-- Every other Bowl is left. -/
theorem Core.setBowl_other (k : Core) (i : Nat) (t : Bowl) {j : Nat} (h : j ≠ i) : (k.setBowl i t).bowl j = k.bowl j :=
  tabGet_tabSet_other _ _ _ h

/-- A counter below its bound advances by the amount, and nothing else changes (R493). -/
theorem State.bumpRaw_of_lt (s : State) (key n : Nat) (hn : n ≠ 0) (h : tabGet 0 s.stats key + n < 2 ^ 64 - 1) :
    s.bumpRaw key n = { s with stats := tabSet 0 s.stats key (tabGet 0 s.stats key + n) } := by
  simp only [State.bumpRaw, hn, if_false, h, if_true]

/-- A counter below its bound advances by the amount, and nothing else changes (R493). -/
theorem State.bump_of_lt (s : State) (idx sub n : Nat) (hn : n ≠ 0) (h : s.stat idx sub + n < 2 ^ 64 - 1) :
    s.bump idx sub n = { s with stats := tabSet 0 s.stats (statKey idx sub) (s.stat idx sub + n) } := by
  simp only [State.bump, State.bumpKey, State.bumpRaw_of_lt s (statKey idx sub) n hn h, if_true, State.stat]

/-- Two different dictionary places have different keys. -/
theorem statKey_inj {i j a b : Nat} (ha : a < 256) (hb : b < 256) : statKey i a = statKey j b ↔ i = j ∧ a = b := by
  unfold statKey; omega

/-- A command to the booted module is answered with its status, and the state is the command's. -/
theorem State.command_booted (s : State) (f : State → Nat × State) (hb : s.power.booted = true) (hr : s.power.romService = false) :
    s.command f = { (f s).2 with out := [BitVec.ofNat 8 (f s).1] } := by
  simp [State.command, State.answer, hb, hr]

end Sys2Proof.Machine
end

