-- ==== Sys2Proof/Laws/Collars.lean ====
section
/-! SUPPORT. What an add to a Collar and the wakes it causes can do. -/
namespace Sys2Proof.Machine

/-- Nothing has happened. -/
theorem OnlyWakes.refl (c : Nat) (s : State) : OnlyWakes c s s := ⟨rfl, fun _ _ => rfl, rfl, fun _ => rfl⟩

/-- Wakes compose. -/
theorem OnlyWakes.trans {c : Nat} {s t u : State} (h : OnlyWakes c s t) (h' : OnlyWakes c t u) : OnlyWakes c s u := by
  obtain ⟨a1, a2, a3, a4⟩ := h
  obtain ⟨b1, b2, b3, b4⟩ := h'
  refine ⟨?_, fun d hd => (b2 d hd).trans (a2 d hd), ?_, fun i => ?_⟩
  · rw [b1, a1]
  · rw [b3, a3]
  · rw [b4 i, a4 i]

/-- One stream given its waking event. -/
theorem OnlyWakes.note (c i : Nat) (s : State) : OnlyWakes c s (s.modCore c (fun x => x.modStream i Stream.noteWake)) := by
  refine ⟨rfl, fun d hd => by rw [State.modCore_other _ _ _ hd], by simp [Core.modStream, Core.setStream], fun j => ?_⟩
  by_cases hj : j = i
  · subst hj; simp [Core.modStream, Stream.noteWake]
  · simp [Core.modStream, Core.setStream_other, hj]

/-- A fold of steps that each only wake only wakes. -/
theorem OnlyWakes.foldl {α : Type} (c : Nat) (f : State → α → State) (hf : ∀ s a, OnlyWakes c s (f s a)) (l : List α) (s : State) :
    OnlyWakes c s (l.foldl f s) := by
  induction l generalizing s with
  | nil => exact .refl c s
  | cons a l ih => exact (hf s a).trans (ih (f s a))

/-- The wakes of a Collar change nothing but waking events (R88, R98). -/
theorem wakeCollar_onlyWakes (c k : Nat) (s : State) : OnlyWakes c s (wakeCollar c k s) := by
  unfold wakeCollar
  apply OnlyWakes.foldl
  intro s i
  dsimp only
  split
  · exact .note c i s
  · exact .refl c s

/-- What only wakes leaves every part of the core but its streams, and of a stream all but its waking event. -/
theorem OnlyWakes.collar {c : Nat} {s t : State} (h : OnlyWakes c s t) (j : Nat) : (t.core c).collar j = (s.core c).collar j := by
  rw [h.2.2.1]; rfl

/-- An add that does not overflow: the Collar holds the sum, and nothing else changes but waking events (R97). -/
theorem collarAdd_of_lt {c k : Nat} {n : BitVec 32} {s : State} (h : ((s.core c).collar k).value.toNat + n.toNat < 2 ^ 32) :
    ∃ u, u = s.modCore c (fun x => x.setCollar k { (s.core c).collar k with
        value := BitVec.ofNat 32 (((s.core c).collar k).value.toNat + n.toNat) }) ∧ OnlyWakes c u (collarAdd c k n s) := by
  refine ⟨_, rfl, ?_⟩
  unfold collarAdd
  simp only [h, if_true]
  exact wakeCollar_onlyWakes c k _

end Sys2Proof.Machine
end

