-- ==== Sys2Proof/Laws/Frames.lean ====
section
/-! SUPPORT. What the frames of the model's own making hold: they pass their CRC, and their fields are those they were made with. -/
namespace Sys2Proof.Machine

theorem crcBit_lt {c : Nat} (h : c < 4294967296) : crcBit c < 4294967296 := by
  unfold crcBit
  split
  · exact Nat.xor_lt_two_pow (n := 32) (by norm_num; omega) (by norm_num)
  · omega

theorem crcByte_lt {c : Nat} (h : c < 4294967296) (b : Byte) : crcByte c b < 4294967296 := by
  have hx : c ^^^ b.toNat < 4294967296 := Nat.xor_lt_two_pow (n := 32) (by norm_num; exact h) (by have := b.isLt; norm_num at *; omega)
  unfold crcByte
  exact crcBit_lt (crcBit_lt (crcBit_lt (crcBit_lt (crcBit_lt (crcBit_lt (crcBit_lt (crcBit_lt hx)))))))

theorem crcFold_lt (l : List Byte) : ∀ {c : Nat}, c < 4294967296 → l.foldl crcByte c < 4294967296 := by
  induction l with
  | nil => exact fun h => h
  | cons b t ih => exact fun h => ih (crcByte_lt h b)

theorem crc32_lt (l : List Byte) : crc32 l < 4294967296 := Nat.xor_lt_two_pow (n := 32) (by norm_num; exact crcFold_lt l (by norm_num)) (by norm_num)

/-- A field below bit 96 does not see what stands above it. -/
theorem fieldOf_add_high (a c lo len : Nat) (h : lo + len ≤ 96) : fieldOf (a + 79228162514264337593543950336 * c) lo len = fieldOf a lo len := by
  unfold fieldOf
  obtain ⟨k, hk⟩ := Nat.le.dest h
  have e : 79228162514264337593543950336 * c = 2 ^ lo * (2 ^ len * (2 ^ k * c)) := by
    rw [show (79228162514264337593543950336 : Nat) = 2 ^ 96 from by norm_num, ← hk]; ring
  rw [Nat.shiftRight_eq_div_pow, Nat.shiftRight_eq_div_pow, e, Nat.add_mul_div_left _ _ (by positivity), Nat.add_mul_mod_self_left]

/-- The trailer of a frame before its CRC. -/
def trailerOf (seq ack kind vc : Nat) (sop eop : Bool) (crVc crCount : Nat) : Nat :=
  at_ 84 (seq % 4096) + at_ 72 (ack % 4096) + at_ 70 (kind % 4) + at_ 67 (vc % 8) + at_ 66 (bit01 sop) + at_ 65 (bit01 eop) + at_ 62 (crVc % 8) +
    at_ 54 (crCount % 256)

theorem trailerOf_lt (seq ack kind vc : Nat) (sop eop : Bool) (crVc crCount : Nat) : trailerOf seq ack kind vc sop eop crVc crCount < 79228162514264337593543950336 := by
  unfold trailerOf at_
  simp only [Nat.shiftLeft_eq]
  have h1 : bit01 sop ≤ 1 := by cases sop <;> decide
  have h2 : bit01 eop ≤ 1 := by cases eop <;> decide
  omega

theorem mkFrame_trailer (flit : List Byte) (seq ack kind vc : Nat) (sop eop : Bool) (crVc crCount : Nat) :
    (mkFrame flit seq ack kind vc sop eop crVc crCount).trailer = BitVec.ofNat 128 (trailerOf seq ack kind vc sop eop crVc crCount) + BitVec.ofNat 128
      (at_ 96 (frameCrc (fitTo 0 256 flit) (BitVec.ofNat 128 (trailerOf seq ack kind vc sop eop crVc crCount)))) := by
  unfold mkFrame trailerOf; rfl

theorem trailer_toNat {t q : Nat} (ht : t < 2 ^ 96) (hq : q < 4294967296) : (BitVec.ofNat 128 t + BitVec.ofNat 128 (at_ 96 q)).toNat = t + 2 ^ 96 * q := by
  have hw : t + q * 2 ^ 96 < 2 ^ 128 := by norm_num at ht ⊢; omega
  have hq' : q * 2 ^ 96 < 2 ^ 128 := Nat.lt_of_le_of_lt (Nat.le_add_left _ _) hw
  have ht' : t < 2 ^ 128 := Nat.lt_of_le_of_lt (Nat.le_add_right _ _) hw
  rw [at_, Nat.shiftLeft_eq, BitVec.toNat_add, BitVec.toNat_ofNat, BitVec.toNat_ofNat, Nat.mod_eq_of_lt ht', Nat.mod_eq_of_lt hq', Nat.mod_eq_of_lt hw,
    Nat.mul_comm]

theorem frameCrc_lt (flit : List Byte) (t : BitVec 128) : frameCrc flit t < 4294967296 := by unfold frameCrc; exact crc32_lt _

/-- The trailer as a number: the fields, and the CRC above them. -/
theorem mkFrame_toNat (flit : List Byte) (seq ack kind vc : Nat) (sop eop : Bool) (crVc crCount : Nat) :
    ∃ q, q = frameCrc (fitTo 0 256 flit) (BitVec.ofNat 128 (trailerOf seq ack kind vc sop eop crVc crCount)) ∧ q < 4294967296 ∧
      (mkFrame flit seq ack kind vc sop eop crVc crCount).trailer.toNat = trailerOf seq ack kind vc sop eop crVc crCount + 79228162514264337593543950336 * q := by
  have hc := frameCrc_lt (fitTo 0 256 flit) (BitVec.ofNat 128 (trailerOf seq ack kind vc sop eop crVc crCount))
  have ht := mkFrame_trailer flit seq ack kind vc sop eop crVc crCount
  generalize frameCrc (fitTo 0 256 flit) (BitVec.ofNat 128 (trailerOf seq ack kind vc sop eop crVc crCount)) = q at hc ht
  exact ⟨q, rfl, hc, by rw [ht]; exact trailer_toNat (trailerOf_lt _ _ _ _ _ _ _ _) hc⟩

theorem mkFrame_field (flit : List Byte) (seq ack kind vc : Nat) (sop eop : Bool) (crVc crCount lo len : Nat) (h : lo + len ≤ 96) :
    bitsOf (mkFrame flit seq ack kind vc sop eop crVc crCount).trailer lo len = fieldOf (trailerOf seq ack kind vc sop eop crVc crCount) lo len := by
  obtain ⟨q, -, -, e⟩ := mkFrame_toNat flit seq ack kind vc sop eop crVc crCount
  unfold bitsOf
  rw [e, fieldOf_add_high _ _ _ _ h]

theorem fitTo_fitTo {α : Type} (d : α) (n : Nat) (l : List α) : fitTo d n (fitTo d n l) = fitTo d n l := by
  have hl : (fitTo d n l).length = n := by simp [fitTo]; omega
  unfold fitTo at hl ⊢
  rw [List.take_of_length_le (by omega), hl]; simp

/-- A frame that the model makes passes its CRC. -/
theorem mkFrame_crcOk (flit : List Byte) (seq ack kind vc : Nat) (sop eop : Bool) (crVc crCount : Nat) :
    (mkFrame flit seq ack kind vc sop eop crVc crCount).crcOk = true := by
  obtain ⟨q, hq, hc, e⟩ := mkFrame_toNat flit seq ack kind vc sop eop crVc crCount
  have ht := trailerOf_lt seq ack kind vc sop eop crVc crCount
  have hi : bitsOf (mkFrame flit seq ack kind vc sop eop crVc crCount).trailer 96 32 = q := by
    unfold bitsOf fieldOf
    rw [e, Nat.shiftRight_eq_div_pow]
    omega
  have hlo : bitsOf (mkFrame flit seq ack kind vc sop eop crVc crCount).trailer 0 96 =
      bitsOf (BitVec.ofNat 128 (trailerOf seq ack kind vc sop eop crVc crCount)) 0 96 := by
    rw [mkFrame_field _ _ _ _ _ _ _ _ _ _ _ (by norm_num)]
    unfold bitsOf; rw [BitVec.toNat_ofNat, Nat.mod_eq_of_lt (by omega)]
  have hf : (mkFrame flit seq ack kind vc sop eop crVc crCount).flit = fitTo 0 256 flit := by unfold mkFrame; rfl
  unfold Frame.crcOk
  rw [hi, hf]
  have same : frameCrc (fitTo 0 256 flit) (mkFrame flit seq ack kind vc sop eop crVc crCount).trailer =
      frameCrc (fitTo 0 256 flit) (BitVec.ofNat 128 (trailerOf seq ack kind vc sop eop crVc crCount)) := by
    unfold frameCrc; rw [hlo]
  rw [same, ← hq]
  exact decide_eq_true rfl

end Sys2Proof.Machine
end

