-- ==== Sys2Proof/Laws/Hbm.lean ====
section
/-! SUPPORT. What counting an access does, and what a read through a ring port answers where nothing is in its way. -/
namespace Sys2Proof.Machine

/-- HBM is as before, and of every stack only the activation counts may differ. -/
def CountFrame (s t : State) : Prop := t.hbm = s.hbm ∧ ∀ n, t.stack n = { s.stack n with activations := (t.stack n).activations }

theorem CountFrame.refl (s : State) : CountFrame s s := ⟨rfl, fun _ => rfl⟩

theorem CountFrame.trans {a b c : State} (h : CountFrame a b) (g : CountFrame b c) : CountFrame a c :=
  ⟨g.1.trans h.1, fun n => by rw [g.2 n, h.2 n]⟩

/-- HBM, and the stacks' own state, are as before. -/
def HbmSame (s t : State) : Prop := t.hbm = s.hbm ∧ t.hbmStacks = s.hbmStacks

theorem HbmSame.trans {a b c : State} (h : HbmSame a b) (g : HbmSame b c) : HbmSame a c := ⟨g.1.trans h.1, g.2.trans h.2⟩

theorem HbmSame.bumpRaw (s : State) (x v : Nat) : HbmSame s (s.bumpRaw x v) := by
  unfold State.bumpRaw
  dsimp only
  split
  · exact ⟨rfl, rfl⟩
  · split <;> exact ⟨rfl, rfl⟩

theorem HbmSame.raiseMsix (f v : Nat) (s : State) : HbmSame s (raiseMsix f v s) := by
  unfold Machine.raiseMsix
  dsimp only
  split
  · exact HbmSame.bumpRaw s _ _
  · split <;> exact ⟨rfl, rfl⟩

theorem HbmSame.notify (k : Nat) (b : List Byte) (s : State) : HbmSame s (notify k b s) := by
  unfold Machine.notify
  split
  · exact ⟨rfl, rfl⟩
  · exact HbmSame.bumpRaw s _ _

/-- Counting, with the alert of a first saturation, touches no memory (R493). -/
theorem HbmSame.bump (s : State) (x y v : Nat) : HbmSame s (s.bump x y v) := by
  unfold State.bump State.bumpKey
  dsimp only
  split
  · exact HbmSame.bumpRaw s _ _
  · exact (HbmSame.bumpRaw s _ _).trans ((HbmSame.notify _ _ _).trans (HbmSame.raiseMsix _ _ _))

theorem CountFrame.bump (s : State) (x y v : Nat) : CountFrame s (s.bump x y v) := by
  obtain ⟨h, g⟩ := HbmSame.bump s x y v
  exact ⟨h, fun n => by unfold State.stack; rw [g]⟩

theorem CountFrame.modActivations (s : State) (st : Nat) (f : Tab Nat → Tab Nat) :
    CountFrame s (s.modStack st (fun k => { k with activations := f k.activations })) := by
  refine ⟨rfl, fun n => ?_⟩
  unfold State.modStack
  by_cases h : n = st
  · subst h; simp
  · rw [State.setStack_other _ _ _ h]

/-- An activation touches only the counts. -/
theorem activate_frame (st b : Nat) (s : State) : CountFrame s (activate st b s) := by
  have r : CountFrame s (issueRfm st b s) := (CountFrame.bump s _ _ _).trans
    (CountFrame.modActivations _ st (fun l => tabSet 0 l b (tabGet 0 l b - Config.raaimt)))
  have u (t : State) : CountFrame t (t.modStack st (fun k => { k with activations := tabMod 0 k.activations b (fun n => min (n + 1) (Config.raammt - 1)) })) :=
    CountFrame.modActivations t st (fun l => tabMod 0 l b (fun n => min (n + 1) (Config.raammt - 1)))
  unfold activate
  by_cases h : Config.raammt ≤ tabGet 0 (s.stack st).activations b + 1
  · rw [if_pos h]; exact r.trans (u _)
  · rw [if_neg h]; exact u _

/-- Counting an access touches only the counts. -/
theorem countAccess_frame (st a n : Nat) (s : State) : CountFrame s (countAccess st a n s) := by
  unfold countAccess
  generalize granulesOf a n = l
  induction l generalizing s with
  | nil => exact CountFrame.refl s
  | cons g t ih => exact ((CountFrame.bump s _ _ _).trans (activate_frame _ _ _)).trans (ih _)

theorem CountFrame.lineErr {s t : State} (h : CountFrame s t) (l : Nat) : t.lineErr l = s.lineErr l := by
  unfold State.lineErr; rw [h.2]

/-- A range with no line in error is read as it stands. -/
theorem stackRead_clean (source a n : Nat) (s : State) (h : (linesOf a n).all (fun l => decide (s.lineErr l = 0)) = true) :
    (stackRead source a n s).1 = some (s.hbmRead a n) := by
  have f := countAccess_frame (stackOf a) a n s
  have z : ∀ l ∈ linesOf a n, (countAccess (stackOf a) a n s).lineErr l = 0 := fun l hl => by
    rw [f.lineErr]; exact of_decide_eq_true (List.all_eq_true.mp h l hl)
  have p : (countAccess (stackOf a) a n s).poisonedLine a n = none :=
    List.find?_eq_none.mpr fun l hl => by simp [z l hl]
  have c : ∀ (ls : List Nat) (t : State), (∀ l ∈ ls, t.lineErr l = 0) →
      ls.foldl (fun s l => if s.lineErr l = 1 then (s.bump (0x2000 + stackOf a) 4 1).modStack (stackOf a) (fun k => { k with poison := tabErase k.poison l }) else s) t = t := by
    intro ls
    induction ls with
    | nil => intro t _; rfl
    | cons x xs ih =>
      intro t ht
      rw [List.foldl_cons, if_neg (by rw [ht x (by simp)]; decide)]
      exact ih t (fun l hl => ht l (by simp [hl]))
  unfold stackRead
  simp only [p]
  unfold correctLines
  rw [c _ _ z]
  simp only [State.hbmRead, f.1]

/-- A store to a range with no line in error is done. -/
theorem stackWrite_clean (source a : Nat) (d : List Byte) (s : State) (h : (linesOf a d.length).all (fun l => decide (s.lineErr l = 0)) = true) :
    (stackWrite source a d s).1 = true := by
  unfold stackWrite
  split
  · rfl
  · have f := countAccess_frame (stackOf a) a d.length s
    have p : (partLines a d.length).find? (fun l => decide (2 ≤ (countAccess (stackOf a) a d.length s).lineErr l)) = none :=
      List.find?_eq_none.mpr fun l hl => by
        have z := of_decide_eq_true (List.all_eq_true.mp h l (List.mem_filter.mp hl).1)
        rw [f.lineErr, z]; decide
    unfold stackPut
    simp only [p]

/-- The ring port's turn, and what it must serve first, at a stack with no request. -/
theorem serveBefore_quiet (a n : Nat) (s : State) (hw : (s.stack (stackOf a)).waiting = []) (ha : (s.stack (stackOf a)).accepted = []) :
    serveBefore (stackOf a) a n (ringTurn (stackOf a) s) = s.modStack (stackOf a) (fun k => { k with turn := 0 }) := by
  have o : ∀ src, (s.stack (stackOf a)).offered src = none := fun src => by unfold Stack.offered; simp [hw]
  have t : ringTurn (stackOf a) s = s.modStack (stackOf a) (fun k => { k with turn := 0 }) := by
    unfold ringTurn
    simp [List.range_succ, o]
  unfold serveBefore foldN
  rw [t]
  simp [State.modStack, ha]

/-- The turn of a stack's ring port is no line's error. -/
theorem lineErr_turn (st l : Nat) (s : State) : (s.modStack st (fun k => { k with turn := 0 })).lineErr l = s.lineErr l := by
  unfold State.lineErr State.modStack
  by_cases g : stackOf (64 * l) = st
  · rw [g]; simp
  · rw [State.setStack_other _ _ _ g]

/-- A write through the ring port of a Serving stack with nothing in its way is done (R373, R375). -/
theorem ringWrite_clean (a : Nat) (d : List Byte) (s : State) (hs : (s.stack (stackOf a)).state = .serving) (hw : (s.stack (stackOf a)).waiting = [])
    (ha : (s.stack (stackOf a)).accepted = []) (h : (linesOf a d.length).all (fun l => decide (s.lineErr l = 0)) = true) :
    (ringWrite a d s).1 = .done [] := by
  have q := stackWrite_clean 8 a d (s.modStack (stackOf a) (fun k => { k with turn := 0 })) (by simpa only [lineErr_turn] using h)
  unfold ringWrite
  simp only [hs, serveBefore_quiet a d.length s hw ha]
  split
  · rfl
  · revert q
    generalize stackWrite 8 a d _ = r
    rcases r with ⟨_ | _, u⟩ <;> simp

/-- A read through the ring port of a Serving stack with nothing in its way answers the bytes as they stand (R373, R375). -/
theorem ringRead_clean (a n : Nat) (s : State) (hs : (s.stack (stackOf a)).state = .serving) (hw : (s.stack (stackOf a)).waiting = [])
    (ha : (s.stack (stackOf a)).accepted = []) (hf : offsetOf a + n ≤ stackBytes)
    (h : (linesOf a n).all (fun l => decide (s.lineErr l = 0)) = true) : (ringRead a n s).1 = .done (s.hbmRead a n) := by
  have q := stackRead_clean 8 a n (s.modStack (stackOf a) (fun k => { k with turn := 0 })) (by simpa only [lineErr_turn] using h)
  unfold ringRead
  simp only [hs, serveBefore_quiet a n s hw ha]
  rw [if_neg (by omega)]
  revert q
  generalize stackRead 8 a n _ = r
  rcases r with ⟨_ | l, u⟩ <;> simp [State.hbmRead, State.modStack]

end Sys2Proof.Machine
end

