-- ==== Sys2Proof/Laws/Issue.lean ====
section
/-! SUPPORT. What the issue of an instruction does, whichever instruction it is. -/
namespace Sys2Proof.Machine

/-- An instruction that issues runs its own effect after the issue has been noted (R192-R195). -/
theorem issueOp_of_issues {op c i : Nat} {s : State} {x : Issued} (run : Issued → State → State) (h : Issues op c i s x) :
    issueOp op c i run s = run x (noteIssue x s) := by
  obtain ⟨h1, h2, h0, h3, h4, h5, h6, h7, h8, h9⟩ := h
  have he : eccOutcome false (tabGet 0 (s.core c).storeErr ((s.core c).stream i).pc.toNat) s.nonce = .clean ∨
      eccOutcome false (tabGet 0 (s.core c).storeErr ((s.core c).stream i).pc.toNat) s.nonce = .corrected := by
    unfold eccOutcome
    rcases Nat.le_one_iff_eq_zero_or_eq_one.mp h3 with h | h <;> simp [h]
  have h4' := h4.symm
  unfold issueOp
  rcases he with he | he <;>
    simp only [h1, h2, h0, he, h4', h5, h6, h7, h8, h9, ne_eq, not_true_eq_false, decide_false, Bool.not_true, Bool.or_self, Bool.false_eq_true,
      if_false, reduceCtorEq]

/-- An issued instruction names its core, its stream and the PC it stood at. -/
theorem Issues.place {op c i : Nat} {s : State} {x : Issued} (h : Issues op c i s x) :
    x.c = c ∧ x.i = i ∧ x.pc = ((s.core c).stream i).pc := by
  obtain ⟨-, -, -, -, h4, -⟩ := h
  subst h4; exact ⟨rfl, rfl, rfl⟩

/-- Noting an issue: PC passes the instruction, the issue is counted, and nothing else but the record of progress changes (R201, R474). -/
theorem noteIssue_becomes {s : State} {x : Issued} {c i : Nat} (hc : x.c = c) (hi : x.i = i) (hp : x.pc = ((s.core c).stream i).pc) :
    StreamBecomes c i i s (noteIssue x s) (((s.core c).stream i).issuedOnce s.clock) := by
  subst hc hi
  cases hr : ((s.core x.c).stream x.i).retake
  · have h0 : noteIssue x s = streamProgress x.c x.i ((s.modCore x.c (fun k => { k.modStream x.i (fun t =>
        { t with pc := x.pc + 1, retake := false, issued := t.issued + 1 }) with turn := x.i })).advanceCore x.c 0x04 1) := by
      simp [noteIssue, hr]
    have hcore : (noteIssue x s).core x.c = { s.core x.c with
        streams := ((noteIssue x s).core x.c).streams, flitsSince := ((noteIssue x s).core x.c).flitsSince
        turn := x.i } ∧
        ((noteIssue x s).core x.c).streams = tabSet Stream.none (tabSet Stream.none (s.core x.c).streams x.i
          { (s.core x.c).stream x.i with pc := x.pc + 1, retake := false, issued := ((s.core x.c).stream x.i).issued + 1 }) x.i
          (((s.core x.c).stream x.i).issuedOnce s.clock) := by
      have hr' : (tabGet Stream.none (s.core x.c).streams x.i).retake = false := hr
      rw [h0]
      simp [streamProgress, State.advanceCore, State.advancePack, Core.modStream, Core.setStream, Core.stream, Stream.issuedOnce, hp, hr']
    refine ⟨⟨?_, ?_, ?_⟩, hcore.1, ?_, ?_⟩
    · rw [h0]; simp [streamProgress, State.advanceCore, State.advancePack, State.modCore, State.setCore, State.modPack, State.setPack,
        State.advanceKey]
    · intro d hd; rw [h0]; simp [streamProgress, State.advanceCore, State.advancePack, State.modCore_other, hd]
    · intro p; rw [h0]
      by_cases hpp : p = packOf x.c
      · subst hpp; simp [streamProgress, State.advanceCore, State.advancePack]
      · simp [streamProgress, State.advanceCore, State.advancePack, State.modPack_other, hpp]
    · rw [Core.stream, hcore.2, tabGet_tabSet_self]
    · intro j hj; rw [Core.stream, hcore.2, tabGet_tabSet_other _ _ _ hj, tabGet_tabSet_other _ _ _ hj]; rfl
  · have h0 : noteIssue x s = s.modCore x.c (fun k => { k.modStream x.i (fun t =>
        { t with pc := x.pc + 1, retake := false, issued := t.issued + 1 }) with turn := x.i }) := by
      simp [noteIssue, hr]
    refine ⟨⟨?_, ?_, ?_⟩, ?_, ?_, ?_⟩
    · rw [h0]; rfl
    · intro d hd; rw [h0]; simp [State.modCore_other, hd]
    · intro p; rw [h0]; rfl
    · rw [h0, State.modCore_self]; rfl
    · have hr' : (tabGet Stream.none (s.core x.c).streams x.i).retake = true := hr
      rw [h0]; simp [Core.modStream, Core.stream, Core.setStream, Stream.issuedOnce, hr', hp]
    · intro j hj; rw [h0]; simp [Core.modStream, Core.setStream, Core.stream, tabGet_tabSet_other _ _ _ hj]

/-- A further change of the issuing stream composes with what the step has done to it. -/
theorem StreamBecomes.modStream {c i turn : Nat} {s t : State} {u : Stream} (h : StreamBecomes c i turn s t u) (f : Stream → Stream) :
    StreamBecomes c i turn s (t.modCore c (fun k => k.modStream i f)) (f u) := by
  obtain ⟨⟨h1, h2, h3⟩, h4, h5, h6⟩ := h
  refine ⟨⟨?_, ?_, ?_⟩, ?_, ?_, ?_⟩
  · simp only [State.modCore, State.setCore]; rw [h1]
  · intro d hd; rw [State.modCore_other _ _ _ hd, h2 d hd]
  · intro p; simpa using h3 p
  · have h := congrArg (fun k : Core => k.setStream i (f ((t.core c).stream i))) h4
    simpa [Core.modStream, Core.setStream] using h
  · simp [Core.modStream, h5]
  · intro j hj; simp [Core.modStream, Core.setStream_other, hj, h6 j hj]

/-- What every instruction of a stream starts from: the issue, then its own effect on a state in which the issue has been noted. -/
theorem issueOp_becomes {op c i : Nat} {s : State} {x : Issued} (run : Issued → State → State) (h : Issues op c i s x) :
    ∃ t, issueOp op c i run s = run x t ∧ StreamBecomes c i i s t (((s.core c).stream i).issuedOnce s.clock) :=
  ⟨_, issueOp_of_issues run h, noteIssue_becomes h.place.1 h.place.2.1 h.place.2.2⟩

end Sys2Proof.Machine
end

