-- ==== Sys2Proof/WellFormed.lean ====
section
/-! DEFINITION. Which commands are well formed: what can stand on the bus, the segment or the pins at all. A meaning answers ill-formed
operands too; no statement needs one. -/
namespace Sys2Proof
open Sys2Proof.Machine

/-- A requester through the mailbox has no address; one from the port has a 128-bit address and a 16-bit port; SESSION has 32 bits (R522, R566). -/
def Machine.Requester.wf (r : Requester) : Bool :=
  decide (r.session < 2 ^ 32) && (if r.mailbox then r.addr = 0 && r.port = 0 else decide (r.addr < 2 ^ 128) && decide (r.port < 2 ^ 16))

/-- A frame carries a flit of 256 B (R392). -/
def Machine.Frame.wf (f : Frame) : Bool := decide (f.flit.length = 256)

/-- A datagram fits one Ethernet frame (R521). -/
def Machine.MgmtFrame.wf (f : MgmtFrame) : Bool :=
  match f with
  | .udp d => decide (d.bytes.length ≤ 1452)
  | .icmp _ _ _ => true
  | .other => true
  | .dadFailed => true
  | .collision => true

/-- Readings name every pack and every stack (R546, R547). -/
def Machine.Readings.wf (r : Readings) : Bool :=
  decide (r.packTemp.length = 16) && decide (r.packPower.length = 16) && decide (r.stackTemp.length = 8)

/-- A firmware slot that fails names a component of R574. -/
def Machine.StartFindings.wf (f : StartFindings) : Bool := f.badSlots.all (fun b => decide (0 < b.1.val))

/-- Whether a command is well formed. -/
def Instr.wf : Instr → Bool
  | .powerOn => true
  | .powerOff => true
  | .modResetAssert => true
  | .startupStepDone findings => findings.wf
  | .howlRefLock => true
  | .holdover => true
  | .howlBroadcast => true
  | .howlPpsCapture => true
  | .timedLaunch _ => true
  | .stepReadyPost _ => true
  | .gatedLaunch _ => true
  | .overrun _ => true
  | .relockDone _ => true
  | .emergencyClockdown _ => true
  | .cycleStretch _ => true
  | .entryStart _ _ => true
  | .slipBegin _ _ => true
  | .openSlotService _ _ => true
  | .fetchLaneService _ _ => true
  | .firstSlipRearm => true
  | .headerArrival _ _ _ => true
  | .lastMeshFaultRead => true
  | .routerDrained _ => true
  | .serviceAnswer _ => true
  | .serviceMcastTimeout _ => true
  | .bowlDelivery _ => true
  | .writePointerPublish _ _ => true
  | .channelClosed _ => true
  | .serviceNack _ => true
  | .streamWake _ _ => true
  | .nop _ _ => true
  | .movi _ _ => true
  | .alu _ _ => true
  | .lcset _ _ => true
  | .loop _ _ => true
  | .br _ _ => true
  | .rdsr _ _ => true
  | .fetch _ _ => true
  | .store _ _ => true
  | .mma _ _ => true
  | .dcfg _ _ => true
  | .add _ _ => true
  | .sub _ _ => true
  | .mul _ _ => true
  | .fma _ _ => true
  | .min _ _ => true
  | .max _ _ => true
  | .abs _ _ => true
  | .neg _ _ => true
  | .cmp _ _ => true
  | .sel _ _ => true
  | .cvt _ _ => true
  | .func _ _ => true
  | .reduce _ _ => true
  | .gather _ _ => true
  | .fill _ _ => true
  | .send _ _ => true
  | .sendt _ _ => true
  | .take _ _ => true
  | .post _ _ => true
  | .wait _ _ => true
  | .fadd _ _ => true
  | .reset _ _ => true
  | .claim _ _ => true
  | .complete _ _ => true
  | .stepdone _ _ => true
  | .rsample _ _ => true
  | .rcancel _ _ => true
  | .remotePost _ => true
  | .remoteFetchAdd _ => true
  | .remoteClaim _ => true
  | .remoteComplete _ => true
  | .nullClaim _ => true
  | .collarReply _ => true
  | .matrixProblemReady _ _ => true
  | .drainComplete _ => true
  | .vectorComplete _ => true
  | .fetchRequestIssue _ => true
  | .requestAccept _ => true
  | .stackServe _ _ => true
  | .rfm _ _ => true
  | .fetchReply _ => true
  | .fetchComplete _ => true
  | .recalibrate _ => true
  | .tempRecalibration _ _ => true
  | .recalibrationDone _ => true
  | .retrain _ => true
  | .retrainDone _ _ => true
  | .groomerPassStart _ => true
  | .groomerVisit _ => true
  | .groomerRewrite _ => true
  | .checkAndInstall => true
  | .checkOnly => true
  | .loadAbort => true
  | .pedigreeCheckDone => true
  | .installDone => true
  | .generatorStart => true
  | .generatorStop => true
  | .hostFed => true
  | .generatorDescriptor => true
  | .lwTimeWrite _ _ _ _ _ _ => true
  | .inTailWrite _ _ _ _ => true
  | .cplHeadWrite _ _ _ _ => true
  | .ringErrClear _ _ _ _ => true
  | .inputTokens _ => true
  | .inputParams _ => true
  | .paramsAnswer _ => true
  | .inputHandoff _ => true
  | .inputClose _ => true
  | .retrieverLogits _ => true
  | .retrieverSampleCmd _ => true
  | .retrieverCancelCmd _ => true
  | .sampleStart _ => true
  | .sampleReady _ => true
  | .completionWrite _ => true
  | .completionAccepted _ => true
  | .frameReceive _ frame _ _ _ => frame.wf
  | .retryRequest _ frame => frame.wf
  | .portDown _ => true
  | .portDisable _ _ => true
  | .portTrain _ _ => true
  | .portUp _ => true
  | .fabricPacketArrival _ => true
  | .deliveryAnswer => true
  | .replyTimeout => true
  | .agedDiscard => true
  | .jobStart => true
  | .jobLeave => true
  | .jobStartTimeout => true
  | .hello _ => true
  | .join _ => true
  | .start _ => true
  | .beaconSend => true
  | .beacon _ => true
  | .neighbourSuspect _ => true
  | .neighbourSilent _ => true
  | .suspect _ => true
  | .selfMuzzle => true
  | .ready _ => true
  | .go _ => true
  | .bark _ => true
  | .barkCommand _ => true
  | .barkLineRelease => true
  | .barkLineSense => true
  | .epochPurge => true
  | .rewind _ => true
  | .mirrorStart => true
  | .mirrorAbort => true
  | .mirrorOpen => true
  | .mirrorWrite => true
  | .mirrorCommit => true
  | .mirrorAnswer => true
  | .vetSliceStart _ _ => true
  | .vetSliceResult _ _ => true
  | .vetSliceAbandon _ => true
  | .replacementDrainEnd _ => true
  | .replacementShiftDone _ _ => true
  | .replacementReloadDone _ => true
  | .fuseRepairs => true
  | .retestMuzzled => true
  | .retestSafePacks => true
  | .maintDone _ _ => true
  | .streamHang _ _ => true
  | .coreHang _ => true
  | .linkHang _ _ => true
  | .packHang _ => true
  | .rungTimeout _ => true
  | .teardownDrainEnd _ => true
  | .zeroiseDone _ _ => true
  | .quarantineEnd _ => true
  | .sniffDumpDone _ => true
  | .sniffDumpTimeout _ _ => true
  | .packReset _ => true
  | .packResetDone _ => true
  | .warmReset => true
  | .coldReset => true
  | .warmRecoveryDone _ _ _ => true
  | .unloadPacks _ => true
  | .alertAck _ => true
  | .statsClear _ => true
  | .sniffCommand _ => true
  | .vfFlr _ => true
  | .pfReset => true
  | .d3hotEntry _ => true
  | .d0Return _ => true
  | .bar2Read _ offset len _ => decide (0 < len.val) && decide (offset.toNat + len.val ≤ 2 ^ 40)
  | .bar2Write _ offset data _ => decide (0 < data.length) && decide (data.length ≤ 4096) && decide (offset.toNat + data.length ≤ 2 ^ 40)
  | .mailboxGo request len _ _ => decide (0 < len.val) && decide (len.val ≤ 2048) && decide (request.length = 2048)
  | .serviceSendDesc _ words _ _ => decide (words.length = 16)
  | .read => true
  | .write _ => true
  | .readMulti => true
  | .describe => true
  | .subscribe => true
  | .segStart => true
  | .segBlock _ => true
  | .segQuery => true
  | .segEnd _ => true
  | .segAbort => true
  | .segTimeout => true
  | .serviceSend => true
  | .mgmtFrame frame => frame.wf
  | .stateService => true
  | .stateIdle => true
  | .settingsCommand _ from_ _ => from_.wf
  | .lock from_ => from_.wf
  | .unlock from_ => from_.wf
  | .calibrationWrite _ _ from_ _ => from_.wf
  | .pinPeakRead _ => true
  | .dbgDataRead _ => true
  | .dbgWrite data from_ => decide (data.length ≤ 65536) && from_.wf
  | .sessionTimeout => true
  | .debugUnlock _ from_ => from_.wf
  | .debugLock _ => true
  | .debugExpiry => true
  | .attestNonce _ _ => true
  | .doeRequest _ => true
  | .updateCommit from_ _ => from_.wf
  | .updateAbandon from_ => from_.wf
  | .trialConfirm => true
  | .trialTimeout => true
  | .thermalModelUpdate readings => readings.wf
  | .throttleRaise _ => true
  | .throttleLower _ => true
  | .valveUpdate => true
  | .iinExcess _ => true
  | .holdupLoss => true
  | .holdupRestore => true
  | .flowLow => true
  | .safeEntry _ => true
  | .safeRailsOff => true
  | .valveHoldEnd => true
  | .idcode => true
  | .samplePreload _ => true
  | .extest => true
  | .clamp => true
  | .highz => true
  | .lbistSelect _ => true
  | .lbistRun _ => true
  | .lbistResult => true
  | .bypass => true
  | .tapReset => true
  | .engineResetDone _ _ => true
  | .coreResetDone _ => true
  | .dcfgComplete _ => true
  | .packCommitDone _ => true
  | .attestReportDone _ => true
  | .vfEnableWrite _ => true
  | .linkRecovery _ width _ => decide (width.val ∈ [0, 1, 2, 4, 8, 16])
  | .frameSend _ => true
  | .msixVectorUnmask fn vector _ _ _ _ => decide (fn.val = 0) || decide (vector.val < 33)

end Sys2Proof
end

