-- ==== Sys2Proof/Tests/Slice0.lean ====
section
/-! SUPPORT. Our own tests: states and operands that meet the hypotheses of each statement, ill-formed terms, and the examples the spec works out. -/
namespace Sys2Proof.Tests
open Sys2Proof Sys2Proof.Machine
-- The witnesses are checked one after another, which keeps the compilation small.
set_option Elab.async false

/-- An instruction word from its opcode and its fields, each a low bit and a value (R188). -/
def iw (op : Nat) (l : List (Nat × Nat)) : Insn := BitVec.ofNat 128 (l.foldl (fun a f => a + at_ f.1 f.2) op)

/-- A module that has started, with the firmware answering and the Howl running. -/
def up : State := { State.reset with power := { Power.reset with
  dev := .run, booted := true, rails := true, ready := true, howlOn := true } }

/-- A core with `w` at PC 0 of stream 0: Collar 1 open, Collar 2 ledgered, Bowl 3 read by stream 0, routes of each kind. -/
def coreWith (w : Insn) : Core := { Core.reset with
  store := [(0, w)], streams := [(0, { Stream.none with st := .ready, x := [(1, 64), (2, 0x40000), (3, 128), (4, 0x80000)] })]
  collars := [(1, { Collar.none with configured := true, value := 5 }),
    (2, { Collar.none with configured := true, ledgered := true, ledger := 0x10 })]
  bowls := [(3, { Bowl.none with isOpen := true, cfg := BitVec.ofNat 128 (at_ 0 1 + at_ 20 3) })]
  routes := [1, 2, 3, 4, 5, 6].map (fun k => (k, BitVec.ofNat 256 (at_ 0 k + at_ 160 0x100 + at_ 32 7)))
  claimRes := [(claimKey 0 5, 2)] }

/-- The module with that core as core 0, its pack running program 0. -/
def issuing (w : Insn) : State := { up with
  cores := [(0, coreWith w)], packs := [(0, { Pack.reset with prog := some 0, state := .running })]
  progs := [(0, { Program.none with packs := 1, ctxCount := 16, windows := [{ off4k := 0, len4k := 16, hbmStacks := 1, writable := true }] })] }

/-- What stream 0 of core 0 issues in a state. -/
def front (s : State) : Issued := issuedOf 0 0 (s.core 0) (tabGet 0 (s.core 0).store ((s.core 0).stream 0).pc.toNat)

/-- `Issues` at stream 0 of core 0, as a computation. -/
def issuesOk (op : Nat) (s : State) : Bool :=
  let k := s.core 0
  let t := k.stream 0
  let x := issuedOf 0 0 k (tabGet 0 k.store t.pc.toNat)
  t.st = .ready && mayIssue 0 s && k.hasTurn 0 0 && decide (tabGet 0 k.storeErr t.pc.toNat ≤ 1) && opOf x.w = op && isOpcode op &&
  !touchesPending x.w t && (issueCheck k (s.coreProg 0) x).isNone && !stalls k x

theorem issues_of_ok {op : Nat} {s : State} (h : issuesOk op s = true) : Issues op 0 0 s (front s) := by
  simp only [issuesOk, Bool.and_eq_true, decide_eq_true_eq, Bool.not_eq_true', Option.isNone_iff_eq_none] at h
  obtain ⟨⟨⟨⟨⟨⟨⟨⟨h1, h2⟩, h9⟩, h3⟩, h4⟩, h5⟩, h6⟩, h7⟩, h8⟩ := h
  exact ⟨h1, h2, h9, h3, rfl, h4, h5, h6, h7, h8⟩

/-- A word of each scalar instruction; for the words of LOOP and BR both ways. -/
def scalarWords : List (Nat × Insn) :=
  [(0x01, iw 0x01 []), (0x02, iw 0x02 [(8, 5), (64, 0x123)]), (0x03, iw 0x03 [(8, 5), (12, 1), (16, 2), (21, 0)]),
   (0x04, iw 0x04 [(21, 1), (64, 9)]), (0x05, iw 0x05 [(21, 3), (32, 7)]), (0x06, iw 0x06 [(21, 0), (12, 1), (16, 2), (32, 9)]),
   (0x07, iw 0x07 [(8, 5), (21, 1)])]

theorem witness_scalar_instructions : ∀ y ∈ scalarWords, Issues y.1 0 0 (issuing y.2) (front (issuing y.2)) := by
  intro y hy; apply issues_of_ok; revert y; decide +kernel

/-- The word of a vector instruction on 64 BF16 elements. -/
def vecWord (op : Nat) : Insn :=
  let two := op ≤ 0x35 || op = 0x38
  let wide := op = 0x38 || op = 0x3C
  iw op ([(8, 64), (46, 1), (54, 4), (28, 6)] ++ (if wide then [] else [(25, 6)]) ++ (if two then [(31, 6)] else []) ++
    (if two || op = 0x39 || op = 0x3D then [(50, 3)] else []) ++ (if op = 0x3E then [(37, 3)] else []) ++ (if op = 0x3D then [(60, 64)] else []))

theorem witness_engine_instructions :
    (∀ op ∈ (List.range 15).map (· + 0x30), Issues op 0 0 (issuing (vecWord op)) (front (issuing (vecWord op)))) ∧
    ∀ y ∈ [(0x10, iw 0x10 [(8, 1), (12, 2), (16, 1), (29, 1)]), (0x11, iw 0x11 [(8, 1), (12, 2), (16, 1), (29, 1)]), (0x21, iw 0x21 [(8, 1), (11, 64)]),
        (0x20, iw 0x20 [(8, 1), (14, 1), (20, 1), (30, 1), (45, 1), (47, 6), (50, 6), (73, 4), (85, 1), (61, 1), (65, 3), (69, 4)])],
      Issues y.1 0 0 (issuing y.2) (front (issuing y.2)) := by
  refine ⟨?_, ?_⟩ <;> (intro y hy; apply issues_of_ok; revert y; decide +kernel)

/-- As `issuing`, with core 0 changed. -/
def issuingOn (w : Insn) (f : Core → Core) : State := (issuing w).modCore 0 f

theorem witness_local_collar_instructions :
    (∀ y ∈ [(0x50, iw 0x50 [(8, 1), (64, 3)]), (0x52, iw 0x52 [(8, 1), (64, 3), (25, 5)]), (0x53, iw 0x53 [(8, 1)]), (0x51, iw 0x51 [(8, 1), (64, 9)])],
      Issues y.1 0 0 (issuing y.2) (front (issuing y.2))) ∧
    ∀ y ∈ [(0x50, iw 0x50 [(8, 1), (64, 3)]), (0x52, iw 0x52 [(8, 1), (64, 3), (25, 5)])],
      let s := issuing y.2
      bitAt (front s).w 12 = false ∧ (s.core 0).deferred = [] ∧ (s.core 0).ops = [] ∧ (s.core 0).mesh = [] ∧
      ((s.core 0).collar (ifld (front s).w 11 8)).value.toNat + (collarN (front s)).toNat < 2 ^ 32 := by
  refine ⟨?_, by decide +kernel⟩; intro y hy; apply issues_of_ok; revert y; decide +kernel

/-- Words that hand a packet to the mesh port: SEND, SENDT on a data and a service route, RSAMPLE, RCANCEL, and the remote Collar forms. -/
def meshWords : List (Nat × Insn) :=
  [(0x40, iw 0x40 [(8, 1), (16, 1), (23, 3)]), (0x41, iw 0x41 [(8, 2), (16, 1), (20, 2)]), (0x41, iw 0x41 [(8, 3), (16, 1), (20, 2)]),
   (0x70, iw 0x70 [(8, 6)]), (0x71, iw 0x71 [(8, 6)]), (0x50, iw 0x50 [(12, 1), (13, 4), (64, 3)]),
   (0x52, iw 0x52 [(12, 1), (13, 4), (64, 3), (25, 5)]), (0x54, iw 0x54 [(12, 1), (13, 5), (25, 5)]), (0x55, iw 0x55 [(12, 1), (13, 5), (21, 1)])]

theorem witness_mesh_instructions :
    (∀ y ∈ meshWords, Issues y.1 0 0 (issuing y.2) (front (issuing y.2))) ∧
    meshWords.map (fun y => bitAt y.2 12) = [false, false, false, false, false, true, true, true, true] ∧
    rKind (((issuing 0).core 0).route 2) = 2 ∧ rKind (((issuing 0).core 0).route 3) = 3 := by
  refine ⟨?_, by decide +kernel⟩; intro y hy; apply issues_of_ok; revert y; decide +kernel

/-- A TAKE into X4 at a Bowl with one tuple of two words at its ring base 0. -/
def taking : State := issuingOn (iw 0x42 [(8, 3), (14, 4)]) (fun k => { k with
  bowls := [(3, { (k.bowl 3) with wp := 1, wpNext := 1 })]
  spad := memWrite (memWrite [] 0 (leBytes 8 11 ++ leBytes 8 22)) 256 (leBytes 8 (at_ 57 2 + at_ 62 1)) })

theorem witness_claim_complete_take_stepdone :
    (∀ y ∈ [(0x54, iw 0x54 [(8, 2), (25, 5)]), (0x55, iw 0x55 [(8, 2), (21, 1)]), (0x42, iw 0x42 [(8, 3), (14, 4)]), (0x60, iw 0x60 [])],
      Issues y.1 0 0 (issuing y.2) (front (issuing y.2))) ∧
    Issues 0x42 0 0 taking (front taking) ∧
    (let b := (taking.core 0).bowl 3
     ((issuing 0).core 0).bowl 3 = { b with wp := 0, wpNext := 0 } ∧ b.rp ≠ b.wp ∧ (taking.core 0).spadErr = [] ∧
     (match (takeFind 0 b (bDepth b + 1) b.rp taking).1 with | .head p n => (p, n) | .empty => (9, 9) | .bad => (9, 9)) = (0, 2)) ∧
    Issues 0x60 0 0 (issuingOn (iw 0x60 []) (fun k => { k with claimRes := [] })) (front (issuingOn (iw 0x60 []) (fun k => { k with claimRes := [] }))) := by
  refine ⟨?_, issues_of_ok (by decide +kernel), by decide +kernel, issues_of_ok (by decide +kernel)⟩
  intro y hy; apply issues_of_ok; revert y; decide +kernel

/-- The TAKE of that state gives the tuple's words and moves RP past it (R308, R219). -/
theorem test_take_gives_the_tuple :
    (match exec (.take 0 0) taking with
     | .next t => (((t.core 0).stream 0).reg 4, ((t.core 0).stream 0).reg 5, ((t.core 0).bowl 3).rp, ((t.core 0).stream 0).pc)
     | .fault _ => (0, 0, 0, 0) | .refused _ => (0, 0, 0, 0)) = (11, 22, 1, 1) := by decide +kernel

/-- A packet for core 40 of the own device. -/
def packet (h : Hdr) : Pkt := { hdr := { h with dstCore := 40, tag := 7 }, words := [], payload := [], exit := false, origin := 0 }

/-- Router 33 with a table at its E output whose head is `w`, and a packet waiting at input W and one at N. -/
def routing (w : Word) (h : Hdr) : State := { up with howl := 100, cores := [(33, { Core.reset with
  inputs := [(0, { Input.empty with sched := [{ pkt := packet h, at_ := 5, gap := 1 }] }), (3, { Input.empty with sched := [{ pkt := packet h, at_ := 4, gap := 1 }] })]
  outputs := [(1, { Output.reset with table := { entries := 1, periods := 1, idle := false, beats := 100, words := [(0, w)] }, launchAt := 50 })] })] }

/-- A Leash entry with a KIND, inputs as a mask N, E, S, W, L, one flit, TAG 7 (R277). -/
def entryWord (kind inputs : Nat) : Word := BitVec.ofNat 64 (at_ 61 kind + at_ 56 inputs + at_ 48 1 + at_ 36 7)

/-- Every premise of the first ENTRY_START clause at output E of router 33. -/
def entryReady (s : State) : Bool :=
  let o := (s.core 33).output .e
  let w := o.table.entry o.head
  o.headPacket = some w &&
  match contributions s.device 33 (s.core 33) .e w with
  | some (x :: rest) =>
    let outs := entryOuts 33 .e x s
    wrongLength 33 outs x s = none && rest.all (fun y => sameMerge x.pkt.hdr y.pkt.hdr) && (eKind w ≠ 1 || x.pkt.hdr.reduce) &&
    outsReady 33 outs x s && (gatherPayloads 33 (x :: rest) s).1.isSome
  | some [] => false
  | none => false

/-- Whether a packet is at the head of output E of router 33 and one of its outputs would send it with the wrong length. -/
def entryWrong (s : State) : Bool :=
  match contributions s.device 33 (s.core 33) .e (((s.core 33).output .e).table.entry 0) with
  | some (x :: _) => (wrongLength 33 (entryOuts 33 .e x s) x s).isSome
  | some [] => false
  | none => false

/-- Whether such a packet has its length right and waits for the link of output E. -/
def entryWaits (s : State) : Bool :=
  match contributions s.device 33 (s.core 33) .e (((s.core 33).output .e).table.entry 0) with
  | some (x :: rest) =>
    wrongLength 33 (entryOuts 33 .e x s) x s = none && rest.all (fun y => sameMerge x.pkt.hdr y.pkt.hdr) && !outsReady 33 (entryOuts 33 .e x s) x s
  | some [] => false
  | none => false

theorem witness_router_entries :
    entryReady (routing (entryWord 0 8) Hdr.zero) = true ∧ entryReady (routing (entryWord 1 9) { Hdr.zero with reduce := true }) = true ∧
    entryReady (routing (entryWord 0 8) { Hdr.zero with mcast := true, colMask := 0x100, rowMask := 2 }) = true ∧
    entryWrong (routing (entryWord 0 8 + (1 <<< 48)) Hdr.zero) = true ∧
    entryWaits ((routing (entryWord 0 8) Hdr.zero).modCore 33 (fun k => k.setOutput .e { k.output .e with freeAt := 1 })) = true ∧
    (let s := routing (entryWord 0 1) { Hdr.zero with tag := 9, service := false, mcast := true }
     let o := (s.core 33).output .e
     o.headPacket = some (entryWord 0 1) ∧ o.slipped = false ∧ howlGe s.howl o.heldFrom = true ∧ startable 33 .e s = false) ∧
    (let o := (up.core 33).output .e; o.freeAt ≤ up.clock ∧ o.table.idle = true) ∧
    (∀ k ∈ [2, 3], let s := routing (entryWord k 8) Hdr.zero; let o := (s.core 33).output .e
      o.freeAt ≤ s.clock ∧ o.table.idle = false ∧ o.running = true ∧ eKind (o.table.entry o.head) = k) := by decide +kernel

theorem witness_slip : let s := routing (entryWord 0 8) Hdr.zero
    s.stat (0x1000 + 33) (0x20 + Dir.e.code) + 1 < 2 ^ 64 - 1 ∧ s.stat 0x5010 1 + 1 < 2 ^ 64 - 1 ∧
    s.stat 0x5010 2 + (howlDiff s.howl ((s.core 33).output .e).heldFrom).toNat < 2 ^ 64 - 1 ∧ s.slipHeld = false ∧
    ({ s with slipHeld := true } : State).slipHeld = true := by decide +kernel

/-- Core 33 with a packet on the link of input W, or at the core side of its L output. -/
def arriving (p : Pkt) : State := { up with cores := [(33, { Core.reset with inputs := [(3, { Input.empty with link := [p] })], lq := [p] })] }

/-- A multicast of core 33 to the one leaf 40. -/
def oneMcast : SvcMcast :=
  { tag := 1, colMask := 0x100, rowMask := 2, sentAt := 0, left := true, answered := [], refused := [], hdr := Hdr.zero, origin := 0 }

/-- A teardown of program 0 at its start. -/
def openTeardown : Teardown :=
  { prog := 0, startedAt := 0, drained := false, drainEnd := 0, dumpOpen := false, zeroScratchOpen := true, zeroHbmOpen := true
    resetOpen := false, quarantineOpen := true, reset := false, cause := 0, escalated := false, record := 0 }

theorem witness_headers_answers_drains :
    (∀ p ∈ [packet { Hdr.zero with ptype := 9 }, packet { Hdr.zero with ptype := 3, service := true }],
      (((arriving p).core 33).input .w).stuck = false ∧ nextOnLink 33 .w (arriving p) = some (p, [])) ∧
    (packet { Hdr.zero with ptype := 9 }).isFetch = true ∧ (packet { Hdr.zero with ptype := 3, service := true }).isFetch = false ∧
    (packet { Hdr.zero with ptype := 3, service := true }).isSvc = true ∧
    (let s := routing (entryWord 0 8) Hdr.zero; let p := packet Hdr.zero
     p.isFetch = false ∧ p.isSvc = false ∧ (outDirs s.device 33 .w p).all (fun q => hasMatch ((s.core 33).output q) .w p.hdr) = true) ∧
    (let s := up.modCore 33 (fun k => k.setOutput .e { k.output .e with table := { LeashTable.idleTable with idle := false, words := [] } }); let p := packet Hdr.zero
     (outDirs s.device 33 .w p).find? (fun q => !hasMatch ((s.core 33).output q) .w p.hdr) = some .e) ∧
    (let s := up.modPack (packOf 33) (fun k => { k with teardown := some openTeardown })
     (s.core 33).routerEmpty = true ∧ (s.pack (packOf 33)).teardown.isSome = true ∧ (s.core 33).tablesDone = true) ∧
    (let s := (up.modPack (packOf 33) (fun k => { k with everLaunched := true })).modCore 33 (fun k => k.setOutput .e
      { Output.reset with shadow := some { entries := 1, periods := 1, idle := false, beats := 9, words := [] } })
     (s.core 33).routerEmpty = true ∧ (s.pack (packOf 33)).teardown = none ∧ (s.pack (packOf 33)).everLaunched = true ∧
     Dir.all.any (fun q => ((s.core 33).output q).shadow.isSome) = true) ∧
    (let p := packet { Hdr.zero with ptype := 0x0D, srcCore := 40 }
     [oneMcast].find? (fun m => m.hdr.dstBowl = p.hdr.dstBowl && m.leaves.contains p.hdr.srcCore && !m.answered.contains p.hdr.srcCore) = some oneMcast) ∧
    [oneMcast].find? (fun m => m.left && decide ((2 : Int) ^ 14 ≤ howlDiff 16384 m.sentAt)) = some oneMcast ∧
    [oneMcast].find? (fun m => m.left && decide ((2 : Int) ^ 14 ≤ howlDiff 16383 m.sentAt)) = none := by decide +kernel

/-- A Bowl of eight entries with a window of one granule. -/
def smallBowl (used : Nat) (svc : Bool) : Bowl := { Bowl.none with
  isOpen := true, wpNext := BitVec.ofNat 15 used, cfg := BitVec.ofNat 128 (at_ 0 1 + at_ 1 (bit01 svc) + at_ 20 3 + at_ 32 7 + at_ 77 4) }

/-- Every branch of the judgement is taken by some Bowl and header, at the values where the branches meet. -/
theorem witness_bowl_judgement :
    let h : Hdr := { Hdr.zero with ptype := 2, nw := 4, gen := 7 }
    let block : Hdr := { Hdr.zero with ptype := 1, len := 1, gen := 7 }
    judge (smallBowl 0 false) { h with gen := 6 } = .discard ∧ judge Bowl.none { h with gen := 0 } = .refuse 1 ∧
    judge { smallBowl 0 false with isOpen := false } h = .refuse 1 ∧
    judge (smallBowl 0 false) { h with service := true } = .refuse 3 ∧
    judge (smallBowl 0 false) block = .write ∧ judge (smallBowl 0 false) { block with doff := 1 } = .refuse 4 ∧
    judge (smallBowl 7 false) h = .write ∧ judge (smallBowl 8 false) h = .hold ∧
    judge (smallBowl 8 true) { h with service := true } = .refuse 2 ∧ judge (smallBowl 8 false) block = .write ∧
    judge (smallBowl 7 false) { h with nw := 8 } = .hold := by decide +kernel

theorem witness_bowl_delivery :
    (let p := packet { Hdr.zero with ptype := 2, nw := 4, gen := 7, dstBowl := 3 }
     (((arriving p).core 33).lq = [p]) ∧ p.forBowl = true) ∧
    ((taking.modCore 0 (fun k => k.setBowl 3 { k.bowl 3 with wpNext := 2 })).core 0).bowl 3 ≠ (taking.core 0).bowl 3 ∧
    (let b := ((taking.modCore 0 (fun k => k.setBowl 3 { k.bowl 3 with wpNext := 2 })).core 0).bowl 3; b.wp ≠ b.wpNext) ∧
    (let p : Pkt := { packet { Hdr.zero with ptype := 0x0B } with words := [BitVec.ofNat 64 (at_ 24 0 + 2)] }
     ((issuingOn 0 (fun k => { k with lq := [p] })).core 0).lq = [p] ∧
     ((((issuingOn 0 (fun k => { k with lq := [p] })).core 0).stream (bitsOf (nth 0 p.words 0) 24 3)).st).live = true) ∧
     (∀ x ∈ [({ up with ctxs := [(0, { Ctx.none with owner := some 0 })], packs := [(0, { Pack.reset with prog := some 0 })] } : State)],
       (x.feedbackOf (packOf (retrRouter 0)) [0, 0] = some 0 ∧ (x.pack (packOf (retrRouter 0))).retr.stopped = false)) ∧
     up.feedbackOf (packOf (retrRouter 0)) [0, 0] = none ∧
    (let p := packet { Hdr.zero with ptype := 0x0C }; ((arriving p).core 33).lq = [p] ∧ p.hdr.ptype = 0x0C) ∧
    (∀ st ∈ [StreamState.parkedCollar, .parkedBowl, .parkedClaim],
      let t := ((issuingOn 0 (fun k => k.setStream 0 { k.stream 0 with st := st, woken := true })).core 0).stream 0
      t.woken = true ∧ t.st = st) := by decide +kernel

theorem witness_remote_collar_operations :
    (∀ op : Fin 5, let p : Pkt := { packet { Hdr.zero with ptype := 5, dstBowl := 1 } with words := [BitVec.ofNat 64 (at_ 32 op + 3), 0] }
      ((arriving p).core 33).lq = [p] ∧ p.hdr.ptype = 5 ∧ bitsOf (nth 0 p.words 0) 32 3 = op) ∧
    (let p (k : Nat) (op : Nat) : Pkt := { packet { Hdr.zero with ptype := 5, dstBowl := k } with words := [BitVec.ofNat 64 (at_ 32 op), 0] }
     remoteAccepts ((coreWith 0).collar 1) (p 1 0) false = true ∧ remoteAccepts ((coreWith 0).collar 2) (p 2 2) true = true ∧
     remoteAccepts ((coreWith 0).collar 2) (p 2 3) true = true ∧ remoteAccepts ((coreWith 0).collar 2) (p 2 0) false = false ∧
     remoteAccepts ((coreWith 0).collar 1) (p 1 2) true = false) ∧
    (let p := packet { Hdr.zero with ptype := 6 }; ((arriving p).core 33).lq = [p] ∧ p.hdr.ptype = 6) := by decide +kernel

theorem witness_collar_add :
    ((issuing 0).core 0).collar 1 = { Collar.none with configured := true, value := 5 } ∧ 5 + (0xFFFFFFFA : BitVec 32).toNat < 2 ^ 32 ∧
    2 ^ 32 ≤ 5 + (0xFFFFFFFB : BitVec 32).toNat ∧
    (let s := collarAdd 0 1 4 (issuingOn 0 (fun k => k.setStream 1 { Stream.none with st := .parkedCollar, waitCollar := 1, waitT := 9 }))
     ((s.core 0).stream 1).st = .parkedCollar ∧ ((s.core 0).stream 1).waitT.toNat ≤ ((s.core 0).collar 1).value.toNat ∧
     ((s.core 0).stream 1).woken = true) := by decide +kernel

theorem witness_ledger :
    let led (v : BitVec 32) (spad : Tab Byte) : State := issuingOn 0 (fun k => { k with
      spad := spad, collars := [(2, { Collar.none with configured := true, ledgered := true, value := v, ledger := BitVec.ofNat 64 (at_ 32 3) })] })
    let find (s : State) := let d := ((s.core 0).collar 2).ledger
      (List.range (ledgerLimit d)).find? (fun i => ownerReissue ((s.core 0).ownerEntry d i))
    find (led 3 []) = none ∧ ledgerLimit ((((led 3 []).core 0).collar 2).ledger) = 3 ∧ find (led 2 []) = none ∧
    find (led 2 [(64 + 4 + 2, 1)]) = some 1 := by decide +kernel

/-- The state an outcome leads to. -/
def nextOr (s : State) (o : Host.Outcome State Fault Refusal) : State :=
  match o with | .next t => t | .fault _ => s | .refused _ => s

/-- The state after a command. -/
def after (c : Instr) (s : State) : State := nextOr s (exec c s)

/-- A module whose core 0 has issued `c`, whose word is `w`. -/
def issuedState (c : Instr) (w : Insn) : State := after c (issuing w)

/-- An MMA of one 1 by 1 problem of BF16 with G = 1, into accumulator 0. -/
def mmaWord : Insn := iw 0x20 [(8, 1), (14, 1), (20, 1), (30, 1), (45, 1), (47, 6), (50, 6), (73, 4), (85, 1), (61, 1), (65, 3), (69, 4)]

theorem witness_engines_complete :
    (let s := issuedState (.mma 0 0) mmaWord
     let k := s.core 0
     tabGet false k.engReset 0 = false ∧
     (k.ops.find? (fun o => o.engine = .matrix && !o.abandoned && decide (o.computed < o.mma.probs))).any (fun o =>
       (readOperands 0 o.mma o.computed (drainBefore 0 (o.mma.accOf o.computed) s)).1.isSome) = true) ∧
    (let s := after (.matrixProblemReady 0 []) (issuedState (.mma 0 0) mmaWord)
     let k := s.core 0
     tabGet false k.engReset 2 = false ∧
     (k.ops.find? (fun o => o.engine = .matrix && !o.abandoned && o.computed = o.mma.probs)).any (fun o =>
       (((drainUpTo 0 o.seq o.mma.probs (o.mma.probs - o.drained) s).core 0).opBySeq o.seq).any (fun q => !q.abandoned)) = true) ∧
    (let s := issuedState (.add 0 0) (vecWord 0x30)
     let k := s.core 0
     tabGet false k.engReset 1 = false ∧
     (k.ops.find? (fun o => o.engine = .vector && !o.abandoned)).any (fun o => (runVector 0 o s).1.isSome) = true) := by decide +kernel

/-- A DCFG of the 64 bytes at address 64, which hold `v` in their first word. -/
def dcfgState (v : Word) : State :=
  (issuedState (.dcfg 0 0) (iw 0x21 [(8, 1), (11, 64)])).modCore 0 (fun k => { k with spad := memWrite [] 64 (leBytes 8 v.toNat) })

theorem witness_dcfg : ∀ v ∈ [((0 : Nat), false), (at_ 60 9, true)],
    let s := dcfgState (BitVec.ofNat 64 v.1)
    let k := s.core 0
    tabGet false k.engReset 2 = false ∧ (k.ops.find? (fun o => o.engine = .drain)).any (fun o =>
      (readPort 0 2 (ifld o.word 31 11) 64 s).1.any (fun l => (chainBad (bytesWords l) || stagesAbove (s.core 0).fence (bytesWords l)) == v.2) && (((s.core 0).stream o.stream).st).live) = true := by decide +kernel

/-- A FETCH, and a STORE, of one granule that has issued. -/
def fetching : State := issuedState (.fetch 0 0) (iw 0x10 [(8, 1), (12, 2), (16, 1), (29, 1)])
def storing : State := issuedState (.store 0 0) (iw 0x11 [(8, 1), (12, 2), (16, 1), (29, 1)])

/-- A state with a packet at the core side of core 0's L output. -/
def handed (s : State) (p : Pkt) : State := s.modCore 0 (fun k => { k with lq := [p] })

/-- A fetch reply of tag 0 and a generation, with 64 bytes. -/
def replyPkt (gen : Nat) : Pkt :=
  { hdr := { Hdr.zero with ptype := 0x0A }, words := [0, BitVec.ofNat 64 (at_ 32 gen)], payload := List.replicate 64 7, exit := false, origin := 0 }

theorem witness_fetch_engine :
    (∀ s ∈ [(fetching, 0x10), (storing, 0x11)], let k := s.1.core 0
      k.freeTag = some 0 ∧ tabGet false k.engReset 3 = false ∧ (k.input .l).fetch.length < 2 ∧
      (k.ops.find? (fun o => o.engine = .fetch && decide (o.issuedReq < o.requests.length))).any (fun o => opOf o.word = s.2 &&
        (readPort 0 6 (nth (0, 0, 0) o.requests 0).2.1 (nth (0, 0, 0) o.requests 0).2.2 s.1).1.isSome) = true) ∧
    (∀ gen ∈ [0, 1], let s := handed (after (.fetchRequestIssue 0) fetching) (replyPkt gen)
      let k := s.core 0
      k.lq = [replyPkt gen] ∧ bitsOf (nth 0 (replyPkt gen).words 1) 30 2 = 0 ∧ bitsOf (nth 0 (replyPkt gen).words 0) 56 8 = 0 ∧
      (bitsOf (nth 0 (replyPkt gen).words 1) 32 8 = (tabGet 0 k.tagGen 0).toNat ↔ gen = 0) ∧ (k.reqs.find? (fun r => r.tag = 0)).isSome = true) ∧
    (((after (.fetchReply 0) (handed (after (.fetchRequestIssue 0) fetching) (replyPkt 0))).core 0).ops.find?
      (fun o => o.engine = .fetch && o.doneReq = o.requests.length)).isSome = true := by decide +kernel

/-- The FETCH's reply puts its bytes into the scratchpad (R207, R379). -/
theorem test_fetch_writes_the_scratchpad :
    memRead ((after (.fetchReply 0) (handed (after (.fetchRequestIssue 0) fetching) (replyPkt 0))).core 0).spad 0x40000 64 = List.replicate 64 7 := by
  decide +kernel

theorem witness_groomer :
    groomRuns 0 up = true ∧ (up.core 0).groomActive = false ∧ (up.core 0).groomStart + (up.core 0).groomPeriod ≤ up.clock ∧
    (let s := up.modCore 0 (fun k => { k with groomActive := true })
     groomRuns 0 s = true ∧ (s.core 0).rewriteQ = [] ∧ (s.core 0).groomAt + 1 < spadBytes / 8) ∧
    (let s := up.modCore 0 (fun k => { k with rewriteQ := [64] }); groomRuns 0 s = true ∧ (s.core 0).rewriteQ = [64]) := by decide +kernel

/-- A module with stack 0 in a state, with a read request of the granule at 0 from edge link 0. -/
def stackReq (wr : Bool) : StackReq :=
  { pkt := { hdr := { Hdr.zero with ptype := 9 }, words := fetchWords wr 64 0 0 0 0 0, payload := List.replicate 64 3, exit := false, origin := 0 }
    source := 0 }
def stackUp (st : StackState) (wr : Bool) : State := { up with hbmStacks := [(0, { Stack.reset with
  state := st, waiting := [stackReq wr], accepted := [stackReq wr] })] }

theorem offered_room (k : Stack) (h : k.accepted = []) : k.offered = fun src => k.waiting.find? (fun r => r.source = src) := by
  funext src; simp [Stack.offered, Stack.queueRoom, h]

/-- A stack in a state whose one waiting request has not been accepted. -/
def oneWaiting (st : StackState) : Stack := { Stack.reset with state := st, waiting := [stackReq false] }

theorem witness_hbm_requests :
    (∀ st ∈ [StackState.serving, .failed], let k := ({ up with hbmStacks := [(0, oneWaiting st)] } : State).stack 0
      k.state = st ∧ st ≠ .recalibrating ∧ (rotating k.turn).findSome? k.offered = some (stackReq false)) ∧
    ∀ wr ∈ [false, true], let s := stackUp .serving wr
      let k := s.stack 0
      k.accepted[0]? = some (stackReq wr) ∧ (k.accepted.take 0).any (fun q => shareLine q (stackReq wr)) = false ∧
      ((s.core (replyEntry 0 0).1).input (replyEntry 0 0).2).accepts (fetchReplyPkt (stackReq wr).pkt 0 []) = true ∧
      reqWrites (stackReq wr).pkt = wr := by
  refine ⟨fun st hst => ⟨rfl, by revert st; decide +kernel, ?_⟩, by decide +kernel⟩
  show (rotating 0).findSome? (oneWaiting st).offered = _
  rw [offered_room _ rfl]
  show (rotating 0).findSome? (fun src => [stackReq false].find? (fun r => r.source = src)) = _
  decide +kernel

theorem witness_rfm : let s : State := { up with hbmStacks := [(0, { Stack.reset with activations := [(5, Config.raaimt)] })] }
    Config.raaimt ≤ 2 * tabGet 0 (s.stack 0).activations 5 ∧ s.stat 0x2000 6 + 1 < 2 ^ 64 - 1 := by
  refine ⟨?_, by decide +kernel⟩
  show Config.raaimt ≤ 2 * Config.raaimt
  omega

theorem witness_hbm_bytes : tabWf 0 up.hbm = true ∧ 64 ≤ 64 * 1 ∧ 64 * 1 + 64 ≤ 64 + (List.replicate 64 (7 : Byte)).length := by decide +kernel

theorem witness_stack_commands :
    Answering up ∧
    (∀ st ∈ [StackState.serving, .recalibrating, .retraining], ((stackUp st false).stack 0).state = st) ∧
    (stackUp .recalibrating false).heldRing = [] ∧ tempMoved 0x41200000 0 = true ∧ tempMoved 0x411FFFFF 0 = false ∧
    (up.retrainBusy 0 = false) ∧ ({ up with load := { up.load with state := .checking } } : State).retrainBusy 0 = true ∧
    up.stat 0x2000 0x0A + 1 < 2 ^ 64 - 1 ∧ up.stat 0x2000 0x0B + 1 < 2 ^ 64 - 1 := by
  refine ⟨⟨rfl, rfl⟩, ?_⟩; decide +kernel

/-- An image of no cores with an empty CONTEXTS section, for pack 0, at address 0 of stack 0. -/
def emptyImage : List Byte :=
  strBytes "DVMLOAD1" ++ leBytes 2 1 ++ leBytes 1 0xB1 ++ [0] ++ leBytes 4 0x1088 ++ leBytes 4 0 ++ leBytes 2 1 ++ leBytes 2 0 ++ leBytes 2 0 ++ leBytes 2 0 ++
  leBytes 4 32 ++ leBytes 8 320 ++ leBytes 8 256 ++ leBytes 4 1 ++ List.replicate 204 0 ++
  leBytes 2 0x0D ++ leBytes 2 0xFFFF ++ leBytes 4 0 ++ leBytes 8 320 ++ leBytes 8 0 ++ leBytes 8 0

/-- An owned module in Idle that holds that image and checks it. -/
def checkingState : State := { up with
  power := { up.power with dev := .idle }, hbm := memWrite [] 0 emptyImage, hbmStacks := [(0, { Stack.reset with state := .serving })], sec := { up.sec with owner := .owned }
  load := { up.load with state := .checking } }

theorem pedigree_of_empty_image
    (h1 : Config.verifyEd25519 checkingState.sec.edPub (checkingState.imgSig (checkingState.img 0)).1 (checkingState.imgSig (checkingState.img 0)).2.1 = true)
    (h2 : Config.verifyMlDsa checkingState.sec.mlPub (checkingState.imgSig (checkingState.img 0)).1 (checkingState.imgSig (checkingState.img 0)).2.2 = true)
    (h3 : Config.sha512 (checkingState.hbmRead 256 64) = checkingState.imgDigest 0)
    (h4 : Config.logitOrderBad (checkingState.imgDigest 0) = false) : checkingState.pedigree 0 = none := by
  have g : checkingState.img 0 = { base := 0, level := 0, flags := 0, mask := 1, ctxFirst := 0, ctxCount := 0, margin := 32, len := 320, sectOff := 256, sectCount := 1, extent := 0, device := 0, seed := 0, opset := 0, compiler := 0 } := by decide +kernel
  have head : checkingState.checkHead (checkingState.img 0) = none := by
    unfold State.checkHead
    rw [if_neg (by decide +kernel), if_neg (by decide +kernel), if_neg (by decide +kernel), if_neg (by decide +kernel), if_neg (by decide +kernel),
      if_neg, if_neg, if_neg]
    · have q : checkingState.imgReadable 256 64 = true := by decide +kernel
      simpa [q, g] using h3
    · have q : checkingState.imgReadable ((checkingState.img 0).base + (checkingState.img 0).len + 64) 3309 = true := by decide +kernel
      simpa [q] using h2
    · have q : checkingState.imgReadable ((checkingState.img 0).base + (checkingState.img 0).len) 64 = true := by decide +kernel
      simpa [q] using h1
  have ctx : checkingState.checkContexts (checkingState.image 0 0) = none := by
    have hs : findSect (checkingState.image 0 0).sects 0x0D 0xFFFF = some { typ := 0x0D, core := 0xFFFF, count := 0, off := 320, len := 0 } := by
      decide +kernel
    have hh : (checkingState.image 0 0).hdr = checkingState.img 0 := rfl
    unfold State.checkContexts
    simp only [hs, hh, g]
    rw [if_neg (by decide +kernel), if_neg (by simp [h4])]
    decide +kernel
  have hc : (checkingState.image 0 0).cores = [] := List.isEmpty_iff.mp (by decide +kernel)
  have sects : checkingState.checkSects (checkingState.img 0) (checkingState.sects (checkingState.img 0)) = none := by decide +kernel
  unfold State.pedigree
  simp only [head, sects, orElse]
  rw [List.findSome?_eq_none_iff]
  simp only [List.mem_cons, List.not_mem_nil, or_false, id_eq, forall_eq_or_imp, forall_eq]
  refine ⟨?_, ?_, ?_, ?_, ?_, ?_, ?_, ?_, ?_, ?_, ?_, ?_, ?_, ?_, ?_, ?_, ?_, ?_, ?_, ?_, ?_, ctx, ?_, ?_⟩ <;>
    (try simp only [State.checkReserved, checkInsns, State.checkDrains, checkLeash, checkSpacing, checkRoutes, checkBowlRegion, checkBowlOverlap,
      checkBowlFields, checkLedgers, checkReceivers, checkPaths, checkRejoins, checkFence, State.checkFenceContents, checkCollars, State.checkHeel,
      eachCore, hc, List.findSome?_nil, orElse]) <;> decide +kernel

theorem witness_load_commands :
    Answering up ∧ ({ up with load := { up.load with state := .checking } } : State).load.state = .checking ∧ up.loadRefused = false ∧
    (let s : State := { up with hbm := memWrite [] 19 [2] }; s.load.state = .idle ∧ s.loadRefused = true) ∧
    ({ up with load := { up.load with state := .installed } } : State).load.state = .installed ∧
    (let s : State := { up with load := { up.load with state := .checking } }
     s.load.state = .checking ∧ (s.pedigree s.load.image).isSome = true ∧ s.stat 0x5017 2 + 1 < 2 ^ 64 - 1 ∧ s.stat 0x5017 1 + 1 < 2 ^ 64 - 1) ∧
    checkingState.load.state = .checking ∧ checkingState.load.image = 0 ∧ checkingState.load.checkOnly = false ∧
    ({ up with load := { up.load with state := .installing } } : State).load.state = .installing := by
  refine ⟨⟨rfl, rfl⟩, ?_⟩; decide +kernel

/-- Pack 0 runs program 0 on core 0, which has finished, with one descriptor of launch 50 at its head and 100 on the Howl. -/
def launching (gated : Bool) : State :=
  { (issuingOn 0 (fun k => { k with streams := [(0, { Stream.none with st := .parkedLaunch })] })) with
    howl := 100
    packs := [(0, { Pack.reset with
      prog := some 0, state := .running, queue := [{ step := 7, launch := 50, gated := gated, margin := 32 }] })]
    progs := [(0, { Program.none with packs := 1, used := [(0, true)], ctxCount := 16 })] }

/-- A re-placement of program 0 in a phase. -/
def oneReplace (ph : ReplacePhase) : Replace := { prog := 0, phase := ph, failAt := 0, step := 7, code := 0xC1, old := [], moved := [] }

theorem witness_step_launches :
    Launches 0 0 (launching false) ∧
    (let s := launching false
     (s.pack 0).queue = [{ step := 7, launch := 50, gated := false, margin := 32 }] ∧ s.replaying 0 = false ∧ howlGe s.howl 50 = true ∧
     s.packReady 0 = true) ∧
    (let s : State := { launching false with howl := 49 }
     s.replaying 0 = false ∧ (s.packReady 0 && howlGe s.howl 50) = false ∧ (s.pack 0).queue ≠ []) ∧
    (let s := (launching true).modPack 0 (fun k => { k with goAt := some 100 })
     (s.pack 0).goAt = some 100 ∧ howlGe s.howl 100 = true ∧ s.replOf 0 = none ∧ (s.pack 0).queue ≠ [] ∧ (s.pack 0).relockEnd = none) ∧
    (let s : State := { (launching true).modPack 0 (fun k => { k with goAt := some 100 }) with vet := { Vet.reset with repl := [oneReplace .ready] } }
     s.progOf 0 = some 0 ∧ s.mayLaunch 0 = true ∧ s.replOf 0 = some (oneReplace .ready) ∧ (s.pack 0).goAt = some 100 ∧ (s.pack 0).relockEnd = none ∧ s.replaying 0 = true ∧
     s.replayOpen 0 = true) ∧
    (let s := launching true
     packOf 0 = 0 ∧ (s.usedCores 0).contains 0 = true ∧ (s.core 0).postedReady = false ∧ (s.core 0).finished = true ∧ (s.core 0).gatesMet = true ∧
     (s.pack 0).queue ≠ [] ∧ s.replayOpen 0 = true) ∧
    (let s := (launching false).modCore 0 (fun k => { k with streams := [(0, { Stream.none with st := .ready })] })
     s.packReady 0 = false ∧ (s.pack 0).overran = false) ∧
    (((launching true).modPack 0 (fun k => { k with relockEnd := some 9 })).pack 0).relockEnd.isSome = true := by
  refine ⟨⟨rfl, by decide +kernel⟩, ?_⟩; decide +kernel

theorem test_timed_launch_enters_the_step :
    let t := after (.timedLaunch 0) (launching false)
    (t.pack 0).step = 7 ∧ (t.pack 0).queue = [] ∧ ((t.core 0).stream 0).st = .ready ∧ (t.pack 0).launchAt = 100 := by decide +kernel

theorem witness_launch_enters : (launching false).progOf 0 = some 0 ∧ (launching false).usedCores 0 = [0] ∧
    (((launching false).core 0).stream 0).st = .parkedLaunch ∧
    (((launching false).modCore 0 (fun k => k.setOutput .e { Output.reset with table := { LeashTable.idleTable with idle := false } })).core 0
      |>.output .e).table.idle = false ∧
    ((launching false).prog 0).launched = false ∧ bConf (((issuing 0).core 0).bowl 3) = true ∧ (launching false).progPacks 0 = [0] ∧
    ({ launching false with load := { up.load with state := .installed } } : State).load.prog = 0 := by decide +kernel

theorem witness_howl_and_clock : up.howl.toNat % 4096 = 0 ∧ up.power.rails = true ∧ up.power.booted = true ∧ up.power.ppsAt = 0 ∧
    (let s : State := { up with clock := 82501, power := { up.power with ppsAt := 1 } }; s.power.ppsAt + 82500 < s.clock + 1) ∧ up.stat (0x1000 + 5) 2 + 1 < 2 ^ 64 - 1 := by decide +kernel

/-- As `launching`, with the generator set up for pack 0. -/
def generating (running hostFed : Bool) : State := { launching false with
  gen := { packs := 1, gated := false, period := 10, first := 1000, running := running, k := 0, nextStep := 0, hostFed := hostFed } }

theorem witness_launch_generator :
    Answering up ∧ (generating true false).gen.running = true ∧ up.gen.running = false ∧ up.gen.period = 0 ∧
    (let s := generating false false
     s.gen.running = false ∧ s.gen.period ≠ 0 ∧ s.gen.packs ≠ 0 ∧ s.oneProgram s.gen.packList = some 0 ∧ howlTooFar s.gen.first s.howl = false) ∧
    (let s : State := { generating false false with packs := [] }; s.oneProgram s.gen.packList = none) ∧
    howlTooFar 0x4000000000000001 0 = true ∧ howlTooFar 0x4000000000000000 0 = false ∧
    (let s := generating true false
     s.gen.packList.any (fun p => (s.pack p).queue.length < 8) = true ∧ s.gen.packList.any (fun p => 64 ≤ (s.pack p).queue.length) = false) ∧
    (let s := generating false true
     s.barServed = true ∧ s.barRefused 0 false = false ∧ s.serves 0 0 = true ∧ s.progOf 0 = some 0 ∧ s.gen.hostFed = true ∧
     (s.pack 0).state = .running ∧ (s.pack 0).queue.length < 64 ∧ howlTooFar 200 s.howl = false) := by
  refine ⟨⟨rfl, rfl⟩, ?_⟩; decide +kernel

theorem test_appended_descriptor :
    ((after (.lwTimeWrite 0 0 none 200 8 false) (generating false true)).pack 0).queue.map (fun d => d.launch) = [50, 200] := by decide +kernel

/-- Context 0 owned by program 0, rings of 16 entries at 0x1000 and 0x2000, its record at 0x3000. -/
def ringCtx : Ctx := { Ctx.none with
  owner := some 0, width := 1, vocab := 4, maxPos := 100, stateAddr := 0x3000, inBase := 0x1000, cplBase := 0x2000, inLog2 := 4, cplLog2 := 4 }

/-- A running program with that context and stack 0 serving; `entry` is the first input entry. -/
def ringState (entry : List Byte) (k : Ctx) : State := { launching false with
  ctxs := [(0, k)], hbmStacks := [(0, { Stack.reset with state := .serving })], hbm := memWrite [] 0x1000 entry }

theorem witness_doorbells : let s := ringState [] ringCtx
    BarOpen 0 false s ∧ s.serves 0 0 = true ∧ (s.ctx 0).owner = some 0 ∧
    ((16 : BitVec 32) - s.inRead 0).toNat ≤ 2 ^ (s.ctx 0).inLog2 ∧ ((16 : BitVec 32) - (s.ctx 0).inTail).toNat ≤ 2 ^ (s.ctx 0).inLog2 ∧
    2 ^ (s.ctx 0).inLog2 < ((17 : BitVec 32) - s.inRead 0).toNat ∧ ((s.ctx 0).cplTail - 0).toNat ≤ 2 ^ (s.ctx 0).cplLog2 ∧
    2 ^ (s.ctx 0).cplLog2 < ((s.ctx 0).cplTail - 1).toNat ∧ s.stat 0x501D 2 + 1 < 2 ^ 64 - 1 ∧ (s.ctx 16).owner = none ∧ s.serves 0 (16 % 16) = true := by
  refine ⟨⟨by decide +kernel, by decide +kernel⟩, ?_⟩; decide +kernel

/-- A 64-byte entry of a kind with a count. -/
def entry (kind count : Nat) : List Byte := fitTo 0 64 (leBytes 1 kind ++ [0] ++ leBytes 2 count)

/-- Kinds, counts and well-formedness of the entries that INPUT_TOKENS and its like meet. -/
def entries : List (Nat × Nat × Bool) :=
  [(1, 1, false), (2, 0, false), (3, 0, false), (4, 0, false), (1, 0, true), (0, 0, true), (2, 1, true), (3, 1, true), (4, 1, true)]

/-- `ringState` with an entry that the host has announced. -/
def announced (e : Nat × Nat × Bool) : State := ringState (entry e.1 e.2.1) { ringCtx with inTail := 1 }

theorem witness_input_entries :
    (∀ e ∈ entries,
      let s := announced e
      let k := s.ctx 0
      k.owner = some 0 ∧ k.stage = .idle ∧ k.inSeen ≠ k.inTail ∧ s.power.rails = true ∧ (s.pack 0).retr.stopped = false ∧
      (ringRead 0x1000 64 s).1 = .done (entry e.1 e.2.1) ∧ k.inAddr k.inSeen = 0x1000 ∧
      entKind (entry e.1 e.2.1) = e.1 ∧ entMalformed (entry e.1 e.2.1) (s.prog 0).windows = e.2.2) ∧
    ((ringState [] { ringCtx with stage := .params true }).ctx 0).stage = .params true ∧
    ((ringState [] { ringCtx with stage := .params false }).ctx 0).stage = .params false := by
  refine ⟨fun e he => ?_, by decide +kernel⟩
  have clean : ∀ e ∈ entries, (linesOf 0x1000 64).all (fun l => decide ((announced e).lineErr l = 0)) = true ∧
      (announced e).hbmRead 0x1000 64 = entry e.1 e.2.1 := by decide +kernel
  have read : (ringRead 0x1000 64 (announced e)).1 = .done (entry e.1 e.2.1) := by
    rw [ringRead_clean _ _ _ rfl rfl rfl (by decide +kernel) (clean e he).1, (clean e he).2]
  clear clean
  refine ⟨rfl, rfl, ?_, rfl, rfl, read, ?_⟩ <;> (clear read; revert e; decide +kernel)

/-- A logits packet of `n` FP32 zeros for context 0, SEQ `seq`, and a command for it. -/
def logitsPkt (n seq : Nat) : Pkt :=
  { hdr := { Hdr.zero with ptype := 7, len := 1 }, words := [BitVec.ofNat 64 (retrieverWord 0 0 + at_ 16 seq)], payload := List.replicate (4 * n) 0
    exit := false, origin := 0 }
def commandPkt (cancel : Bool) (seq : Nat) : Pkt :=
  { hdr := { Hdr.zero with ptype := 8 }, words := [BitVec.ofNat 64 (retrieverWord 0 0 + at_ 16 seq + at_ 33 (bit01 cancel))], payload := []
    exit := false, origin := 0 }

/-- A state with a packet at the Retriever router of pack 0, whose Retriever holds pairs. -/
def atRetriever (p : Pkt) (pairs : List RetrPair) (s : State) : State :=
  (s.modCore (retrRouter 0) (fun k => { k with lq := [p] })).modPack 0 (fun k => { k with retr := { k.retr with pairs := pairs } })

/-- The premises of the logits clauses: served, faulty, held for want of a slot. -/
def logitsCase (q : Pkt) (s : State) : Bool × Bool × Bool :=
  let n := retrCtx (nth 0 q.words 0)
  let seq := retrSeq (nth 0 q.words 0)
  let r := (s.pack 0).retr
  let k := s.ctx n
  let es := logitElems k.logitBf16 k.vocab (64 * q.hdr.doff / 4) q.payload
  let pair := (r.pairs.find? (fun x => x.ctx = n && x.seq = seq)).getD (RetrPair.fresh n seq)
  (s.retrServes 0 n,
   halfFaults r.pairs n seq k.vocab (fun x => x.take es) || decide (k.vocab ≤ 64 * q.hdr.doff / 4 + (q.hdr.len - 1) * (256 / 4)) ||
     es.any (fun e => tabGet false pair.seen e.1) || (tabGet [] r.finished n).contains seq,
   logitsHeld (retrRouter 0) q s)

/-- The premises of the command clauses: served, already acted on, out of order. -/
def commandCase (q : Pkt) (s : State) : Bool × Bool × Bool :=
  let n := retrCtx (nth 0 q.words 0)
  let seq := retrSeq (nth 0 q.words 0)
  let r := (s.pack 0).retr
  (s.retrServes 0 n, (tabGet [] r.acted n).contains seq,
   halfFaults r.pairs n seq (s.ctx n).vocab (fun x => { x with cmd := some { cancel := bitAt (nth 0 q.words 0) 33, irq := false } }))

/-- A pair of a context with its slot, and one element of it seen. -/
def halfPair (ctx seq : Nat) : RetrPair := { RetrPair.fresh ctx seq with slot := true, seen := [(0, true)], count := 1 }

theorem witness_retriever_pairs :
    let s := ringState [] ringCtx
    let big := ringState [] { ringCtx with vocab := 262144 }
    let two := [{ RetrPair.fresh 0 1 with slot := true }, { RetrPair.fresh 0 2 with slot := true }]
    (lqHead (retrRouter 0) (atRetriever (logitsPkt 4 3) [] s) = some (logitsPkt 4 3) ∧ ((atRetriever (logitsPkt 4 3) [] s).pack 0).retr.stopped = false) ∧
    (logitsCase (logitsPkt 4 3) (atRetriever (logitsPkt 4 3) [] up)).1 = false ∧
    logitsCase (logitsPkt 4 3) (atRetriever (logitsPkt 4 3) [] s) = (true, false, false) ∧
    logitsCase (logitsPkt 4 3) (atRetriever (logitsPkt 4 3) [halfPair 0 3] s) = (true, true, false) ∧
    logitsCase (logitsPkt 4 3) (atRetriever (logitsPkt 4 3) two s) = (true, true, false) ∧
    logitsCase (logitsPkt 4 3) (atRetriever (logitsPkt 4 3) [{ RetrPair.fresh 0 3 with slot := true }] s) = (true, false, false) ∧
    logitsCase (logitsPkt 4 3) (atRetriever (logitsPkt 4 3) ([16, 32, 48, 64].map (fun n => halfPair n 1)) big) = (true, false, true) ∧
    (∀ cancel ∈ [false, true],
      commandCase (commandPkt cancel 3) (atRetriever (commandPkt cancel 3) [] up) = (false, false, false) ∧
      bitAt (nth 0 (commandPkt cancel 3).words 0) 33 = cancel ∧
      commandCase (commandPkt cancel 3) (atRetriever (commandPkt cancel 3) [] s) = (true, false, false) ∧
      commandCase (commandPkt cancel 3) ((atRetriever (commandPkt cancel 3) [] s).modRetr 0 (fun r => { r with acted := [(0, [3])] })) = (true, true, false) ∧
      commandCase (commandPkt cancel 3) (atRetriever (commandPkt cancel 3) two s) = (true, false, true)) := by decide +kernel

/-- A sample of context 0 that started at 0 and takes 100 beats. -/
def oneSample (kept : Bool) : Sample :=
  { ctx := 0, seq := 3, status := 0, token := 1, logprob := 0, flags := 0, position := 0, irq := false, kept := kept, startedAt := 0, beats := 100
    readyAt := 0, seqno := 0 }

/-- `ringState` with the Retriever of pack 0 changed. -/
def retrState (f : Retriever → Retriever) (k : Ctx) : State := (ringState [] k).modPack 0 (fun p => { p with retr := f p.retr })

/-- The reply to a completion write of tag 0. -/
def cplReply (gen status : Nat) : Pkt :=
  { hdr := { Hdr.zero with ptype := 0x0A }, words := [BitVec.ofNat 64 (at_ 56 status), BitVec.ofNat 64 (at_ 32 gen + at_ 30 1)], payload := []
    exit := false, origin := 0 }

/-- A Retriever with one whole pair of context 0, whose logits hold an uncorrectable error or not. -/
def onePair (bad : Bool) : State :=
  retrState (fun r => { r with pairs := [{ halfPair 0 3 with count := 4, bad := bad, cmd := some { cancel := false, irq := false } }] }) ringCtx

theorem witness_retriever_samples :
    (∀ bad ∈ [false, true], let s := onePair bad
      (s.pack 0).retr.stopped = false ∧ (s.pack 0).retr.sampling = none ∧ (s.readyPair 0).any (fun x => s.storeBad 0 x == bad) = true) ∧
    (∀ kept ∈ [false, true], let s := retrState (fun r => { r with sampling := some (oneSample kept) }) ringCtx
      (s.pack 0).retr.sampling = some (oneSample kept) ∧ howlGe s.howl ((oneSample kept).startedAt + BitVec.ofNat 64 (oneSample kept).beats) = true ∧
      (s.pack 0).retr.ready.any (fun z => z.ctx = 0) = false) ∧
    ((retrState (fun r => { r with sampling := some (oneSample false), ready := [oneSample false] }) ringCtx).pack 0).retr.ready.any (fun z => z.ctx = 0) = true ∧
    (let s := retrState (fun r => { r with ready := [oneSample false] }) ringCtx
     (s.ctx 0).owner ≠ none ∧ (s.ctx 0).stage ≠ .refuse ∧ (s.pack 0).retr.ready.find? (fun x => x.ctx = 0) = some (oneSample false) ∧
     (issueCpl 0 (oneSample false) (s.modRetr 0 (fun r => { r with ready := r.ready.erase (oneSample false) }))).isSome = true) ∧
    ((retrState id { ringCtx with stage := .refuse }).ctx 0).stage = .refuse ∧
    (∀ y ∈ [(0, 0), (0, 1), (1, 0)],
      let s := (retrState (fun r => { r with reqs := [{ tag := 0, gen := 0, ctx := 0, status := 0, irq := false, step := 7 }] }) ringCtx).modCore
        (retrRouter 0) (fun k => { k with lq := [cplReply y.1 y.2] })
      let q := cplReply y.1 y.2
      lqHead (retrRouter 0) s = some q ∧ q.hdr.ptype = 0x0A ∧ bitsOf (nth 0 q.words 1) 30 2 = 1 ∧ (s.pack 0).retr.stopped = false ∧
      (bitsOf (nth 0 q.words 1) 32 8 = (tabGet 0 (s.pack 0).retr.tagGen 0).toNat ↔ y.1 = 0) ∧ bitsOf (nth 0 q.words 0) 56 8 = y.2 ∧
      ((s.pack 0).retr.reqs.find? (fun x => x.tag = 0)).isSome = true) := by decide +kernel

/-- A module with port F0 in a state, its record changed. -/
def portIn (st : PortState) (f : Port → Port) : State := up.setPort 0 (f { Port.reset with state := st })

/-- The premises of the frame clauses at a live port: a good flit or idle frame in and out of sequence, a good retry request, a bad CRC. -/
theorem witness_frames :
    ((portIn .up id).port 0).live = true ∧ ((portIn .up id).port 0).rxNext = 0 ∧
    (∀ kind ∈ [0, 1, 2], ∀ seq ∈ [0, 5], (mkFrame [] seq 0 kind 2 true true 0 0).crcOk = true ∧
      frKind (mkFrame [] seq 0 kind 2 true true 0 0).trailer = kind ∧ frSeq (mkFrame [] seq 0 kind 2 true true 0 0).trailer = seq) ∧
    ∃ f : Frame, f.crcOk = false := by
  refine ⟨by decide +kernel, by decide +kernel, ?_, ?_⟩
  · intro kind hk seq hs
    refine ⟨mkFrame_crcOk _ _ _ _ _ _ _ _ _, ?_, ?_⟩
    · unfold frKind; rw [mkFrame_field _ _ _ _ _ _ _ _ _ _ _ (by decide)]; revert kind seq; decide +kernel
    · unfold frSeq; rw [mkFrame_field _ _ _ _ _ _ _ _ _ _ _ (by decide)]; revert kind seq; decide +kernel
  · by_contra h
    simp only [not_exists, Bool.not_eq_false] at h
    have h0 := of_decide_eq_true (h { flit := [], trailer := 0 })
    have h1 := of_decide_eq_true (h { flit := [], trailer := BitVec.ofNat 128 (at_ 96 1) })
    have same : frameCrc [] (BitVec.ofNat 128 (at_ 96 1)) = frameCrc [] 0 := by
      unfold frameCrc; rw [show bitsOf (BitVec.ofNat 128 (at_ 96 1)) 0 96 = bitsOf (0 : BitVec 128) 0 96 by decide +kernel]
    have e0 : bitsOf (0 : BitVec 128) 96 32 = 0 := by decide +kernel
    have e1 : bitsOf (BitVec.ofNat 128 (at_ 96 1)) 96 32 = 1 := by decide +kernel
    simp only [same, e0, e1] at h0 h1
    omega

/-- A job of four devices along x in a state, this device at x = 1. -/
def inJob (st : JobState) : State := { up with howl := 0x10000, job := { Job.reset with state := st, coord := 1, extent := 3, parent := 0, epoch := 9 } }

theorem witness_ports :
    ((portIn .up id).port 0).state = .up ∧ up.job.state ≠ .forming ∧ up.stat 0x2400 0x0D + 1 < 2 ^ 64 - 1 ∧ Answering up ∧
    ({ up with env := { up.env with holdupOk := false } } : State).env.holdupOk = false ∧ ({ up with env := { up.env with holdupOk := true } } : State).env.holdupOk = true ∧
    ((portIn .training id).port 0).state = .training ∧
    (let s := (inJob .forming).setPort 0 { Port.reset with state := .training }
     (s.port 0).state = .training ∧ s.job.state = .forming ∧ s.jobPorts.contains 0 = true ∧ s.job.listsFixed = false) := by
  refine ⟨by decide +kernel, by decide +kernel, by decide +kernel, ⟨rfl, rfl⟩, ?_⟩; decide +kernel

theorem witness_frames_leave :
    let flit : Flit := { bytes := [1], sop := true, eop := true }
    let p (s : State) := (drainRing s).port 0
    (p (portIn .up (fun q => { q with retryPending := true }))).retryPending = true ∧
    (p (portIn .up (fun q => { q with retryPending := true }))).retriesSince + 1 < 16 ∧
    16 ≤ (p (portIn .up (fun q => { q with retryPending := true, retriesSince := 15 }))).retriesSince + 1 ∧
    (p (portIn .up (fun q => { q with replay := [{ flit := [], trailer := 0 }] }))).replay[0]?.isSome = true ∧
    (p (portIn .up id)).live = true ∧ (p (portIn .up id)).nextVc = none ∧ (p (portIn .up id)).replay[0]? = none ∧
    (p (portIn .up (fun q => { q with vcs := [(2, [flit])] }))).nextVc = some 2 ∧ (p (portIn .up id)).replay.length < 256 := by decide +kernel

/-- A packet at the ring from port F0 with an epoch. -/
def ringPkt (h : Hdr) : RingPkt :=
  { pkt := { hdr := h, words := [0], payload := [], exit := false, origin := 0 }, since := 0x10000, fromPort := 0, cls1 := false }

/-- The running job with an arrival. -/
def arrived (h : Hdr) : State := { inJob .running with ring := { Ring.empty with arrivals := [ringPkt h] } }

theorem witness_arrivals :
    (∀ y ∈ [({ Hdr.zero with epoch := 8 }, ArrivalAct.discard true), ({ Hdr.zero with epoch := 9, dstDev := 1, ptype := 0x0D }, .ring),
        ({ Hdr.zero with epoch := 9, dstDev := 1, ptype := 2 }, .mesh), ({ Hdr.zero with epoch := 9, dstDev := 1, ptype := 3, service := true }, .mesh)],
      let t := drainRing (arrived y.1)
      t.ring.arrivals = [ringPkt y.1] ∧ (t.arrivalAct (ringPkt y.1) = .discard true ↔ y.2 = .discard true) ∧
      (t.arrivalAct (ringPkt y.1) = .ring ↔ y.2 = .ring) ∧ (t.arrivalAct (ringPkt y.1) = .mesh ↔ y.2 = .mesh)) ∧
    (let s : State := { inJob .forming with ring := { Ring.empty with arrivals := [ringPkt Hdr.zero] } }
     (drainRing s).arrivalAct (ringPkt Hdr.zero) = .discard false) ∧
    (let h := { Hdr.zero with epoch := 9, dstDev := 2, ptype := 3, service := true }
     let s := (arrived h).setPort 9 { Port.reset with state := .member }
     let t := drainRing { s with job := { s.job with lists := [(3, [9])], listsFixed := true } }
     t.ring.arrivals = [ringPkt h] ∧ t.arrivalAct (ringPkt h) = .forward) := by decide +kernel

/-- A request that awaits its answer, of the ring or of the mirror engine, sent at 0. -/
def oneReq (mirror : Bool) : RingReq := { hdr := Hdr.zero, origin := 0, token := 0, sentAt := 0, flits := 1, mirror := mirror }

/-- A delivery answer with an outcome. -/
def answerPkt (o : Nat) : RingPkt :=
  { pkt := { hdr := { Hdr.zero with ptype := 0x0D }, words := [BitVec.ofNat 64 o], payload := [], exit := false, origin := 0 }, since := 0, fromPort := 0
    cls1 := false }

theorem witness_answers_and_timeouts :
    (∀ o ∈ [0, 0xFF, 2], let t := drainRing { inJob .running with ring := { Ring.empty with deliver := [answerPkt o], awaiting := [oneReq false] } }
      t.ring.deliver.find? (fun r => r.pkt.hdr.ptype = 0x0D && !r.pkt.hdr.toRing) = some (answerPkt o) ∧
      t.ring.awaiting.find? (answers (answerPkt o).pkt.hdr) = some (oneReq false) ∧ bitsOf (nth 0 (answerPkt o).pkt.words 0) 0 8 = o) ∧
    (∀ m ∈ [false, true], [oneReq m].find? (fun q => howlGe 0x40000 (q.sentAt + BitVec.ofNat 64 (2 ^ 18))) = some (oneReq m)) ∧
    [oneReq false].find? (fun q => howlGe 0x3FFFF (q.sentAt + BitVec.ofNat 64 (2 ^ 18))) = none ∧
    (let s : State := { inJob .running with mirror := { Mirror.reset with state := 1 } }; (s.bump 0x501A 5 1).mirror.state = 1) ∧
    ({ inJob .barked with job := { (inJob .barked).job with purgeFrom := some 5 } } : State).job.purgeFrom = some 5 := by decide +kernel

/-- A forming or running job with a control message from a device waiting at port F0. -/
def withCtrl (s : State) (src : Nat) (b : CtrlBody) : State := s.setPort 0 { Port.reset with
  state := .up, ctrl := [{ flit := encodeCtrl { head := { dir := 0, src := src, epoch := 9, tTx := 77 }, body := b }, arrival := 88, vc := 0 }] }

/-- A HELLO of a part that expects a device. -/
def helloMsg (part : BitVec 32) (expect : Nat) : HelloMsg :=
  { part := part, stepping := steppingCode, port := 9, expect := expect, rxEcho := 0, txEcho := 0 }

theorem witness_jobs_start :
    Answering up ∧ up.power.dev ≠ .idle ∧ ({ up with power := { up.power with dev := .safe } } : State).power.dev ≠ .run ∧
    (inJob .forming).job.state = .forming ∧ ((issuing 0).pack 0).prog.isSome = true ∧
    (let s : State := { inJob .none with job := { (inJob .none).job with coord := 4 } }
     s.job.state ≠ .forming ∧ devIn s.job.extent.toNat s.job.coord.toNat = false ∧ ∀ p < 16, (s.pack p).prog = none ∧ (s.pack p).teardown = none) ∧
    (let s := (inJob .none).setPort 0 { Port.reset with state := .up }
     devIn s.job.extent.toNat s.job.coord.toNat = true ∧ s.jobPorts.any (fun f => (s.port f).state = .up) = true) ∧
    howlGe 0x4000000 ((0 : Time) + BitVec.ofNat 64 (2 ^ 26)) = true := by
  refine ⟨⟨rfl, rfl⟩, ?_⟩; decide +kernel

theorem witness_job_messages :
    (∀ y ∈ [(helloMsg 1 1, 0), (helloMsg partCode 2, 0), (helloMsg partCode 1, 3), (helloMsg partCode 1, 0)],
      (takeCtrl 0 1 (withCtrl (inJob .forming) y.2 (.hello y.1))).any (fun r => r.2.1 = .hello y.1 && r.1.src = y.2 &&
        r.2.2.2.job.state = .forming && r.2.2.2.jobPorts.contains 0) = true) ∧
    hopFrom (inJob .forming).job.extent.toNat (inJob .forming).device (portDir 0) = 0 ∧ (inJob .forming).device = 1 ∧
    (takeCtrl 0 7 (withCtrl (inJob .forming) 2 (.join 5 1))).any (fun r => r.2.1 = .join 5 1 && r.1.src = 2 && r.2.2.2.job.state = .forming &&
      (childrenOf r.2.2.2.job.extent.toNat r.2.2.2.device).contains 2 && !tabGet false r.2.2.2.job.joins 2) = true ∧
    (takeCtrl 0 8 (withCtrl (inJob .forming) 0 (.start 5 1))).any (fun r => r.2.1 = .start 5 1 && r.1.src = r.2.2.2.job.parent.toNat &&
      r.2.2.2.job.state = .forming && !r.2.2.2.isMaster) = true := by decide +kernel

theorem witness_liveness :
    (inJob .running).inJob = true ∧ (inJob .running).howl.toNat % 65536 = 0 ∧ (inJob .running).job.lastPeriod ≠ (inJob .running).howl.toNat / 65536 + 1 ∧
    (let b : BeaconMsg := { rxEcho := 0, txEcho := 0, masterOffset := 0, heard := 0, muzzled := false }
     (takeCtrl 0 2 (withCtrl (inJob .running) 2 (.beacon b))).any (fun r => r.2.1 = .beacon b && r.2.2.2.inJob && r.1.epoch = r.2.2.2.job.epoch &&
       (neighbourDevs r.2.2.2.job.extent.toNat r.2.2.2.device).contains 2 && r.1.src ≠ r.2.2.2.job.parent.toNat) = true) ∧
    (1024 : Int).natAbs ≤ 1024 ∧ 1024 < (1025 : Int).natAbs ∧
    (∀ missed ∈ [8, 24], let s := (inJob .running).modNb 2 (fun n => { n with missed := missed })
      (neighbourDevs s.job.extent.toNat s.device).contains 2 = true ∧ (s.nb 2).live = .heard ∧ (s.nb 2).missed = missed) ∧
    (takeCtrl 0 4 (withCtrl (inJob .running) 2 (.suspect 0 2 1))).any (fun r => r.2.1 = .suspect 0 2 1 && r.2.2.2.inJob &&
      r.2.2.2.job.state ≠ .selfMuzzled && r.1.epoch = r.2.2.2.job.epoch) = true ∧
    16 ≤ ({ inJob .running with job := { (inJob .running).job with poorPeriods := 16 } } : State).job.poorPeriods := by decide +kernel

theorem witness_gates_and_barks :
    (∀ step ∈ [(0 : Nat), 1], let w := BitVec.ofNat 64 step
      (takeCtrl 0 5 (withCtrl (inJob .running) 2 (.ready w))).any (fun r => r.2.1 = .ready w && r.2.2.2.job.state = .running && r.1.epoch = r.2.2.2.job.epoch &&
        (childrenOf r.2.2.2.job.extent.toNat r.2.2.2.device).contains 2 && decide (w = r.2.2.2.jobNextStep ↔ step = 0)) = true ∧
      (takeCtrl 0 6 (withCtrl (inJob .running) 0 (.go w 5))).any (fun r => r.2.1 = .go w 5 && r.1.src = r.2.2.2.job.parent.toNat) = true) ∧
    (∀ acted ∈ [false, true], (takeCtrl 0 3 (withCtrl { inJob .running with job := { (inJob .running).job with barkActed := acted } } 2 (.bark 2 5 6))).any
      (fun r => r.2.1 = .bark 2 5 6 && r.2.2.2.inJob && r.2.2.2.job.state ≠ .selfMuzzled && r.1.epoch = r.2.2.2.job.epoch &&
        r.2.2.2.job.barkActed == acted) = true) ∧
    up.inJob = false ∧ up.jobProgs false = [] ∧
    (inJob .running).barkLineEnabled = true ∧ (inJob .running).job.barkLineUntil = none ∧ howlGe 5 5 = true ∧ howlGe 4 5 = false ∧
    (up.setSetting 0x0221 1 0).barkLineEnabled = false := by decide +kernel

/-- A mirror request at the ring of a partner that accepts device 2 at 0x1000. -/
def mirrorPktOf (op src a b : Nat) : RingPkt :=
  { pkt := { hdr := { Hdr.zero with ptype := if op = 1 then 0x04 else 0x03, mcast := true, srcDev := src }, words := [BitVec.ofNat 64 op, 7, BitVec.ofNat 64 a, BitVec.ofNat 64 b]
             payload := List.replicate 64 1, exit := false, origin := 0 }
    since := 0, fromPort := 0, cls1 := false }
def accepting (opened : Bool) (r : RingPkt) : State := { inJob .running with
  ring := { Ring.empty with deliver := [r] }, hbmStacks := [(0, { Stack.reset with state := .serving })]
  mirror := { Mirror.reset with acceptFrom := 2, acceptBase := 0x1000, acceptLen := 0x1000, inOpen := opened, inSeq := 7 } }

theorem ringWrite_accepting (o : Bool) (r : RingPkt) (a : Nat) (ha : a = 0x1000 ∨ a = 0x1040) (d : List Byte) (hd : d.length = 64) :
    (ringWrite a d (accepting o r)).1 = .done [] := by
  rcases ha with rfl | rfl <;> exact ringWrite_clean _ _ _ rfl rfl rfl (by rw [hd]; rfl)

theorem witness_mirror_partner :
    (∀ y ∈ [(mirrorPktOf 0 2 5 64, false), (mirrorPktOf 0 2 0 64, false), (mirrorPktOf 1 2 0x1040 64, true), (mirrorPktOf 1 2 0x1040 64, false),
        (mirrorPktOf 2 2 0 0, true), (mirrorPktOf 2 2 0 0, false)],
      let s := accepting y.2 y.1
      s.ring.deliver.find? (fun r => r.pkt.hdr.isMirrorReq && nth 0 r.pkt.words 0 = nth 0 y.1.pkt.words 0) = some y.1 ∧
      s.mirrorFrom y.1 = true ∧ s.mirrorOpenFor y.1 = y.2 ∧ s.readOnly 0x1000 64 = false ∧ s.readOnly 0x1040 64 = false ∧ s.domain = 0 ∧
      (passRecord s 2 7 1 64).length = 64 ∧ ((mirrorPktOf 1 2 0x1040 64).pkt.payload.take 64).length = 64) ∧
    0x1040 + 64 ≤ 0x1000 + (accepting true (mirrorPktOf 1 2 0x1040 64)).mirror.acceptLen.toNat ∧
    (let r := mirrorPktOf 0 2 5 64
     let s : State := { accepting false r with progs := [(0, { Program.none with packs := 1, imageAddr := 0x1000, imageLen := 64 })] }
     s.mirrorFrom r = true ∧ s.readOnly 0x1000 64 = true) := by decide +kernel

theorem witness_mirror_source :
    let s : State := { inJob .running with mirror := { Mirror.reset with partner := 2 } }
    s.mirror.state ≠ 1 ∧ s.job.state = .running ∧ devIn s.job.extent.toNat s.mirror.partner.toNat = true ∧ up.job.state ≠ .running ∧
    (∀ y ∈ [(1, 0, 2), (1, 1, 0), (0, 0, 0)],
      let r : RingPkt := { mirrorPktOf 0 2 0 0 with pkt :=
        { (mirrorPktOf 0 2 0 0).pkt with hdr := { Hdr.zero with ptype := 0x0D, mcast := true }, words := [0, BitVec.ofNat 64 y.2.1, 3] } }
      let s : State := { s with
        ring := { Ring.empty with deliver := [r] }, mirror := { s.mirror with state := y.1, seq := 3, phase := y.2.2 } }
      s.ring.deliver.find? (fun r => r.pkt.hdr.isMirrorAns) = some r ∧ s.ring.awaiting.find? (fun q => q.mirror) = none ∧
      s.mirror.state = y.1 ∧ nth 0 r.pkt.words 2 = s.mirror.seq.setWidth 64 ∧ (nth 0 r.pkt.words 1).toNat = y.2.1 ∧ s.mirror.phase = y.2.2) := by
  decide +kernel

theorem witness_vet_slices :
    up.vetRuns 0 = true ∧ (∀ f ∈ [Finding.pass, .marchFail 95, .analogue 2, .lbist, .supply], up.marched 0 f = true) ∧ (((List.range 69).map (fun i => ((up.vetPack 0).turn + i) % 69)).find? (up.unitReady 0)) = some 0 ∧
    (∀ unit ∈ [0, 68], let a : Slice := { unit := unit, slice := 3, startedAt := 0 }
      let s : State := { up with clock := sliceBeats 0, vet := { up.vet with packs := [(0, { VetPack.reset with active := some a })] } }
      (s.vetPack 0).active = some a ∧ a.startedAt + sliceBeats (s.pack 0).freq ≤ s.clock ∧ Finding.fits .pass a.unit a.slice = true) ∧
    up.stat 0x1800 0x43 + 1 < 2 ^ 64 - 1 ∧ up.stat 0x1800 0x44 + 1 < 2 ^ 64 - 1 := by decide +kernel

/-- The launching program in a re-placement; `moved` gives core 0 another host than before. -/
def replacing (ph : ReplacePhase) (moved : Bool) : State :=
  let s := launching true
  let s : State := { s with howl := 0x10000000 }
  { s with vet := { s.vet with repl := [{ oneReplace ph with old := if moved then [] else s.hostTab 0 }] } }

/-- Such a program whose core 0 holds a ledger with an uncorrectable word. -/
def ledgerGone : State := (replacing .shift true).modCore 0 (fun k => { k with
  collars := [(2, { Collar.none with configured := true, ledgered := true, ledger := BitVec.ofNat 64 (at_ 32 1) })], spadErr := [(0, 2)] })

theorem witness_replacement :
    (∀ y ∈ [(ReplacePhase.drain, false), (.drain, true), (.shift, true), (.reload, true)],
      let s := replacing y.1 y.2
      (s.replAt 0).any (fun r => r.phase = y.1 && howlGe s.howl (r.failAt + BitVec.ofNat 64 drainBeats) &&
        ((s.shiftedOf r).isEmpty == !y.2) && !(s.prog r.prog).barked && r.moved.all (fun c => (s.core c).routerEmpty)) = true) ∧
    (readMoved [0] (replacing .shift true)).2.1 = true ∧ (readMoved [0] ledgerGone).2.1 = false ∧
    (let s : State := withCtrl { inJob .running with
       progs := [(0, { Program.none with packs := 1, multi := true, ofJob := true, launched := true })]
       packs := [(0, { Pack.reset with prog := some 0, step := 7 })] } 2 (.rewind 2 7)
     (takeCtrl 0 9 s).any (fun r => r.2.1 = .rewind 2 7 && r.2.2.2.job.state = .running && r.1.epoch = r.2.2.2.job.epoch && decide (2 ≠ r.2.2.2.device) &&
       decide (r.2.2.2.multiProgs.filter (fun g => r.2.2.2.stepOf g = 7 && (r.2.2.2.prog g).launched && (r.2.2.2.replOf g).isNone) = [0])) = true) := by
  decide +kernel

/-- The module with its power state, its environment, its vet state or its fault registers changed. -/
def pow (f : Power → Power) : State := { up with power := f up.power }
def envOf (f : Env → Env) (s : State) : State := { s with env := f s.env }
def vetOf (f : Vet → Vet) (s : State) : State := { s with vet := f s.vet }
def faultsOf (f : FaultRegs → FaultRegs) (s : State) : State := { s with faults := f s.faults }

theorem witness_maintenance :
    Answering up ∧ (vetOf (fun v => { v with maintState := 1, maintAction := 2 }) up).vet.maintState = 1 ∧ up.vet.maintState ≠ 1 ∧
    (let s := vetOf (fun v => { v with packs := [(0, { VetPack.reset with held := true })] }) (issuing 0)
     0 ∈ s.maintPacks 3 ∧ (s.pack 0).prog.isSome = true) ∧
    (∀ a ∈ [1, 2, 3], up.maintBusy a = false) ∧ f32Lt up.env.now.vin f40V = true ∧
    (let s := envOf (fun e => { e with holdupOk := true, now := { e.now with vin := 0x42400000 } }) up
     f32Lt s.env.now.vin f40V = false ∧ s.env.holdupOk = true) ∧ f32Lt f40V f40V = false := by
  refine ⟨⟨rfl, rfl⟩, ?_⟩; decide +kernel

/-- Program 0 in an open step on core 0, with stream 0 in a state and the clock at `now`. -/
def openStep (st : StreamState) (now : Nat) : State :=
  { ((launching false).modCore 0 (fun k => { k with streams := [(0, { Stream.none with st := st, lastIssue := 5 })] })) with
    clock := now
    packs := [(0, { Pack.reset with prog := some 0, state := .running, inStep := true, lastProg := 5 })] }

theorem witness_stream_and_pack_hang :
    (∀ st ∈ [StreamState.parkedCollar, .parkedBowl, .parkedClaim], let s := openStep st (5 + 1048576)
      s.watched (packOf 0) = true ∧ s.stepOpen (packOf 0) = true ∧ ((s.core 0).stream 0).st = st ∧ max ((s.core 0).stream 0).lastIssue (s.pack 0).watchFrom + s.window 1 ≤ s.clock ∧
      max (s.pack 0).lastProg (s.pack 0).watchFrom + s.window 4 ≤ s.clock) ∧
    (let s := openStep .parkedBowl (4 + 1048576); s.clock < max ((s.core 0).stream 0).lastIssue (s.pack 0).watchFrom + s.window 1 ∧
      s.clock < max (s.pack 0).lastProg (s.pack 0).watchFrom + s.window 4) := by
  decide +kernel

theorem witness_core_and_link_hang :
    (let s : State := { issuedState (.add 0 0) (vecWord 0x30) with clock := 1048577 }
     s.watched (packOf 0) = true ∧ (s.core 0).ops ≠ [] ∧ s.coreQuiet 0 + s.window 2 ≤ s.clock) ∧
    (let s : State := { routing (entryWord 0 8) Hdr.zero with
       howl := 0x200000, clock := 0x200000
       packs := [(8 * 0 + packOf 33, { Pack.reset with prog := some 0 })]
       progs := [(0, { Program.none with packs := 1 })] }
     let s := s.modCore 34 (fun k => k.setInput .w { Input.empty with sched := (List.range 32).map (fun _ => { pkt := packet Hdr.zero, at_ := 0, gap := 1 }) })
     (s.outputHeldSince 33 .e).any (fun b => decide ((s.window 3 : Int) ≤ howlDiff s.howl b)) = true ∧ s.watched (packOf 33) = true ∧
     max ((s.core 33).advancedAt (0x65 + Dir.e.code)) (s.pack (packOf 33)).watchFrom + s.window 3 ≤ s.clock) := by decide +kernel

theorem witness_rungs :
    (∀ e : Fin 4, let en := nth Engine.matrix [.matrix, .vector, .drain, .fetch] e
      let s : State := { (up.modCore 0 (fun k => { k with engReset := [(en.code, true)] })) with clock := msBeats }
      tabGet false (s.core 0).engReset en.code = true ∧ tabGet 0 (s.core 0).engAt en.code + msBeats ≤ s.clock) ∧
    (∀ now ∈ [50 * msBeats, 50 * msBeats - 1], let s : State := { (up.modPack 0 (fun k => { k with resetStarted := some 0 })) with clock := now }
      (s.pack 0).resetStarted = some 0 ∧ s.clock = now) ∧
    (∀ r ∈ [(1, 500 * msBeats), (2, 9100 * msBeats)], let s : State := { faultsOf (fun f => { f with recovery := r.1 }) up with clock := r.2 }
      s.faults.recovery = r.1 ∧ s.faults.recoveryAt + r.2 ≤ s.clock) := by decide +kernel

/-- Pack 0 with program 0 in a teardown. -/
def tearing (f : Teardown → Teardown) : State := { up with
  howl := 0x100000
  packs := [(0, { Pack.reset with prog := some 0, state := .tearing, teardown := some (f openTeardown) })]
  progs := [(0, { Program.none with packs := 1, used := [(0, true)] })] }

theorem witness_teardown :
    Answering up ∧ (packsIn (1 : BitVec 16).toNat).any (fun p => (up.progOf p).isNone) = true ∧
    (packsIn (1 : BitVec 16).toNat).any (fun p => ((issuing 0).progOf p).isNone) = false ∧
    (let d : Dump := { packs := 1, device := false, seq := 1, startedAt := 0, howl := 0, reason := 0xDA }
     let s : State := { faultsOf (fun f => { f with dumps := [d] }) up with clock := 20 * msBeats }
     s.faults.dumps ≠ [] ∧ s.dump 1 = some d ∧ d.startedAt + 20 * msBeats ≤ s.clock) ∧
    (stackUp .serving false).faults.dumps = [] ∧ ((stackUp .serving false).stack 0).state = .serving ∧ (up.stack 0).state ≠ .serving ∧
    (let s := tearing id
     let u := (s.drainingPacks 0).foldl (fun s p => match (s.pack p).teardown with | some t => drainPack t p s | none => s) s
     (s.pack 0).teardown = some openTeardown ∧ howlGe s.howl (openTeardown.startedAt + BitVec.ofNat 64 drainBeats) = true ∧
     ((s.drainingPacks 0).filter (fun p => match (u.pack p).teardown with | some t => t.reset && (u.pack p).resetStarted.isNone | none => false)) = []) ∧
    (let t := { openTeardown with drained := true }
     ((tearing (fun t => { t with drained := true })).pack 0).teardown = some t ∧ t.zeroScratchOpen = true ∧ t.dumpOpen = false ∧ t.resetOpen = false ∧
     ((tearing id).usedCores 0).all (fun c => ((tearing id).core c).routerEmpty) = true ∧
     t.zeroHbmOpen = true ∧ t.quarantineOpen = true ∧ howlGe (tearing id).howl (t.drainEnd + BitVec.ofNat 64 (2 ^ 14)) = true) := by
  refine ⟨⟨rfl, rfl⟩, ?_⟩; decide +kernel

theorem witness_resets :
    up.stat (0x1000 + 0) 0x0A + 1 < 2 ^ 64 - 1 ∧
    (((up.modCore 0 (fun k => { k with coreResetAt := some 3 })).core 0).coreResetAt = some 3) ∧
    Answering up ∧ (up.pack 0).prog = none ∧ (up.pack 0).teardown = none ∧ (up.pack 0).resetStarted = none ∧
    (let s := up.modPack 0 (fun k => { k with resetStarted := some 3 }); (s.pack 0).resetStarted = some 3 ∧ (s.pack 0).prog = none) ∧
    (∀ d ∈ [DevState.safe, .service, .run], (pow (fun p => { p with dev := d })).power.dev = d ∧ (pow (fun p => { p with dev := d })).power.starting = none) ∧
    (let s := pow (fun p => { p with starting := some .warm }); s.power.starting = some .warm ∧ s.faults.dumps = []) := by
  refine ⟨by decide +kernel, by decide +kernel, ⟨rfl, rfl⟩, ?_⟩; decide +kernel

theorem witness_alerts : Answering up ∧ up.stat 0x501E 6 + 1 < 2 ^ 64 - 1 ∧ (∀ e ∈ up.ctxs, e.2.owner = none) ∧ up.faults.alerts &&& 4 = 0 ∧
    0 < 2 ^ 64 - 1 ∧ 2 ^ 64 - 1 ≤ up.stat 5 5 + (2 ^ 64 - 1) := by
  refine ⟨⟨rfl, rfl⟩, ?_⟩; decide +kernel

/-- A start-up at a step, with slot A of each component known by number alone. -/
def starting (k : StartKind) (doing : Nat) : State :=
  let slot : FwSlot := { FwSlot.empty with valid := true }
  let comp : FwComp := { FwComp.reset with slots := [(0, slot)] }
  { (pow (fun p => { p with dev := .service, starting := some k, doing := doing })) with
    upd := { Upd.reset with comps := [(1, comp), (2, { comp with packSlot := [(0, 1)] }), (3, comp), (4, comp)] } }

theorem witness_startup :
    State.reset.power.dev = .off ∧ up.power.dev ≠ .off ∧
    (∀ k ∈ [StartKind.power, .cold], ∀ d ∈ [0, 1, 2, 3, 4, 5, 8], (starting k d).power.starting = some k ∧ k ≠ .warm ∧ (starting k d).power.doing = d) ∧
    (pow (fun p => { p with starting := some .power, romService := true })).power.romService = true ∧ (starting .power 1).power.romService = false ∧
    (bootRom [] (starting .power 1)).1 = true ∧ (bootRom [(1, false), (1, true)] (starting .power 1)).1 = false ∧
    (verifyPacks [] 2 (starting .power 3)).isSome = true ∧ (verifyPacks [(2, false), (2, true)] 2 (starting .power 3)).isNone = true ∧
    ((verifyPacks [] 2 (starting .power 3)).bind (verifyPacks [] 5)).isSome = true ∧
    ((verifyActive [] 3 (starting .power 5)).bind (verifyActive [] 4)).isSome = true ∧ (starting .power 8).power.mapChanged = false := by
  decide +kernel

theorem witness_service_safe_holdup :
    Answering up ∧ up.power.dev = .run ∧
    (let s := pow (fun p => { p with dev := .idle }); s.power.dev = .idle ∧ s.shutdownBusy = false ∧ s.job.state = .none ∧
      ({ s with load := { s.load with state := .checking } } : State).shutdownBusy = true) ∧
    (let s := pow (fun p => { p with dev := .service }); s.power.dev = .service ∧ s.power.starting = none ∧ s.safeCausePersists = true ∧
      (envOf (fun e => { e with now := { e.now with vin := 0x42400000, flow := 0x40000000 } }) s).safeCausePersists = false) ∧
    (let s := pow (fun p => { p with dev := .safe, railsDue := true, valveHold := true })
     s.mayLeaveSafe = false ∧ s.power.railsDue = true ∧ s.clock < s.power.safeAt + 2 ^ 16 ∧
     ({ s with clock := 2 ^ 16 } : State).power.safeAt + 2 ^ 16 ≤ 2 ^ 16 ∧
     ({ s with clock := 60 * secBeats } : State).power.safeAt + 60 * secBeats ≤ 60 * secBeats) ∧
    (let s : State := { (pow (fun p => { p with dev := .safe })) with clock := 10 * secBeats }
     (envOf (fun e => { e with holdupOk := true, now := { e.now with vin := 0x42280000, flow := 0x41200000, tCoolIn := 0x41F00000 } }) s).mayLeaveSafe = true) ∧
    (1 : Fin 6) ≠ 0 ∧ up.power.dev ≠ .off ∧ up.power.dev ≠ .safe ∧ up.upd.moving = none ∧ ¬ (up.vet.maintState = 1 ∧ up.vet.maintAction = 1) ∧
    (envOf (fun e => { e with holdupOk := true }) up).env.holdupOk = true ∧ up.env.holdupOk = false ∧
    ({ up with upd := { Upd.reset with moving := some 3 } } : State).upd.moving = some 3 ∧ State.reset.power.booted = false := by
  refine ⟨⟨rfl, rfl⟩, ?_⟩; decide +kernel

/-- Function 0 with MSI-X on, vector 3 unmasked and pending. -/
def fnState : State := { up with host := { up.host with vfEnable := true, fns := [(0, { HostFn.reset with
  msixOn := true, msix := [(3, { addr := 1, data := 2, masked := false })], pba := [(3, true)] })] } }

theorem witness_functions :
    fnState.fnExists 0 = true ∧ fnState.fnExists 1 = true ∧ up.fnExists 1 = false ∧ tabGet false (fnState.fn 0).pba 3 = true ∧ (fnState.fn 0).msixOn = true ∧
    (tabGet MsixVec.reset (fnState.fn 0).msix 3).masked = false ∧ fnState.power.booted = true ∧ fnState.stat 0x501D 7 + 1 < 2 ^ 64 - 1 ∧
    BarOpen 0 false fnState := by
  refine ⟨by decide +kernel, by decide +kernel, by decide +kernel, by decide +kernel, by decide +kernel, by decide +kernel, rfl, by decide +kernel, ?_⟩
  exact ⟨by decide +kernel, by decide +kernel⟩

/-- What an access to BAR2 comes to: 0 done, 10 and up refused under a rule, 1 held. -/
def barCase (r : Bar2) : Nat := match r with | .done _ => 0 | .refused rule => 10 + rule | .held => 1

/-- The module with stack 0 in a state and no request at it. -/
def quietStack (st : StackState) : State := { up with hbmStacks := [(0, { Stack.reset with state := st })] }

theorem witness_host_memory_done :
    (bar2Read 0 0 4 (quietStack .serving)).1 = .done [0, 0, 0, 0] ∧ (bar2Write 0 0 [1] (quietStack .serving)).1 = .done [] := by
  constructor
  · unfold bar2Read
    rw [if_neg (by decide +kernel)]
    show (ringRead 0 4 (quietStack .serving)).1.bar2 = _
    rw [ringRead_clean _ _ _ rfl rfl rfl (by decide +kernel) (by decide +kernel)]
    decide +kernel
  · unfold bar2Write
    rw [if_neg (by decide +kernel), if_neg (by decide +kernel)]
    show (ringWrite 0 [1] (quietStack .serving)).1.bar2 = _
    rw [ringWrite_clean _ _ _ rfl rfl rfl (by decide +kernel)]
    rfl

theorem witness_host_memory :
    let s := quietStack .serving
    s.power.booted = true ∧ s.fnExists 0 = true ∧ s.barRefused 0 false = false ∧ (s.setSetting 0x0A10 1 1).barRefused 0 false = true ∧
    barCase (bar2Read 0 0 4 (quietStack .recalibrating)).1 = 1 ∧ barCase (bar2Write 0 0 [1] (quietStack .recalibrating)).1 = 1 ∧
    s.bar2Outside 0 stackBytes 1 = true ∧ s.bar2Outside 0 (stackBytes - 1) 1 = false ∧ barCase (bar2Read 0 0 4 (quietStack .failed)).1 = 14 ∧
    barCase (bar2Read 0 stackBytes 1 s).1 = 11 ∧ barCase (bar2Write 0 sniffBase [1] s).1 = 13 ∧
    s.bar2Outside 0 sniffBase 1 = false ∧ s.hostReadOnly sniffBase 1 = true ∧ s.hostReadOnly (sniffBase - 1) 1 = false ∧
    (ringState [] ringCtx).hostReadOnly 0x303F 1 = true ∧ (ringState [] ringCtx).hostReadOnly 0x3040 1 = false ∧
    s.ownsWindow 0 = true ∧ s.ownsWindow 1 = false ∧ s.pendingSends 0 < 8 ∧ descBad (BitVec.ofNat 64 (at_ 16 1)) = false ∧
    descBad (BitVec.ofNat 64 (at_ 16 17)) = true ∧ bitAt (BitVec.ofNat 64 (at_ 16 1)) 63 = false := by decide +kernel

/-- A request message of an opcode and a body, and the module with it waiting on the mailbox or the port. -/
def message (op : Nat) (body : List Byte) : List Byte :=
  leBytes 2 0x5044 ++ [1] ++ leBytes 1 op ++ leBytes 2 1 ++ leBytes 2 0 ++ leBytes 4 0 ++ leBytes 2 body.length ++ [0, 0] ++ body
def requesting (mailbox : Bool) (op : Nat) (body : List Byte) : State :=
  if mailbox then { up with host := { up.host with mbBusy := true, mbReq := message op body } }
  else { up with mgmt := { up.mgmt with queue := [{ addr := 9, port := 10, bytes := message op body }] } }

/-- A datagram from a link-local address to the module's port, with a request of an opcode. -/
def datagram (multicast : Bool) (op : Nat) : Datagram :=
  { src := BitVec.ofNat 128 (0x3FA <<< 118), srcPort := 10, dstPort := 47113, hop := 255, extended := false, sumOk := true, multicast := multicast
    bytes := message op [] }

theorem witness_mailbox_and_frames :
    BarOpen 0 false up ∧ up.host.mbBusy = false ∧ (requesting true 1 []).host.mbBusy = true ∧ up.portSilent = false ∧ State.reset.portSilent = true ∧
    up.mgmt.queue.length < 8 ∧ up.setting 0x0250 3 1 = 1 ∧
    (datagram true 1).bad = false ∧ (datagram true 1).multicast = true ∧ fld (datagram true 1).bytes 3 1 = 1 ∧ fld (datagram true 2).bytes 3 1 ≠ 1 ∧
    (datagram false 2).multicast = false ∧ { datagram false 1 with hop := 254 }.bad = true ∧
    packetBad (BitVec.ofNat 128 (0x3FA <<< 118)) 255 false = false ∧ packetBad 0 255 false = true ∧
    8 ≤ ({ up with mgmt := { up.mgmt with queue := List.replicate 8 { addr := 9, port := 10, bytes := [] } } } : State).mgmt.queue.length := by
  refine ⟨⟨by decide +kernel, by decide +kernel⟩, ?_⟩; decide +kernel

/-- The bodies of one request of each opcode. -/
def requests : List (Nat × List Byte) :=
  [(0x01, leBytes 2 0x0100 ++ leBytes 2 1), (0x02, leBytes 2 0x0210 ++ leBytes 2 1 ++ leBytes 8 0), (0x03, leBytes 2 0x0100 ++ leBytes 2 1),
   (0x04, leBytes 2 0x0210 ++ leBytes 2 1), (0x04, leBytes 2 0x0001 ++ leBytes 2 1), (0x05, [3]), (0x10, leBytes 2 1 ++ List.replicate 14 0),
   (0x11, leBytes 8 0), (0x12, leBytes 4 5), (0x13, leBytes 4 5), (0x14, leBytes 4 5), (0x20, [])]

theorem witness_requests :
    (∀ y ∈ requests, ((requesting false y.1 y.2).nextRequest).any (fun q => (settleOne q (requesting false y.1 y.2)).isNone && q.op = y.1 && q.body == y.2 &&
      !q.mailbox) = true) ∧
    dictObj 0x0210 1 ≠ none ∧ dictObj 0x0001 1 = none ∧ wrongPath false 0x0210 = false ∧ wrongPath true 0x4000 = true ∧ dictObj 0x4000 1 ≠ none ∧ (requesting false 1 []).power.booted = true := by decide +kernel

/-- Whether a service replies at once, with firmware running after it. -/
def replies (r : Served × State) : Bool := (match r.1 with | .reply _ _ => true | .wait => false | .lost => false) && r.2.power.booted

theorem witness_services :
    let q (op : Nat) (body : List Byte) : Request := { mailbox := false, addr := 9, port := 10, bytes := message op body }
    replies (serveRead (q 1 (leBytes 2 0x0210 ++ leBytes 2 1)) up) = true ∧
    replies (serveWrite .done (q 2 (leBytes 2 0x0210 ++ leBytes 2 1 ++ leBytes 8 0)) up) = true ∧
    replies (serveReadMulti (q 3 (leBytes 2 0x0210 ++ leBytes 2 1)) up) = true ∧ replies (serveDescribe (q 4 []) up) = true ∧
    replies (serveSubscribe (q 5 [3]) up) = true ∧ replies (serveSegStart (q 0x10 []) up) = true ∧ replies (serveSegBlock .done (q 0x11 []) up) = true ∧
    replies (serveSegQuery (q 0x12 []) up) = true ∧ replies (serveSegEnd .done (q 0x13 []) up) = true ∧ replies (serveSegAbort (q 0x14 []) up) = true ∧
    replies (serveServiceSend (q 0x20 []) up) = true := by decide +kernel

/-- A requester on the management port, without a session or in session 9. -/
def asker (n : Nat) : Requester := { mailbox := false, addr := 1, port := 2, session := n }
/-- The module with an owner, and with session 9 of `asker` open where `open_` says so. -/
def owned (o : OwnerState) (open_ : Bool) : State := { up with sec := { Sec.reset with
  owner := o, sessions := if open_ then [{ number := 9, path := 0, addr := 1, port := 2, lastUse := 0 }] else [] } }

theorem witness_dictionary_commands :
    Answering up ∧
    (∀ i : Fin 5, (List.replicate (calSize i) (0 : Byte)).length = calSize i) ∧
    (∀ dev ∈ [DevState.service, .idle], let s := envOf (fun e => { e with holdupOk := true }) (pow (fun p => { p with dev := dev }))
      s.sec.owner = .unowned ∧ s.sec.sessions = [] ∧ s.calibBusy = false ∧ s.env.holdupOk = true ∧ s.sec.owner ≠ .locked ∧
      (s.power.dev = .service ∨ s.power.dev = .idle)) ∧
    (∀ mb ∈ [true, false], let s := vetOf (fun v => { v with phys := (List.range 17).map (fun i => (i, { PhysCore.reset with muzzled := true })) }) up
      s.hostOf (dbgCore (s.dbgSelect (bit01 mb))) = none) ∧
    (∀ v ∈ [true, false], let s := (up.setSetting 0x4000 1 (at_ 47 16 + at_ 26 (0x178000 - 16))).modCore 0 (fun k => { k with vetting := v })
      let w := s.dbgSelect 0
      (s.hostOf (dbgCore w)).isSome = true ∧ dbgKind w = 0 ∧ dbgOff w + dbgLen w = saveBase ∧ dbgLen w = 16 ∧
      (s.pack (packOf (dbgCore w))).state = .empty ∧ (s.core (dbgCore w)).vetting = v) := by
  refine ⟨⟨rfl, rfl⟩, by intro i; exact List.length_replicate, ?_⟩; decide +kernel

theorem witness_ownership :
    (owned .unowned false).sec.owner = .unowned ∧
    (∀ o ∈ [OwnerState.owned, .locked], (owned o true).sec.owner ≠ .unowned ∧ (touchSession (asker 8) (owned o true)).inSession (asker 8) = false ∧
      (touchSession (asker 9) (owned o true)).inSession (asker 9) = true ∧ (owned o true).sec.owner = o) ∧
    (let s := { (owned .owned true) with clock := 600 * secBeats }
     ¬ ∀ x ∈ s.sec.sessions, s.clock < x.lastUse + 600 * secBeats) ∧
    (let s := { up with sec := { Sec.reset with debug := true, debugUntil := 5 }, clock := 5 * 3600 * secBeats }
     s.sec.debug = true ∧ s.sec.debugUntil ≤ s.hoursNow) ∧
    (let s := { up with sec := { Sec.reset with debug := true, debugUntil := 6 }, clock := 6 * 3600 * secBeats - 1 }
     s.hoursNow < s.sec.debugUntil) := by decide +kernel

/-- A token of 3,413 B is accepted where it has the magic, the serial number, the epoch and unexpired hours, and both its signatures hold; one
of zeros is not. The serial number and the signatures are left open (log entries 21 and 22). -/
theorem witness_tokens (m : List Byte)
    (hm : bytesAt m 0 8 = strBytes "DVMDBGU1") (hz : zeroAt m 32 8 = true) (hs : bytesAt m 8 16 = fitTo 0 16 (Config.manufacture 7))
    (he : fld m 24 4 = 0) (hh : fld m 28 4 = 1) (hd : dualOk (Config.vendorEd, Config.vendorMl) (bytesAt m 0 40) (m.drop 40) = true) :
    (touchSession (asker 0) up).tokenRefusal (asker 0) m = 0 ∧
    (touchSession (asker 0) up).tokenRefusal (asker 0) (List.replicate 3413 0) ≠ 0 := by
  constructor
  · have ht : touchSession (asker 0) up = up := rfl
    have h0 : up.hoursNow = 0 := by decide +kernel
    have h1 : up.sec.epoch = 0 := rfl
    have h2 : up.sec.owner = .unowned := rfl
    rw [ht]; simp [State.tokenRefusal, hm, hz, hs, he, hh, hd, h0, h1, h2, firstCode]
  · have h : ∀ m : List Byte, bytesAt m 0 8 ≠ strBytes "DVMDBGU1" → (touchSession (asker 0) up).tokenRefusal (asker 0) m = 0x20 := by
      intro m h; simp [State.tokenRefusal, firstCode, h]
    rw [h _ (by decide +kernel)]; decide

theorem witness_attestation :
    Answering up ∧ (List.replicate 32 (7 : Byte)).length = 32 ∧ ([] : List Byte).length ≠ 32 ∧
    (∀ p : Fin 3, (tabGet Attest.none up.sec.attest p).pending = false ∧
      (tabGet Attest.none [(p.val, { nonce := List.replicate 32 7, startHowl := 0, pending := true, report := [] })] p).pending = true) := by
  refine ⟨⟨rfl, rfl⟩, ?_⟩; decide +kernel

/-- An image of component `c` staged in slot 1, and the power and flow a commit needs. -/
def staged (st c : Nat) : State := { envOf (fun e => { e with holdupOk := true, now := { e.now with vin := 0x42400000, flow := 0x41200000 } }) up with
  upd := { Upd.reset with state := st, comp := c, slot := 1, moving := some 3, tried := true, comps := [(1, { FwComp.reset with trial := true })] }
  clock := 30 * secBeats }

theorem witness_firmware :
    (∀ st ∈ [0, 3], (staged st 1).upd.state ≠ 4) ∧
    (∀ c ∈ [1, 2, 5], Answering (staged 4 c) ∧ (staged 4 c).upd.state = 4 ∧ (staged 4 c).upd.comp = c ∧
      (touchSession (asker 0) (staged 4 c)).commitRefusal (asker 0) = 0 ∧ (touchSession (asker 0) (staged 4 c)).updateLocked (asker 0) = false) ∧
    (let s := { staged 4 1 with sec := (owned .locked false).sec }
     (touchSession (asker 0) s).commitRefusal (asker 0) ≠ 0 ∧ (touchSession (asker 0) s).updateLocked (asker 0) = true) ∧
    (∀ c ∈ [2, 5], (staged 3 c).upd.moving = some 3) ∧
    (let s := staged 3 1
     (s.fwComp 1).trial = true ∧ s.upd.tried = true ∧ s.env.holdupOk = true ∧ s.upd.trialSince + 30 * secBeats ≤ s.clock) := by
  refine ⟨by decide +kernel, ?_, by decide +kernel, by decide +kernel, by decide +kernel⟩
  intro c h
  fin_cases h <;> exact ⟨⟨rfl, rfl⟩, rfl, rfl, by decide +kernel, by decide +kernel⟩

theorem witness_envelope :
    up.power.booted = true ∧
    (∀ p ∈ [(0 : PackId), 15], ∀ n ∈ [14, 15],
      let s := (envOf (fun e => { e with now := { e.now with packTemp := List.replicate 16 0x42C80000 } }) up).modPack p (fun k => { k with throttle := n })
      anyAtLeast [nth 0 s.env.now.packTemp p] (s.dieLimit 0) = true ∧ tabGet 0 s.env.raisedAt p ≤ s.clock ∧ (s.pack p).throttle = n) ∧
    (let s := { (envOf (fun e => { e with coolSince := [(0, 1)] }) up).modPack 0 (fun k => { k with throttle := 1 }) with clock := 100 * msBeats }
     fieldOf s.env.clockdown 0 1 = 0 ∧ 0 < (s.pack 0).throttle ∧ tabGet 0 s.env.coolSince 0 ≠ 0 ∧
     tabGet 0 s.env.coolSince 0 - 1 + 100 * msBeats ≤ s.clock) ∧
    numLt up.powerLimit (f32Num up.env.now.pinAvg) = false ∧ up.power.valveHold = false ∧ up.env.clockdown = 0 ∧ up.setting 0x0402 6 0 = 0 ∧
    (up.setSetting 0x0402 6 1).setting 0x0402 6 0 ≠ 0 ∧ (envOf (fun e => { e with clockdown := 1 }) up).env.clockdown ≠ 0 ∧
    (pow (fun p => { p with valveHold := true })).power.valveHold = true ∧
    numLt (addF32 (f32Num up.env.ienv) (natNum 4)) (f32Num 0x40A00000) = true ∧
    (let s := { (envOf (fun e => { e with flowLowSince := some 0 }) up) with clock := 2 * secBeats }
     s.env.flowLowSince = some 0 ∧ 0 + 2 * secBeats ≤ s.clock) := by decide +kernel

theorem witness_tap :
    (let s := { (pow (fun p => { p with dev := .service })) with sec := { Sec.reset with debug := true } }
     s.sec.debug = true ∧ s.power.dev = .service ∧ s.power.starting = none) ∧
    up.sec.debug = false ∧ up.power.dev ≠ .service ∧ (pow (fun p => { p with starting := some .power })).power.starting.isSome = true ∧
    (∀ n ∈ [(0, 0), (33, 33), (31 * 64 + 33, 31 * 34 + 33)],
      let s := { (pow (fun p => { p with dev := .idle })) with sec := { Sec.reset with debug := true }, jtag := { Jtag.reset with select := BitVec.ofNat 24 n.1 } }
      s.jtag.core = some n.2 ∧ s.sec.debug = true ∧ s.power.dev = .idle ∧ (s.pack (physPack n.2)).state = .empty ∧
      (s.vetPack (physPack n.2)).held = false ∧ (s.vetPack (physPack n.2)).active = none) := by decide +kernel

theorem witness_step : { up with pending := [.powerOn, .idcode] }.pending = .powerOn :: [.idcode] ∧ up.pending = [] := ⟨rfl, rfl⟩

theorem witness_invariants : HbmCanonical State.reset ∧ HbmCanonical (up.hbmWrite 5 [1, 0, 2]) ∧ OwnershipLawful State.reset ∧
    OwnershipLawful { up with sec := { Sec.reset with owner := .owned, edPub := [1], mlPub := [2], debug := true, debugSinceBoot := true } } := by
  refine ⟨rfl, by unfold HbmCanonical; decide +kernel, ⟨fun _ => ⟨rfl, rfl, rfl⟩, by decide, by decide⟩, ⟨by decide, by decide, by decide⟩⟩

/-- Requesters with an address from the mailbox, with a 129-bit address, with a 17-bit port or with a 33-bit session are ill-formed. -/
theorem test_ill_formed_requesters :
    (Instr.lock { mailbox := true, addr := 1, port := 0, session := 0 }).wf = false ∧ (Instr.unlock { mailbox := true, addr := 0, port := 1, session := 0 }).wf = false ∧
    (Instr.updateAbandon { mailbox := false, addr := 2 ^ 128, port := 0, session := 0 }).wf = false ∧
    (Instr.debugUnlock [] { mailbox := false, addr := 0, port := 65536, session := 0 }).wf = false ∧
    (Instr.settingsCommand 1 { mailbox := true, addr := 0, port := 0, session := 2 ^ 32 } .done).wf = false ∧ (Instr.lock (asker 9)).wf = true := by decide

theorem test_ill_formed_frames :
    (Instr.frameReceive 0 { flit := [], trailer := 0 } 0 0 0).wf = false ∧
    (Instr.retryRequest 0 { flit := List.replicate 257 0, trailer := 0 }).wf = false ∧
    (Instr.retryRequest 0 { flit := List.replicate 256 0, trailer := 0 }).wf = true := by decide +kernel

theorem test_ill_formed_lengths :
    (Instr.mgmtFrame (.udp { datagram false 1 with bytes := List.replicate 1453 0 })).wf = false ∧ (Instr.mgmtFrame (.udp (datagram false 1))).wf = true ∧ (Instr.thermalModelUpdate .zero).wf = false ∧
    (Instr.startupStepDone { nodeId := 0, badSlots := [(0, false)], hbmStacks := 0, ports := 0, vet := [] }).wf = false ∧
    (Instr.bar2Read 0 0 0 false).wf = false ∧ (Instr.bar2Read 0 0xFFFFFFFFFF 2 false).wf = false ∧ (Instr.bar2Read 0 0xFFFFFFFFFF 1 false).wf = true ∧
    (Instr.bar2Write 0 0 [] false).wf = false ∧ (Instr.bar2Write 0 0xFFFFFFFFFF [1, 2] false).wf = false ∧
    (Instr.bar2Write 0 0 (List.replicate 4097 0) false).wf = false ∧
    (Instr.mailboxGo (List.replicate 2048 0) 0 false false).wf = false ∧ (Instr.mailboxGo [] 64 false false).wf = false ∧
    (Instr.serviceSendDesc 0 [] 0 false).wf = false ∧ (Instr.linkRecovery 0 3 false).wf = false ∧ (Instr.linkRecovery 0 16 false).wf = true ∧
    (Instr.msixVectorUnmask 1 33 true 0 0 false).wf = false ∧ (Instr.msixVectorUnmask 0 33 true 0 0 false).wf = true ∧
    (Instr.dbgWrite (List.replicate 65537 0) (asker 0)).wf = false := by decide +kernel

/-- 5.3 in FP32 to FP4-E2M1: 6 by RNE and by SR with a draw below 42,598, 4 by RTZ and by SR from that draw on (the example of R139). -/
theorem test_convert_example : let x := decodeNum .fp32 0x40A9999A
    (convertNum .e2m1 .rne false 0 x).1 = 7 ∧ (convertNum .e2m1 .rtz false 0 x).1 = 6 ∧
    (convertNum .e2m1 .sr false 42597 x).1 = 7 ∧ (convertNum .e2m1 .sr false 42598 x).1 = 6 := by decide +kernel

/-- A block with largest magnitude 37.0 quantises to MXFP4 with scale byte 0x82, 37.0 to 4 and 0.3 to 0 (the example of R130). -/
theorem test_mx_example : let b := mxQuantise .e2m1 .rne (fun _ => 0) ([0x42140000, 0x3E99999A].map (decodeNum .fp32))
    b.scale = 0x82 ∧ b.elems = [6, 0] := by decide +kernel

/-- A POST of 0x20 to 0xFFFFFFF0 saturates and sets OVF; a FETCH_ADD of 1 after it changes nothing (the example of R98). -/
theorem test_collar_saturates :
    let s := up.modCore 594 (fun k => k.setCollar 2 { Collar.none with configured := true, value := 0xFFFFFFF0 })
    let t := collarAdd 594 2 0x20 s
    let u := collarAdd 594 2 1 t
    ((t.core 594).collar 2).value = 0xFFFFFFFF ∧ ((t.core 594).collar 2).ovf = true ∧ (u.core 594).collar 2 = (t.core 594).collar 2 ∧
    (u.stat 0x5011 1) = 1 := by decide +kernel

/-- The encoding example of R211: the ranges its instruction declares. -/
theorem test_mma_example :
    let w : Insn := 0x00000000004080642AB9A00042080120
    let x : Issued := { c := 436, i := 0, pc := 0, w := w, ra := 0x2A085400, rb := 0x04800800, rd := 0x2A20D440 }
    let k := { Core.reset with fence := 0x14A000, dc := [(16, 0x7000000000000000 + BitVec.ofNat 64 (at_ 55 3 + at_ 50 1))] }
    opOf w = 0x20 ∧ declaredRanges k x = [{ base := 0x150000, len := 0x420, write := false }, { base := 0x020000, len := 0x4400, write := false },
      { base := 0x151000, len := 0x41, write := true }] := by decide +kernel

/-- One element of the merge example of R273: E, W, then S gives 16.0; E, S, then W gives 16.0 + 2^-19. -/
theorem test_merge_example : let f (l : List Nat) := reduceSum false (l.map (fun x => leBytes 4 x))
    f [0x35800000, 0x41800000, 0x35800000] = leBytes 4 0x41800000 ∧ f [0x35800000, 0x35800000, 0x41800000] = leBytes 4 0x41800001 := by decide +kernel

/-- The Bowl at beat 500 of the example of R304: T1 needs 5 entries and goes in, T3 waits with no entry free; and its status word at beat 505. -/
theorem test_bowl_example :
    let b (wp : BitVec 15) : Bowl := { isOpen := true, wp := wp, wpNext := wp, rp := 4, rpOld := 4, rpAt := 0, cfg := BitVec.ofNat 128 (at_ 0 1 + at_ 20 4 + at_ 10 3) }
    let h (n : Nat) : Hdr := { Hdr.zero with ptype := 2, nw := n }
    judge (b 14) { h 2 with long := true, len := 1 } = .write ∧ judge (b 20) (h 4) = .hold ∧
    ({ Core.reset with bowls := [(9, b 20)] }).bowlWord 9 = 0x9180001000140004 := by decide +kernel

/-- LAST_MUZZLE of [19, 13] for a loopback failure in slice 37 (the example of R449). -/
theorem test_last_muzzle : lastMuzzleWord 0xC5 37 0 (physAt 19 13) = 0xC5944DA0 := by decide +kernel

/-- The Sniff slot of core (20, 13) (the example of R491). -/
theorem test_sniff_slot : slotAddr (coreAt 20 13) = 0x12890E6000 := by decide +kernel

/-- Completion count 21 of a 16-entry ring goes to entry 5 (the example of R514). -/
theorem test_completion_entry : ({ Ctx.none with cplBase := 0x0100000000, cplLog2 := 4 }).cplAddr 21 = 0x01000000A0 := by decide +kernel

/-- CPL_HEAD of 40 where CPL_TAIL is 32 is refused with RING_ERR bit 1; one of 17 is taken (the example of R514). -/
theorem test_cpl_head_example :
    let s : State := { issuing 0 with
      ctxs := [(17, { Ctx.none with cplBase := 0x0100000000, cplLog2 := 4, cplTail := 32, cplHead := 16, owner := some 0 })]
      progs := [(0, { Program.none with packs := 1, ctxCount := 64 })] }
    let f (v : BitVec 32) := match exec (.cplHeadWrite 0 17 v false) s with
      | .next t => ((t.ctx 17).cplHead, (t.ctx 17).ringErr) | _ => (0, 0)
    f 40 = (16, 2) ∧ f 17 = (17, 0) := by decide +kernel

/-- Two FP32 chunks of 256 B from word 0 of their lines cost one cycle; a half line apart they cost none (the example of R238). -/
theorem test_bank_example : conflictCycles (wordsOfRange 0x152000 256 ++ wordsOfRange 0x156000 256) = 1 ∧
    conflictCycles (wordsOfRange 0x152000 256 ++ wordsOfRange 0x156100 256) = 0 := by decide +kernel

/-- Context 300 samples in pack number 12 (the example of R20), and core (20, 13) belongs to pack E3 (the example of R13). -/
theorem test_places : packOf (coreAt 20 13) = 11 ∧ coreAt 20 13 = 436 ∧ coreAt 12 6 = 0xCC := by decide +kernel

/-- The SNF_SEL values of the example of R624 are accepted, and PC 34 is not. -/
theorem test_snf_sel : snfSelOk 0x01431001 = true ∧ snfSelOk 0x01441001 = true ∧ snfSelOk (0x01401001 + 34 * 65536) = false := by decide +kernel

end Sys2Proof.Tests
end

section
/-! SUPPORT. Counting below the bound, and what SLIP_BEGIN counts and captures (R53, R54, R60, R493). -/
namespace Sys2Proof.Machine

/-- A counter that stays below its bound counts, be the amount 0 or not, and only the counters change (R493). -/
theorem State.bump_counts (s : State) (idx sub n : Nat) (h : s.stat idx sub + n < 2 ^ 64 - 1) :
    ∃ st, s.bump idx sub n = { s with stats := st } ∧ tabGet 0 st (statKey idx sub) = s.stat idx sub + n ∧
      ∀ k, k ≠ statKey idx sub → tabGet 0 st k = tabGet 0 s.stats k := by
  by_cases hn : n = 0
  · subst hn
    exact ⟨s.stats, by simp [State.bump, State.bumpKey, State.bumpRaw], rfl, fun _ _ => rfl⟩
  · exact ⟨_, s.bump_of_lt idx sub n hn h, tabGet_tabSet_self _ _ _ _, fun k hk => tabGet_tabSet_other _ _ _ hk⟩

/-- An output written reads back. -/
@[simp] theorem Core.setOutput_self (k : Core) (d : Dir) (o : Output) : (k.setOutput d o).output d = o := tabGet_tabSet_self _ _ _ _

/-- The three counters of a slip have different keys. -/
theorem slipKeys_ne (c : CoreId) (d : Dir) :
    statKey (0x1000 + c) (0x20 + d.code) ≠ statKey 0x5010 1 ∧ statKey (0x1000 + c) (0x20 + d.code) ≠ statKey 0x5010 2 ∧
    statKey 0x5010 1 ≠ statKey 0x5010 2 := by
  have hd : d.code ≤ 4 := by cases d <;> decide
  have hc := c.isLt
  unfold statKey
  omega

/-- The counters of a slip: each advances by its own amount, and only counters change (R53, R54). -/
theorem slipCounts (c : CoreId) (d : Dir) (n : Nat) (s : State)
    (hout : s.stat (0x1000 + c) (0x20 + d.code) + 1 < 2 ^ 64 - 1) (hmod : s.stat 0x5010 1 + 1 < 2 ^ 64 - 1)
    (hbeats : s.stat 0x5010 2 + n < 2 ^ 64 - 1) :
    ∃ st, ((s.bumpCore c (0x20 + d.code) 1).bump 0x5010 1 1).bump 0x5010 2 n = { s with stats := st } ∧
      tabGet 0 st (statKey (0x1000 + c) (0x20 + d.code)) = s.stat (0x1000 + c) (0x20 + d.code) + 1 ∧
      tabGet 0 st (statKey 0x5010 1) = s.stat 0x5010 1 + 1 ∧ tabGet 0 st (statKey 0x5010 2) = s.stat 0x5010 2 + n := by
  obtain ⟨k1, k2, k3⟩ := slipKeys_ne c d
  obtain ⟨a, ea, va, oa⟩ := s.bump_counts _ _ _ hout
  have ha1 : ({ s with stats := a } : State).stat 0x5010 1 = s.stat 0x5010 1 := oa _ k1.symm
  obtain ⟨b, eb, vb, ob⟩ := State.bump_counts { s with stats := a } 0x5010 1 1 (by rw [ha1]; exact hmod)
  have hb2 : ({ s with stats := b } : State).stat 0x5010 2 = s.stat 0x5010 2 := (ob _ k3.symm).trans (oa _ k2.symm)
  obtain ⟨e, ee, ve, oe⟩ := State.bump_counts { s with stats := b } 0x5010 2 n (by rw [hb2]; exact hbeats)
  refine ⟨e, ?_, ?_, ?_, ?_⟩
  · rw [State.bumpCore, ea, eb, ee]
  · rw [oe _ k2, ob _ k1, va]
  · rw [oe _ k3, vb, ha1]
  · rw [ve, hb2]

/-- The place of a first slip: the entry in bits 27:16, the direction in 15:10 and the core in 9:0 (R60). -/
theorem slipPlace_toNat (head : Nat) (c : CoreId) (d : Dir) :
    (BitVec.ofNat 32 (at_ 16 (head % 4096) + at_ 10 d.code + c % 1024)).toNat = head % 4096 * 2 ^ 16 + d.code * 2 ^ 10 + c := by
  have hd : d.code ≤ 4 := by cases d <;> decide
  have hc := c.isLt
  have hh : head % 4096 < 4096 := Nat.mod_lt _ (by decide)
  rw [BitVec.toNat_ofNat, at_, at_, Nat.shiftLeft_eq, Nat.shiftLeft_eq, Nat.mod_eq_of_lt hc, Nat.mod_eq_of_lt (by omega)]

/-- A core with one output marked as slipped (R53). -/
def Core.slip (d : Dir) (k : Core) : Core := k.setOutput d { k.output d with slipped := true }

/-- SLIP_BEGIN as one new state: the output is marked, the capture is held, and it is what was captured first (R53, R54, R60). -/
theorem slipBegin_eq (c : CoreId) (d : Dir) (s : State) {st : Tab Nat}
    (counts : ((s.bumpCore c (0x20 + d.code) 1).bump 0x5010 1 1).bump 0x5010 2
      (howlDiff s.howl ((s.core c).output d).heldFrom).toNat = { s with stats := st }) :
    slipBegin c d s = { s with
      cores := (s.modCore c (Core.slip d)).cores
      stats := st
      slipHeld := true
      slipTime := if s.slipHeld then s.slipTime else ((s.core c).output d).heldFrom
      slipPlace := if s.slipHeld then s.slipPlace
        else BitVec.ofNat 32 (at_ 16 (((s.core c).output d).head % 4096) + at_ 10 d.code + c % 1024) } := by
  simp only [slipBegin, counts]
  cases held : s.slipHeld with
  | true => simp [State.modCore, State.setCore, State.core, Core.slip, held]
  | false => rfl

/-- Settles O8: the counters by `slipCounts`, the output and the capture by `slipBegin_eq`. -/
theorem slipIsCountedAndCapturedOnce : Obligations.SlipIsCountedAndCapturedOnce := by
  refine ⟨fun c d s hout hmod hbeats => ?_, fun _ => rfl⟩
  obtain ⟨st, counts, vout, vmod, vbeats⟩ := slipCounts c d _ s hout hmod hbeats
  have self := s.modCore_self c (Core.slip d)
  have other : ∀ e, e ≠ c.val → (s.modCore c (Core.slip d)).core e = s.core e := fun e => s.modCore_other c (Core.slip d)
  dsimp only
  rw [slipBegin_eq c d s counts]
  refine ⟨vout, vmod, vbeats, ?_, rfl, fun held => ?_, fun armed => ?_, rfl, other⟩
  · exact (congrArg (Core.output · d) self).trans (Core.setOutput_self _ _ _)
  · exact ⟨if_pos held, if_pos held⟩
  · simp only [armed, Bool.false_eq_true, if_false]
    exact ⟨trivial, slipPlace_toNat _ c d⟩

end Sys2Proof.Machine
end

section
/-! SUPPORT. The step of the block, the Howl's events, step launches and the launch queues (R28-R48, R72, R347, R348, R512). -/
namespace Sys2Proof.Machine

/-- Settles O56: the queue is either empty or has a front, and `step` has one equation for each. -/
theorem stepTakesTheFrontCommand : Obligations.StepTakesTheFrontCommand := by
  refine fun s => ⟨fun c rest front => ?_, fun empty => ?_, fun _ _ => ⟨rfl, rfl⟩⟩
  · simp only [step, front]
  · simp only [step, empty]
    rfl

section Howl
variable (s : State)

/-- At a multiple of 2^12 beats with the rails up, every disagreeing copy is corrected and the corrections are counted (R30). -/
theorem exec_howlBroadcast (beat : s.howl.toNat % 4096 = 0) (rails : s.power.rails = true) :
    let bad := (s.cores.filter (fun e => e.2.howlSkew ≠ 0)).map (fun e => e.1)
    exec .howlBroadcast s =
      .next ((bad.foldl (fun s c => s.modCore c (fun k => { k with howlSkew := 0 })) s).bump 0x5010 8 bad.length) := by
  change execHowlBroadcast s = _
  unfold execHowlBroadcast
  rw [if_neg (by simp [beat, rails])]

/-- A PPS edge with none accepted before it, or more than 100 µs after the last one, is accepted (R33). -/
theorem exec_howlPpsCapture (booted : s.power.booted = true) (late : s.power.ppsAt = 0 ∨ s.power.ppsAt + 82500 < s.clock + 1) :
    exec .howlPpsCapture s =
      .next { s with power := { s.power with ppsCapture := s.howl, ppsAt := s.clock + 1, ppsCount := s.power.ppsCount + 1 } } := by
  have accepted : ¬ (!s.power.booted || (s.power.ppsAt ≠ 0 && decide (s.clock + 1 ≤ s.power.ppsAt + 82500))) = true := by
    rcases late with h | h
    · simp [booted, h]
    · simp [booted, Nat.not_le.mpr h]
  change execHowlPpsCapture s = _
  unfold execHowlPpsCapture
  rw [if_neg accepted]

/-- A booted module's emergency clock-down acts on the packs of its target (R38). -/
theorem exec_emergencyClockdown (target : ClockTarget) (booted : s.power.booted = true) :
    exec (.emergencyClockdown target) s = .next (clockDown target.packs s) := by
  change execEmergencyClockdown target s = _
  rw [execEmergencyClockdown, if_pos booted]

/-- A stretched cycle advances its core's counter (R72). -/
theorem exec_cycleStretch (c : CoreId) (below : s.stat (0x1000 + c) 2 + 1 < 2 ^ 64 - 1) :
    exec (.cycleStretch c) s =
      .next { s with stats := tabSet 0 s.stats (statKey (0x1000 + c) 2) (s.stat (0x1000 + c) 2 + 1) } :=
  congrArg Host.Outcome.next (s.bump_of_lt (0x1000 + c) 2 1 one_ne_zero below)

end Howl

/-- Settles O23, an event at a time. -/
theorem howlAndClockEvents : Obligations.HowlAndClockEvents := fun s =>
  ⟨rfl, rfl, exec_howlBroadcast s, exec_howlPpsCapture s, exec_emergencyClockdown s, exec_cycleStretch s⟩

section Launches
variable {p : PackId} {g : Nat} {s : State}

/-- A timed descriptor at the head launches once its time has come and the pack is ready (R45). -/
theorem exec_timedLaunch_ready (may : Launches p g s) {d : Descriptor} {rest : List Descriptor} (head : (s.pack p).queue = d :: rest)
    (timed : d.gated = false) (noReplay : s.replaying p = false) (ready : s.packReady p = true) (due : howlGe s.howl d.launch = true) :
    exec (.timedLaunch p) s = .next (launchPack g p d s) := by
  obtain ⟨prog, launches⟩ := may
  change execTimedLaunch p s = _
  simp [execTimedLaunch, head, prog, launches, timed, noReplay, ready, due]

/-- Before that, a frequency change whose boundary has come is made (R37, R66). -/
theorem exec_timedLaunch_wait (may : Launches p g s) {d : Descriptor} {rest : List Descriptor} (head : (s.pack p).queue = d :: rest)
    (timed : d.gated = false) (noReplay : s.replaying p = false) (wait : (s.packReady p && howlGe s.howl d.launch) = false) :
    exec (.timedLaunch p) s = .next (freqBoundary p s) := by
  obtain ⟨prog, launches⟩ := may
  change execTimedLaunch p s = _
  simp [execTimedLaunch, head, prog, launches, timed, noReplay, wait]

/-- At its go time, with no relock outstanding, the gated step at the head launches (R46, R47). -/
theorem exec_gatedLaunch_head (may : Launches p g s) {t : Time} {d : Descriptor} {rest : List Descriptor} (go : (s.pack p).goAt = some t)
    (due : howlGe s.howl t = true) (locked : (s.pack p).relockEnd = none) (noReplay : s.replOf g = none)
    (head : (s.pack p).queue = d :: rest) : exec (.gatedLaunch p) s = .next (launchPack g p d s) := by
  obtain ⟨prog, launches⟩ := may
  change execGatedLaunch p s = _
  simp [execGatedLaunch, go, prog, launches, due, locked, noReplay, head]

/-- At its go time a replayed step launches again (R456). -/
theorem exec_gatedLaunch_replay (may : Launches p g s) {t : Time} {r : Replace} (go : (s.pack p).goAt = some t)
    (due : howlGe s.howl t = true) (locked : (s.pack p).relockEnd = none) (replay : s.replOf g = some r) :
    exec (.gatedLaunch p) s = .next (launchReplay g p r s) := by
  obtain ⟨prog, launches⟩ := may
  change execGatedLaunch p s = _
  simp [execGatedLaunch, go, prog, launches, due, locked, replay]

/-- A participant that has finished, and whose gates let it, posts step-ready (R46, R226). -/
theorem exec_stepReadyPost (c : CoreId) (may : Launches p g s) (home : packOf c = p) (used : (s.usedCores p).contains c.val = true)
    (finished : (s.core c).finished = true) (awaited : (s.pack p).queue ≠ [] ∨ s.replaying p = true) (opened : s.replayOpen p = true)
    (gates : s.nextGated p = true → s.replaying p = true ∨ (s.core c).postedReady = true ∨ (s.core c).gatesMet = true) :
    exec (.stepReadyPost c) s = .next (packPost p (freqBoundary p (s.modCore c (fun k => { k with postedReady := true })))) := by
  have someStep : ((s.pack p).queue.isEmpty && !s.replaying p) = false := by
    rcases awaited with h | h
    · simp [h]
    · simp [h]
  have gatesLet : (s.nextGated p && !s.replaying p && !(s.core c).postedReady && !(s.core c).gatesMet) = false := by
    cases gated : s.nextGated p with
    | false => rfl
    | true => rcases gates gated with h | h | h <;> simp [h]
  change execStepReadyPost c s = _
  simp only [execStepReadyPost, home, may.2, used, finished, someStep, opened, gatesLet, Bool.not_true, Bool.or_false, Bool.false_eq_true,
    if_false]

/-- A launch time that comes at a pack that is not ready is an overrun, counted once (R56). -/
theorem exec_overrun (may : Launches p g s) {d : Descriptor} {rest : List Descriptor} (head : (s.pack p).queue = d :: rest)
    (due : howlGe s.howl d.launch = true) (late : s.packReady p = false) (first : (s.pack p).overran = false) :
    exec (.overrun p) s =
      .next (countOnce g 0 3 1 d.step ((s.bump (0x1800 + p) 0x10 1).modPack p (fun k => { k with overran := true }))) := by
  obtain ⟨prog, launches⟩ := may
  change execOverrun p s = _
  simp [execOverrun, noteOverrun, head, prog, launches, due, late, first]

/-- When the islands have relocked, the pack may post (R37). -/
theorem exec_relockDone (relocking : (s.pack p).relockEnd.isSome = true) :
    exec (.relockDone p) s = .next (packPost p (s.modPack p (fun k => { k with relockEnd := none, readyAt := s.howl }))) := by
  obtain ⟨t, h⟩ := Option.isSome_iff_exists.mp relocking
  change execRelockDone p s = _
  simp only [execRelockDone, h]

end Launches

/-- Settles O21, a command at a time. -/
theorem stepLaunchesAndOverruns : Obligations.StepLaunchesAndOverruns := fun _ _ _ may =>
  ⟨fun _ _ head timed noReplay => ⟨exec_timedLaunch_ready may head timed noReplay, exec_timedLaunch_wait may head timed noReplay⟩,
    fun _ _ _ go due locked noReplay head => exec_gatedLaunch_head may go due locked noReplay head,
    fun _ _ go due locked replay => exec_gatedLaunch_replay may go due locked replay,
    fun c home used finished awaited opened gates => exec_stepReadyPost c may home used finished awaited opened gates,
    fun _ _ head due late first => exec_overrun may head due late first,
    exec_relockDone⟩

section Generator
variable {s : State}

/-- LAUNCH_CONTROL 1 answers the status of `genStart` and leaves its state (R348). -/
theorem exec_generatorStart (answers : Answering s) : exec .generatorStart s = .next { (genStart s).2 with out := [BitVec.ofNat 8 (genStart s).1] } :=
  congrArg Host.Outcome.next (s.command_booted genStart answers.1 answers.2)

/-- A running generator is busy. -/
theorem genStart_running (running : s.gen.running = true) : genStart s = (stBusy, s) := if_pos running

/-- A generator without a period or without packs cannot start. -/
theorem genStart_unset (stopped : s.gen.running = false) (unset : s.gen.period = 0 ∨ s.gen.packs = 0) : genStart s = (stState, s) := by
  have isUnset : (decide (s.gen.period = 0) || decide (s.gen.packs = 0)) = true := by simpa only [Bool.or_eq_true, decide_eq_true_eq] using unset
  simp only [genStart, stopped, isUnset, Bool.false_eq_true, if_false, if_true]

section Set
variable (stopped : s.gen.running = false) (period : s.gen.period ≠ 0) (packs : s.gen.packs ≠ 0)
include stopped period packs

/-- A stopped generator with a period and packs starts unless its packs lack one program or the first launch is too far ahead (R32, R348). -/
theorem genStart_set : genStart s = if (s.oneProgram s.gen.packList).isNone then (stBusy, s)
    else if howlTooFar s.gen.first s.howl then (stRange, s)
    else (stDone, { s with gen := { s.gen with running := true, hostFed := false, k := 0 } }) := by
  have isSet : (decide (s.gen.period = 0) || decide (s.gen.packs = 0)) = false := by simp only [period, packs, decide_false, Bool.or_self]
  simp only [genStart, stopped, isSet, Bool.false_eq_true, if_false]

end Set

/-- Descriptors appended to many packs leave the generator. -/
theorem appendDescriptors_gen (l : Time) (g : Nat) (packs : List Nat) (s : State) :
    (packs.foldl (fun s p => appendDescriptor p l s.gen.gated (s.prog g).margin s) s).gen = s.gen := by
  induction packs generalizing s with
  | nil => rfl
  | cons p packs ih => exact ih _

/-- The generator's launch time is the same for every fed pack, since appending leaves the generator. -/
theorem appendDescriptors_sameLaunch (g : Nat) (packs : List Nat) (s : State) :
    packs.foldl (fun s p => appendDescriptor p (s.gen.first + BitVec.ofNat 64 (s.gen.k * s.gen.period.toNat)) s.gen.gated (s.prog g).margin s) s =
    packs.foldl (fun t p => appendDescriptor p (s.gen.first + BitVec.ofNat 64 (s.gen.k * s.gen.period.toNat)) t.gen.gated (t.prog g).margin t) s := by
  induction packs generalizing s with
  | nil => rfl
  | cons p packs ih => exact ih _

/-- The next descriptor goes to every fed pack, while the generator runs, some fed queue is below 8 and none is full (R348). -/
theorem exec_generatorDescriptor {g : Nat} (prog : s.oneProgram s.gen.packList = some g) (running : s.gen.running = true)
    (low : s.gen.packList.any (fun p => (s.pack p).queue.length < 8) = true)
    (room : s.gen.packList.any (fun p => 64 ≤ (s.pack p).queue.length) = false) :
    exec .generatorDescriptor s = .next (
      let t := s.gen.packList.foldl (fun s p =>
        appendDescriptor p (s.gen.first + BitVec.ofNat 64 (s.gen.k * s.gen.period.toNat)) s.gen.gated (s.prog g).margin s) s
      { t with gen := { s.gen with k := s.gen.k + 1, nextStep := (s.pack (s.gen.packList.headD 0)).nextStep + 1 } }) := by
  change execGeneratorDescriptor s = _
  simp only [execGeneratorDescriptor, prog, running, low, room, Bool.not_true, Bool.or_false, Bool.false_eq_true, if_false,
    appendDescriptors_gen, appendDescriptors_sameLaunch]

/-- A launch-window time write of 8 bytes that nothing refuses appends a descriptor of the window's mode (R512). -/
theorem exec_lwTimeWrite (fn : Fin 17) (p : PackId) (l : Time) (ide : Bool) {g : Nat} (bar : BarOpen fn ide s) (serves : s.serves fn p = true)
    (prog : s.progOf p = some g) (fed : s.gen.hostFed = true) (loaded : (s.pack p).state = .installed ∨ (s.pack p).state = .running)
    (room : (s.pack p).queue.length < 64) (near : howlTooFar l s.howl = false) :
    exec (.lwTimeWrite fn p none l 8 ide) s = .next (appendDescriptor p l (tabGet false s.host.lwGated p) (s.prog g).margin s) := by
  obtain ⟨served, notRefused⟩ := bar
  have isLoaded : (decide ((s.pack p).state = .installed) || decide ((s.pack p).state = .running)) = true := by
    simpa only [Bool.or_eq_true, decide_eq_true_eq] using loaded
  have hasRoom : decide (64 ≤ (s.pack p).queue.length) = false := decide_eq_false (Nat.not_le.mpr room)
  change execLwTimeWrite fn p none l 8 ide s = _
  simp only [execLwTimeWrite, barWrite, served, notRefused, serves, prog, fed, isLoaded, near, hasRoom]
  rfl

end Generator

/-- Settles O24: LAUNCH_CONTROL by the tests of `genStart`, the two writers of the queues by what they append. -/
theorem launchGeneratorAndWindow : Obligations.LaunchGeneratorAndWindow := by
  refine fun s => ⟨fun answers => ⟨fun running => ?_, fun stopped unset => ?_, fun stopped period packs noProg => ?_,
    fun stopped period packs prog far => ?_, fun stopped period packs prog near => ?_, ?_, ?_⟩, fun g => exec_generatorDescriptor, ?_, ?_⟩
  · rw [exec_generatorStart answers, genStart_running running]; rfl
  · rw [exec_generatorStart answers, genStart_unset stopped unset]; rfl
  · rw [exec_generatorStart answers, genStart_set stopped period packs, noProg]; rfl
  · rw [exec_generatorStart answers, genStart_set stopped period packs, if_neg (by simpa using prog), if_pos far]; rfl
  · rw [exec_generatorStart answers, genStart_set stopped period packs, if_neg (by simpa using prog), near]; rfl
  · exact congrArg Host.Outcome.next (s.command_booted genStop answers.1 answers.2)
  · exact congrArg Host.Outcome.next (s.command_booted genHostFed answers.1 answers.2)
  · exact fun fn p l ide g => exec_lwTimeWrite fn p l ide
  · exact fun p l gated margin => ⟨congrArg Pack.queue (s.setPack_self p _), congrArg Pack.nextStep (s.setPack_self p _),
      fun q other => s.setPack_other p _ other, rfl⟩

end Sys2Proof.Machine
end

section
/-! SUPPORT. What a launch does to each core, pack and program (R43, R45, R46, R88, R278, R298, R328). -/
namespace Sys2Proof.Machine

/-- A table changed value by value reads as the change of what it read, where the default is no change. -/
theorem tabGet_mapValues {α : Type} {d : α} {f : α → α} (hd : f d = d) (t : Tab α) (k : Nat) :
    tabGet d (t.map (fun e => (e.1, f e.2))) k = f (tabGet d t k) := by
  induction t with
  | nil => exact hd.symm
  | cons e t ih =>
    by_cases h : e.1 = k
    · simp [tabGet, h]
    · simpa [tabGet, h] using ih

/-- Directions have different codes. -/
theorem Dir.code_inj {a b : Dir} (h : a.code = b.code) : a = b := by revert h; cases a <;> cases b <;> decide

/-- Every other output of a router is left. -/
theorem Core.setOutput_other (k : Core) {d d' : Dir} (o : Output) (h : d' ≠ d) : (k.setOutput d o).output d' = k.output d' :=
  tabGet_tabSet_other _ _ _ (fun hc => h (Dir.code_inj hc))

/-- Outputs of distinct directions changed one after the other: each listed one once, the others not at all. -/
theorem Core.output_setOutputs (f : Output → Output) (d' : Dir) {l : List Dir} (hl : l.Nodup) (k : Core) :
    (l.foldl (fun k d => k.setOutput d (f (k.output d))) k).output d' = if d' ∈ l then f (k.output d') else k.output d' := by
  induction l generalizing k with
  | nil => rfl
  | cons d l ih =>
    obtain ⟨hd, hl⟩ := List.nodup_cons.mp hl
    rw [List.foldl_cons, ih hl]
    by_cases h : d' = d
    · subst h; simp [hd, Core.output, Core.setOutput]
    · simp [h, Core.setOutput_other]

/-- Every output of a router changed reads as its change. -/
@[simp] theorem Core.mapOutputs_output (k : Core) (f : Output → Output) (d : Dir) : (k.mapOutputs f).output d = f (k.output d) := by
  rw [Core.mapOutputs, Core.output_setOutputs f d (by decide), if_pos (by cases d <;> decide)]

/-- Changing outputs changes only outputs. -/
theorem Core.setOutputs_eq (f : Output → Output) (l : List Dir) (k : Core) :
    l.foldl (fun k d => k.setOutput d (f (k.output d))) k =
      { k with outputs := (l.foldl (fun k d => k.setOutput d (f (k.output d))) k).outputs } := by
  induction l generalizing k with
  | nil => rfl
  | cons d l ih => exact ih _

/-- Changing a router's outputs leaves the streams. -/
theorem Core.mapOutputs_streams (k : Core) (f : Output → Output) : (k.mapOutputs f).streams = k.streams := by
  rw [Core.mapOutputs, Core.setOutputs_eq]

/-- Changing a router's outputs leaves the Bowls. -/
theorem Core.mapOutputs_bowls (k : Core) (f : Output → Output) : (k.mapOutputs f).bowls = k.bowls := by
  rw [Core.mapOutputs, Core.setOutputs_eq]

/-- The logical cores of a pack are distinct. -/
theorem packCores_nodup (p : Nat) : (packCores p).Nodup := by
  refine List.nodup_flatMap.mpr ⟨fun j _ => List.nodup_range.map fun a b h => ?_, List.nodup_range.imp_of_mem fun {i j} _ _ h => ?_⟩
  · simpa [coreAt] using h
  · simp only [Function.onFun, List.disjoint_left, List.mem_map, List.mem_range, coreAt]
    rintro _ ⟨a, ha, rfl⟩ ⟨b, hb, e⟩
    split at e <;> omega

/-- The used cores of a pack are distinct. -/
theorem usedCores_nodup (s : State) (p : Nat) : (s.usedCores p).Nodup := by
  unfold State.usedCores
  split
  · exact (packCores_nodup p).filter _
  · exact List.nodup_nil

/-- A core at a launch at beat `a`: its streams wake and its outputs start (R45, R278, R293). -/
def Core.launch (first : Bool) (a : Time) (k : Core) : Core :=
  ({ k with streams := k.streams.map (fun e => (e.1, e.2.launch)), routeSent := [], postedReady := false } : Core).mapOutputs
    (fun o => o.relaunch first k.routerEmpty a)

@[simp] theorem Core.launch_bowl (first : Bool) (a : Time) (k : Core) (b : Nat) : (k.launch first a).bowl b = k.bowl b :=
  congrArg (tabGet Bowl.none · b) (Core.mapOutputs_bowls _ _)

@[simp] theorem Core.launch_stream (first : Bool) (a : Time) (k : Core) (i : Nat) : (k.launch first a).stream i = (k.stream i).launch :=
  (congrArg (tabGet Stream.none · i) (Core.mapOutputs_streams _ _)).trans (tabGet_mapValues (by decide) k.streams i)

@[simp] theorem Core.launch_output (first : Bool) (a : Time) (k : Core) (d : Dir) :
    (k.launch first a).output d = (k.output d).relaunch first k.routerEmpty a := Core.mapOutputs_output _ _ d

/-- A stream parked on launch becomes Ready, with no gate and no claims used (R88). -/
theorem Stream.launch_of_parked {t : Stream} (h : t.st = .parkedLaunch) :
    t.launch = { t with st := .ready, gate := Option.none, claimsUsed := [], woken := false } := if_pos h

/-- An output of a program's table starts it from its first entry (R278). -/
theorem Output.relaunch_of_program {o : Output} (h : o.table.idle = false) (first drained : Bool) (a : Time) :
    o.relaunch first drained a = { o with running := true, head := 0, period := 0, launchAt := a, headSince := a, slipped := false } := by
  rw [Output.relaunch, h]; rfl

/-- A core whose Bowls have been opened at a first launch (R298). -/
def Core.openBowls (k : Core) : Core := { k with bowls := k.bowls.map (fun e => (e.1, { e.2 with isOpen := bConf e.2 })) }

@[simp] theorem Core.openBowls_bowl (k : Core) (b : Nat) : k.openBowls.bowl b = { k.bowl b with isOpen := bConf (k.bowl b) } :=
  tabGet_mapValues (d := Bowl.none) (f := fun x => { x with isOpen := bConf x }) (by decide) k.bowls b

/-- Opening Bowls twice is opening them once. -/
theorem Core.openBowls_openBowls (k : Core) : k.openBowls.openBowls = k.openBowls := by
  simp [Core.openBowls, bConf]

/-- The cores at which a change that is its own repetition has been made. -/
theorem State.core_modCores {f : Core → Core} (idem : ∀ k, f (f k) = f k) (l : List Nat) (s : State) (c : Nat) :
    (l.foldl (fun s c => s.modCore c f) s).core c = if c ∈ l then f (s.core c) else s.core c := by
  induction l generalizing s with
  | nil => rfl
  | cons d l ih =>
    rw [List.foldl_cons, ih]
    by_cases h : c = d
    · subst h; simp [idem]
    · simp [h, State.modCore_other]

/-- Changing cores changes only cores. -/
theorem State.modCores_eq (f : Core → Core) (l : List Nat) (s : State) :
    l.foldl (fun s c => s.modCore c f) s = { s with cores := (l.foldl (fun s c => s.modCore c f) s).cores } := by
  induction l generalizing s with
  | nil => rfl
  | cons d l ih => exact ih _

/-- Opening a program's Bowls at a core, if it is one of those the program uses (R298). -/
theorem openBowls_core (g : Nat) (s : State) (c : Nat) :
    (openBowls g s).core c = if c ∈ (s.progPacks g).flatMap s.usedCores then (s.core c).openBowls else s.core c :=
  State.core_modCores Core.openBowls_openBowls _ s c

/-- Opening a program's Bowls changes only cores. -/
theorem openBowls_eq (g : Nat) (s : State) : openBowls g s = { s with cores := (openBowls g s).cores } :=
  State.modCores_eq Core.openBowls _ s

@[simp] theorem launchCore_self (first : Bool) (c : Nat) (s : State) : (launchCore first c s).core c = (s.core c).launch first s.howl :=
  State.modCore_self _ c _

theorem launchCore_other (first : Bool) {c j : Nat} (s : State) (h : j ≠ c) : (launchCore first c s).core j = s.core j :=
  State.modCore_other _ c _ h

/-- A launch of distinct cores launches each once. -/
theorem launchCores_core (first : Bool) {l : List Nat} (hl : l.Nodup) (s : State) (c : Nat) :
    (l.foldl (fun s c => launchCore first c s) s).core c = if c ∈ l then (s.core c).launch first s.howl else s.core c := by
  induction l generalizing s with
  | nil => rfl
  | cons d l ih =>
    obtain ⟨hd, hl⟩ := List.nodup_cons.mp hl
    rw [List.foldl_cons, ih hl]
    by_cases h : c = d
    · subst h; simp [hd]
    · simp only [List.mem_cons, h, false_or, launchCore_other first s h]; rfl

/-- A launch of cores changes only cores and their snapshots (R454). -/
theorem launchCores_eq (first : Bool) (l : List Nat) (s : State) :
    l.foldl (fun s c => launchCore first c s) s =
      { s with cores := (l.foldl (fun s c => launchCore first c s) s).cores, vet := (l.foldl (fun s c => launchCore first c s) s).vet } := by
  induction l generalizing s with
  | nil => rfl
  | cons d l ih => exact ih _

/-- The state in which a program's step enters: at the program's first launch with its Bowls open (R298). -/
def State.opened (s : State) (g : Nat) : State := if (s.prog g).launched then s else openBowls g s

/-- Opening Bowls, or not, changes only cores. -/
theorem State.opened_eq (s : State) (g : Nat) : s.opened g = { s with cores := (s.opened g).cores } := by
  unfold State.opened
  split
  · rfl
  · exact openBowls_eq g s

/-- After a program's first launch its Bowls are as they were. -/
theorem State.opened_later {s : State} {g : Nat} (h : (s.prog g).launched = true) : s.opened g = s := if_pos h

/-- A core in which a step enters differs in its Bowls at most. -/
theorem State.opened_core (s : State) (g c : Nat) : (s.opened g).core c = s.core c ∨ (s.opened g).core c = (s.core c).openBowls := by
  unfold State.opened
  split
  · exact .inl rfl
  · rw [openBowls_core]
    split
    · exact .inr rfl
    · exact .inl rfl

/-- At the program's first launch the Bowls of its cores are open (R298). -/
theorem State.opened_core_first {s : State} {g c : Nat} (first : (s.prog g).launched = false) (hc : c ∈ (s.progPacks g).flatMap s.usedCores) :
    (s.opened g).core c = (s.core c).openBowls := by
  rw [State.opened, first, if_neg Bool.false_ne_true, openBowls_core, if_pos hc]

theorem State.opened_stream (s : State) (g c i : Nat) : ((s.opened g).core c).stream i = (s.core c).stream i := by
  rcases s.opened_core g c with h | h
  · rw [h]
  · rw [h]; rfl

theorem State.opened_output (s : State) (g c : Nat) (d : Dir) : ((s.opened g).core c).output d = (s.core c).output d := by
  rcases s.opened_core g c with h | h
  · rw [h]
  · rw [h]; rfl

/-- The state once the used cores of a pack have launched. -/
def State.launched (s : State) (g p : Nat) : State :=
  (s.usedCores p).foldl (fun u c => launchCore (!(s.pack p).everLaunched) c u) (s.opened g)

/-- Launching the cores of a pack changes only cores and their snapshots. -/
theorem State.launched_eq (s : State) (g p : Nat) :
    s.launched g p = { s with cores := (s.launched g p).cores, vet := (s.launched g p).vet } := by
  unfold State.launched
  rw [launchCores_eq, s.opened_eq g]

/-- The cores of the pack have launched; the others are as the step found them. -/
theorem State.launched_core (s : State) (g p c : Nat) : (s.launched g p).core c =
    if c ∈ s.usedCores p then ((s.opened g).core c).launch (!(s.pack p).everLaunched) s.howl else (s.opened g).core c := by
  rw [State.launched, launchCores_core _ (usedCores_nodup s p)]
  rw [show (s.opened g).howl = s.howl by rw [s.opened_eq g]]

/-- A pack as its step begins (R43, R45, R46). -/
def Pack.enter (k : Pack) (step : Word) (gated : Bool) (level : Nat) (howl : Time) (clock : Nat) : Pack :=
  { k with
    state := .running, step := step, inStep := true, everLaunched := true, launchAt := howl, posted := false, goAt := none
    overran := false, headLate := false, goLate := false, stepGated := gated, level := level, lastProg := clock, watchFrom := clock }

/-- What a launch does once the cores have launched: the pack is Running, the program has launched and its load is over (R43, R248, R328). -/
def State.enter (s : State) (g p : Nat) (step : Word) (gated : Bool) : State :=
  let t := (s.modPack p (fun k => k.enter step gated (s.checkLevelOf g) s.howl s.clock)).modProg g (fun x => { x with launched := true })
  if t.load.state = .installed && t.load.prog = g then { t with load := { t.load with state := .idle } } else t

/-- A step enters by the launch of its cores and what follows it. -/
theorem enterStep_eq (g p : Nat) (step : Word) (gated : Bool) (s : State) :
    enterStep g p step gated s = (s.launched g p).enter g p step gated := by
  have used : (s.opened g).usedCores p = s.usedCores p := by rw [s.opened_eq g]; rfl
  unfold State.launched
  rw [← used]
  rfl

/-- Entering a step changes the pack, the program and the load only. -/
theorem State.enter_eq (s : State) (g p : Nat) (step : Word) (gated : Bool) : s.enter g p step gated = { s with
    packs := (s.setPack p ((s.pack p).enter step gated (s.checkLevelOf g) s.howl s.clock)).packs
    progs := (s.modProg g (fun x => { x with launched := true })).progs
    load := if s.load.state = .installed && s.load.prog = g then { s.load with state := .idle } else s.load } := by
  by_cases ended : (s.load.state = .installed && s.load.prog = g) = true
  · rw [if_pos ended]
    exact if_pos ended
  · rw [if_neg ended]
    exact if_neg ended

section EnterStep
variable (g p : Nat) (step : Word) (gated : Bool) (s : State)

theorem enterStep_core (c : Nat) : (enterStep g p step gated s).core c = (s.launched g p).core c := by
  rw [enterStep_eq, State.enter_eq]; rfl

theorem enterStep_hbm : (enterStep g p step gated s).hbm = s.hbm := by
  rw [enterStep_eq, State.enter_eq, s.launched_eq g p]

theorem enterStep_packs : (enterStep g p step gated s).packs =
    (s.setPack p ((s.pack p).enter step gated (s.checkLevelOf g) s.howl s.clock)).packs := by
  rw [enterStep_eq, State.enter_eq, s.launched_eq g p]; rfl

theorem enterStep_progs : (enterStep g p step gated s).progs = (s.modProg g (fun x => { x with launched := true })).progs := by
  rw [enterStep_eq, State.enter_eq, s.launched_eq g p]; rfl

/-- The pack has entered its step (R43). -/
theorem enterStep_pack : (enterStep g p step gated s).pack p = (s.pack p).enter step gated (s.checkLevelOf g) s.howl s.clock :=
  (congrArg (tabGet Pack.reset · p) (enterStep_packs g p step gated s)).trans (s.setPack_self p _)

/-- Every other pack is left. -/
theorem enterStep_pack_other {q : Nat} (other : q ≠ p) : (enterStep g p step gated s).pack q = s.pack q :=
  (congrArg (tabGet Pack.reset · q) (enterStep_packs g p step gated s)).trans (s.setPack_other p _ other)

/-- The program has launched. -/
theorem enterStep_launched : ((enterStep g p step gated s).prog g).launched = true :=
  congrArg Program.launched ((congrArg (tabGet Program.none · g) (enterStep_progs g p step gated s)).trans (s.modProg_self g _))

/-- LOAD_STATE 3 of the program becomes 0 (R328). -/
theorem enterStep_load (installed : s.load.state = .installed) (own : s.load.prog = g) :
    (enterStep g p step gated s).load.state = .idle := by
  rw [enterStep_eq, State.enter_eq, s.launched_eq g p]
  simp [installed, own]

variable {p s} {c : Nat}

/-- A used core of the pack has launched. -/
theorem enterStep_core_used (hc : c ∈ s.usedCores p) :
    (enterStep g p step gated s).core c = ((s.opened g).core c).launch (!(s.pack p).everLaunched) s.howl := by
  rw [enterStep_core, State.launched_core, if_pos hc]

/-- Every other core is as the step found it. -/
theorem enterStep_core_unused (hc : c ∉ s.usedCores p) : (enterStep g p step gated s).core c = (s.opened g).core c := by
  rw [enterStep_core, State.launched_core, if_neg hc]

/-- A launch leaves the Bowls as the step found them. -/
theorem enterStep_bowl (b : Nat) : ((enterStep g p step gated s).core c).bowl b = ((s.opened g).core c).bowl b := by
  by_cases hc : c ∈ s.usedCores p
  · rw [enterStep_core_used g step gated hc, Core.launch_bowl]
  · rw [enterStep_core_unused g step gated hc]

end EnterStep

/-- Settles O22, a part of the module at a time. -/
theorem launchEntersTheStep : Obligations.LaunchEntersTheStep := by
  intro g p step gated s _
  dsimp only
  rw [enterStep_pack g p step gated s]
  refine ⟨rfl, rfl, rfl, rfl, rfl, rfl, rfl, fun q => enterStep_pack_other g p step gated s, ?streams, ?outputs,
    enterStep_launched g p step gated s, ?bowls, ?others, enterStep_load g p step gated s, enterStep_hbm g p step gated s⟩
  case streams =>
    intro c hc i parked
    rw [enterStep_core_used g step gated hc, Core.launch_stream, State.opened_stream, Stream.launch_of_parked parked]
    exact ⟨rfl, rfl, rfl⟩
  case outputs =>
    intro c hc d program
    rw [enterStep_core_used g step gated hc, Core.launch_output, State.opened_output, Output.relaunch_of_program program]
    exact ⟨rfl, rfl, rfl, rfl, rfl⟩
  case bowls =>
    intro first q hq c hc b configured
    rw [enterStep_bowl, State.opened_core_first first (List.mem_flatMap.mpr ⟨q, hq, hc⟩), Core.openBowls_bowl]
    exact configured
  case others =>
    intro c hc
    rw [enterStep_core_unused g step gated hc]
    refine ⟨?_, fun launched => by rw [State.opened_later launched]⟩
    rcases s.opened_core g c with h | h
    · rw [h]
    · rw [h]; rfl

end Sys2Proof.Machine
end

section
/-! SUPPORT. Jobs: what starting, leaving and forming one does to the ports and the job (R40, R404-R409, R422). -/
namespace Sys2Proof.Machine

/-- Ports changed one after the other: each listed one once, the others not at all. -/
theorem State.port_modPorts (f : Port → Port) {l : List Nat} (hl : l.Nodup) (s : State) (j : Nat) :
    (l.foldl (fun s i => s.modPort i f) s).port j = if j ∈ l then f (s.port j) else s.port j := by
  induction l generalizing s with
  | nil => rfl
  | cons i l ih =>
    obtain ⟨hi, hl⟩ := List.nodup_cons.mp hl
    rw [List.foldl_cons, ih hl]
    by_cases h : j = i
    · subst h; simp [hi]
    · simp [h, State.modPort_other]

/-- A fold of steps that each keep a reflexive and transitive relation keeps it. -/
theorem State.foldl_related {α : Type} {R : State → State → Prop} (refl : ∀ s, R s s) (trans : ∀ {s t u}, R s t → R t u → R s u)
    {f : State → α → State} (hf : ∀ s a, R s (f s a)) (l : List α) (s : State) : R s (l.foldl f s) := by
  induction l generalizing s with
  | nil => exact refl s
  | cons a l ih => exact trans (hf s a) (ih (f s a))

/-- Nothing differs but the ports. -/
def PortsOnly (s t : State) : Prop := t = { s with ports := t.ports }

theorem PortsOnly.refl (s : State) : PortsOnly s s := rfl

theorem PortsOnly.trans {s t u : State} (h : PortsOnly s t) (h' : PortsOnly t u) : PortsOnly s u := by
  unfold PortsOnly at *
  rw [h', h]

theorem PortsOnly.modPort (s : State) (i : Nat) (f : Port → Port) : PortsOnly s (s.modPort i f) := rfl

/-- What a job start heeds of the ports is the same: each port's state, its exclusion and the HELLOs it has heard. -/
def SameHearing (s t : State) : Prop :=
  ∀ j, (t.port j).state = (s.port j).state ∧ (t.port j).excluded = (s.port j).excluded ∧ (t.port j).helloCount = (s.port j).helloCount

theorem SameHearing.refl (s : State) : SameHearing s s := fun _ => ⟨rfl, rfl, rfl⟩

theorem SameHearing.trans {s t u : State} (h : SameHearing s t) (h' : SameHearing t u) : SameHearing s u := fun j =>
  ⟨(h' j).1.trans (h j).1, (h' j).2.1.trans (h j).2.1, (h' j).2.2.trans (h j).2.2⟩

/-- A change of one port that keeps what a job start heeds. -/
theorem SameHearing.modPort (s : State) (i : Nat) {f : Port → Port}
    (hf : ∀ p : Port, (f p).state = p.state ∧ (f p).excluded = p.excluded ∧ (f p).helloCount = p.helloCount) :
    SameHearing s (s.modPort i f) := fun j => by
  by_cases h : j = i
  · subst h; rw [State.modPort_self]; exact hf _
  · rw [State.modPort_other _ _ _ h]; exact ⟨rfl, rfl, rfl⟩

/-- Returning a packet's credits changes only the credits owed by a port (R395). -/
theorem owePkt_ports (r : RingPkt) (s : State) : PortsOnly s (owePkt r s) ∧ SameHearing s (owePkt r s) := by
  unfold owePkt
  split
  · exact ⟨.refl s, .refl s⟩
  · exact ⟨.modPort s _ _, .modPort s _ fun _ => ⟨rfl, rfl, rfl⟩⟩

/-- Sending HELLO changes only what its port sends (R418). -/
theorem sendHello_ports (f : Nat) (s : State) : PortsOnly s (sendHello f s) ∧ SameHearing s (sendHello f s) := by
  have sent : SameHearing s (s.setPort f { s.port f with helloSent := (s.port f).helloSent + 1 }) :=
    SameHearing.modPort s f (f := fun p => { p with helloSent := p.helloSent + 1 }) fun _ => ⟨rfl, rfl, rfl⟩
  exact ⟨rfl, sent.trans (.modPort _ _ fun _ => ⟨rfl, rfl, rfl⟩)⟩

/-- The ports of a job are among F0-F17 (R391). -/
theorem jobPorts_lt {s : State} {f : Nat} (h : f ∈ s.jobPorts) : f < 18 := by
  have dirs : ∀ d ∈ usedDirs s.job.extent.toNat, d < 6 := fun d hd => by
    simp only [usedDirs, List.mem_append, List.mem_ite_nil_right, List.mem_cons, List.not_mem_nil, or_false] at hd
    omega
  obtain ⟨d, hd, hf⟩ := List.mem_flatMap.mp h
  obtain ⟨i, hi, rfl⟩ := List.mem_map.mp hf
  have := dirs d hd
  have := List.mem_range.mp hi
  omega

/-- While a port of the extent that is up has not been heard from, forming goes no further (R408). -/
theorem jobAdvance_unheard {s : State} {f : Nat} (forming : s.job.state = .forming) (fixed : s.job.listsFixed = false) (hf : f ∈ s.jobPorts)
    (up : (s.port f).state = .up) (kept : (s.port f).excluded = false) (unheard : (s.port f).helloCount = 0) : jobAdvance s = s := by
  have notReady : s.jobPorts.all (fun f => (s.port f).state ≠ .up || (s.port f).excluded || 2 ≤ (s.port f).helloCount) = false :=
    List.all_eq_false.mpr ⟨f, hf, by simp [up, kept, unheard]⟩
  unfold jobAdvance
  rw [if_neg (not_not.mpr forming)]
  simp only [notReady, fixed, Bool.and_false, Bool.false_eq_true, if_false, Bool.not_false, Bool.true_or, if_true]

/-- A port that is up when a job start comes is up, not excluded and not heard from when the start has dropped what the port holds (R408). -/
theorem Port.forJob_up {p : Port} (h : p.state = .up) :
    p.forJob.dropCtrl.state = .up ∧ p.forJob.dropCtrl.excluded = false ∧ p.forJob.dropCtrl.helloCount = 0 := by
  simp [Port.forJob, Port.dropCtrl, h]

section JobStart
variable {s : State}

/-- The credits of the packets that wait in the ring are returned (R395). -/
def State.returnCredits (s : State) : State := s.ring.arrivals.foldl (fun s r => owePkt r s) s

/-- The job's record and the ring as forming begins (R404, R408). -/
def State.beginJob (ext : Nat) (s : State) : State := { s with
  job := { s.job with
    state := .forming, startResult := 0, parent := BitVec.ofNat 16 (parentOf ext s.device), startedAt := s.howl, lists := []
    listsFixed := false, joins := [], joinLatest := s.job.epoch, joinCount := 1, joinSent := false }
  ring := { s.ring with arrivals := [], requests := [], replies := [], collectives := [], closed := [], deliver := [] } }

/-- Every port as a job start takes it (R394, R408). -/
def State.trainPorts (s : State) : State := (List.range 18).foldl (fun s f => s.modPort f (fun p => p.forJob.dropCtrl)) s

/-- HELLO on every port of the extent that is up (R408). -/
def State.greetPorts (s : State) : State := s.jobPorts.foldl (fun s f => if (s.port f).state = .up then sendHello f s else s) s

/-- The device as it forms a job, before forming advances. -/
def State.formed (s : State) : State := (s.returnCredits.beginJob s.job.extent.toNat).trainPorts.greetPorts

/-- Whether a pack holds a program or is being torn down, which keeps a job from starting (R407). -/
def State.packsHeld (s : State) : Bool := (List.range 16).any (fun p => (s.pack p).prog.isSome || (s.pack p).teardown.isSome)

theorem State.packsHeld_of_prog {p : Nat} (hp : p < 16) (h : (s.pack p).prog.isSome = true) : s.packsHeld = true :=
  List.any_eq_true.mpr ⟨p, List.mem_range.mpr hp, by simp [h]⟩

theorem State.packsHeld_of_free (h : ∀ p < 16, (s.pack p).prog = none ∧ (s.pack p).teardown = none) : s.packsHeld = false :=
  List.any_eq_false.mpr fun p hp => by simp [h p (List.mem_range.mp hp)]

/-- JOB_COMMAND 1 answers the status of `jobStart` and leaves its state (R404). -/
theorem exec_jobStart (answers : Answering s) : exec .jobStart s = .next { (jobStart s).2 with out := [BitVec.ofNat 8 (jobStart s).1] } :=
  congrArg Host.Outcome.next (s.command_booted jobStart answers.1 answers.2)

/-- Outside Idle and Run a job start is a state error (R609). -/
theorem jobStart_asleep (idle : s.power.dev ≠ .idle) (run : s.power.dev ≠ .run) : jobStart s = (stState, s) := by
  simp [jobStart, idle, run]

/-- In Idle and Run a job start is busy, out of range, or forms a job (R404, R407, R408). -/
theorem jobStart_awake (awake : s.power.dev = .idle ∨ s.power.dev = .run) : jobStart s =
    if s.job.state = .forming || s.packsHeld then (stBusy, s)
    else if !devIn s.job.extent.toNat s.job.coord.toNat then (stRange, s)
    else (stDone, jobAdvance s.formed) := by
  have dev : (decide (s.power.dev = .idle) || decide (s.power.dev = .run)) = true := by
    simpa only [Bool.or_eq_true, decide_eq_true_eq] using awake
  unfold jobStart
  rw [dev]
  rfl

/-- With no job forming and every pack free, only the coordinates can refuse a job start (R407). -/
theorem jobStart_free (awake : s.power.dev = .idle ∨ s.power.dev = .run) (free : s.job.state ≠ .forming)
    (packs : ∀ p < 16, (s.pack p).prog = none ∧ (s.pack p).teardown = none) : jobStart s =
    if !devIn s.job.extent.toNat s.job.coord.toNat then (stRange, s) else (stDone, jobAdvance s.formed) := by
  rw [jobStart_awake awake, if_neg (by simp [free, State.packsHeld_of_free packs])]

theorem State.returnCredits_ports (s : State) : PortsOnly s s.returnCredits ∧ SameHearing s s.returnCredits :=
  ⟨State.foldl_related .refl .trans (fun s r => (owePkt_ports r s).1) _ s, State.foldl_related .refl .trans (fun s r => (owePkt_ports r s).2) _ s⟩

theorem State.trainPorts_port (s : State) {f : Nat} (hf : f < 18) : s.trainPorts.port f = (s.port f).forJob.dropCtrl := by
  rw [State.trainPorts, State.port_modPorts _ List.nodup_range, if_pos (List.mem_range.mpr hf)]

theorem State.trainPorts_only (s : State) : PortsOnly s s.trainPorts := State.foldl_related .refl .trans (fun s f => .modPort s f _) _ s

/-- A greeting of one port, if it is up. -/
theorem greet_ports (f : Nat) (s : State) :
    PortsOnly s (if (s.port f).state = .up then sendHello f s else s) ∧ SameHearing s (if (s.port f).state = .up then sendHello f s else s) := by
  split
  · exact sendHello_ports f s
  · exact ⟨.refl s, .refl s⟩

theorem State.greetPorts_ports (s : State) : PortsOnly s s.greetPorts ∧ SameHearing s s.greetPorts :=
  ⟨State.foldl_related .refl .trans (fun s f => (greet_ports f s).1) _ s, State.foldl_related .refl .trans (fun s f => (greet_ports f s).2) _ s⟩

/-- As a job forms, what changes is its record, the ring and the ports. -/
theorem State.formed_eq (s : State) : PortsOnly (s.beginJob s.job.extent.toNat) s.formed := by
  have credits : PortsOnly (s.beginJob s.job.extent.toNat) (s.returnCredits.beginJob s.job.extent.toNat) := by
    rw [s.returnCredits_ports.1]; rfl
  exact (credits.trans (State.trainPorts_only _)).trans (State.greetPorts_ports _).1

/-- A port that was up is up, not excluded and not yet heard from as a job forms. -/
theorem State.formed_port_up {f : Nat} (hf : f < 18) (up : (s.port f).state = .up) :
    (s.formed.port f).state = .up ∧ (s.formed.port f).excluded = false ∧ (s.formed.port f).helloCount = 0 := by
  have stillUp : (s.returnCredits.port f).state = .up := (s.returnCredits_ports.2 f).1.trans up
  have trained := State.trainPorts_port (s.returnCredits.beginJob s.job.extent.toNat) hf
  obtain ⟨hs, he, hh⟩ := (State.greetPorts_ports (s.returnCredits.beginJob s.job.extent.toNat).trainPorts).2 f
  rw [trained] at hs he hh
  obtain ⟨u, x, n⟩ := Port.forJob_up stillUp
  exact ⟨hs.trans u, he.trans x, hh.trans n⟩

/-- A device with a port of the extent up forms: it waits for the first HELLO (R408). -/
theorem jobAdvance_formed (ports : s.jobPorts.any (fun f => (s.port f).state = .up) = true) : jobAdvance s.formed = s.formed := by
  obtain ⟨f, hf, up⟩ := List.any_eq_true.mp ports
  obtain ⟨stillUp, kept, unheard⟩ := State.formed_port_up (jobPorts_lt hf) (of_decide_eq_true up)
  have job : s.formed.job = (s.beginJob s.job.extent.toNat).job := by rw [s.formed_eq]
  refine jobAdvance_unheard ?_ ?_ ?_ stillUp kept unheard
  · rw [job]; rfl
  · rw [job]; rfl
  · unfold State.jobPorts; rw [job]; exact hf

end JobStart

section JobMessages
variable {s : State}

/-- A port of a job that is left (R422). -/
def Port.leaveJob (p : Port) : Port := if p.state = .member || p.state = .muzzled then { p with state := .up } else p

theorem Port.leaveJob_eq (p : Port) :
    p.leaveJob = { p with state := if p.state = .member ∨ p.state = .muzzled then .up else p.state } := by
  unfold Port.leaveJob
  simp only [Bool.or_eq_true, decide_eq_true_eq]
  split
  · rfl
  · rfl

/-- The ports of a device that leaves its job (R422). -/
def State.leavePorts (s : State) : State := (List.range 18).foldl (fun s f => s.modPort f Port.leaveJob) s

theorem State.leavePorts_only (s : State) : PortsOnly s s.leavePorts := State.foldl_related .refl .trans (fun s f => .modPort s f _) _ s

theorem State.leavePorts_port (s : State) {f : Nat} (hf : f < 18) : s.leavePorts.port f = (s.port f).leaveJob := by
  rw [State.leavePorts, State.port_modPorts _ List.nodup_range, if_pos (List.mem_range.mpr hf)]

/-- JOB_COMMAND 2 changes the job's state and the ports only (R422). -/
theorem jobLeave_eq (s : State) : jobLeave s = (stDone, { s with ports := s.leavePorts.ports, job := { s.job with state := .none, slew := 0 } }) := by
  have left : jobLeave s = (stDone, { s.leavePorts with job := { s.leavePorts.job with state := .none, slew := 0 } }) := rfl
  rw [left, s.leavePorts_only]

/-- JOB_COMMAND 2 is answered done (R422). -/
theorem exec_jobLeave (answers : Answering s) : exec .jobLeave s =
    .next { s with ports := s.leavePorts.ports, job := { s.job with state := .none, slew := 0 }, out := [0] } := by
  change Host.Outcome.next (s.command jobLeave) = _
  rw [s.command_booted jobLeave answers.1 answers.2, jobLeave_eq]
  generalize s.leavePorts.ports = ports
  rfl

/-- No START within 2^26 beats of the command fails the start (R408, R409). -/
theorem exec_jobStartTimeout (forming : s.job.state = .forming) (due : howlGe s.howl (s.job.startedAt + BitVec.ofNat 64 (2 ^ 26)) = true) :
    exec .jobStartTimeout s = .next
      { s with job := { s.job with state := .startFailed, startResult := if s.job.startResult = 0 then 4 else s.job.startResult } } := by
  change execJobStartTimeout s = _
  exact if_pos (by rw [due, decide_eq_true forming]; rfl)

/-- A port that has heard a HELLO: its far end, the echo it will send, and where the HELLO echoes one of its own the delay (R408, R412). -/
def Port.heardHello (p : Port) (h : CtrlHead) (m : HelloMsg) (t2 : Word) : Port :=
  let p := { p with neighbour := h.src, rxEcho := t2, txEcho := h.tTx }
  if m.txEcho ≠ 0 then { p with delay := delayOf h.tTx t2 m.txEcho m.rxEcho, helloCount := p.helloCount + 1 } else p

variable {f : PortId} {h : CtrlHead} {t2 : Word} {t : State}

/-- A HELLO on a port of the extent while forming: the far end is checked, and forming advances (R405, R408, R409). -/
theorem exec_hello_forming {m : HelloMsg} (msg : takeCtrl f 1 s = some (h, .hello m, t2, t)) (forming : t.job.state = .forming)
    (mine : t.jobPorts.contains f.val = true) : exec (.hello f) s =
    let p := (t.port f).heardHello h m t2
    let u := t.setPort f p
    if m.part ≠ partCode || m.stepping ≠ steppingCode then .next (jobAdvance (excludePort f 3 u))
    else if h.src ≠ hopFrom t.job.extent.toNat t.device (portDir f) || m.expect ≠ t.device then .next (jobAdvance (excludePort f 2 u))
    else .next (jobAdvance (if p.helloSent < 3 then sendHello f u else u)) := by
  have goesOn : ¬ (decide (t.job.state ≠ .forming) || !t.jobPorts.contains f.val) = true := by rw [forming, mine]; decide
  change execHello f s = _
  unfold execHello
  simp only [msg]
  exact if_neg goesOn

/-- A JOIN of a child that has not joined is added to what the parent will be told (R408). -/
theorem exec_join_forming {latest : BitVec 32} {count : Nat} (msg : takeCtrl f 7 s = some (h, .join latest count, t2, t))
    (forming : t.job.state = .forming) (child : (childrenOf t.job.extent.toNat t.device).contains h.src = true)
    (fresh : tabGet false t.job.joins h.src = false) : exec (.join f) s = .next (jobAdvance { t with job := { t.job with
      joins := tabSet false t.job.joins h.src true, joinLatest := epochMax t.job.joinLatest latest, joinCount := t.job.joinCount + count } }) := by
  change execJoin f s = _
  simp only [execJoin, msg, forming, child, fresh, ne_eq, not_true_eq_false, decide_false, Bool.not_true, Bool.or_self, Bool.false_eq_true, if_false]

/-- START of the parent loads the Howl with its value, the port's delay and the time since its arrival, and the device enters the job (R40, R408). -/
theorem exec_start_forming {epoch : BitVec 32} {v : Word} (msg : takeCtrl f 8 s = some (h, .start epoch v, t2, t))
    (forming : t.job.state = .forming) (parent : h.src = t.job.parent.toNat) (follower : t.isMaster = false) :
    exec (.start f) s = .next (enterJob epoch
      { t with howl := BitVec.ofNat 64 ((v + BitVec.ofInt 64 (t.port f).delay + (howl256 t - t2)).toNat / 256) }) := by
  change execStart f s = _
  simp only [execStart, msg, forming, parent, follower, ne_eq, not_true_eq_false, decide_false, Bool.or_self, Bool.false_eq_true, if_false]

end JobMessages

/-- Settles O33: the commands by the decision that `jobStart_awake` states, the messages by their own lemmas. -/
theorem jobsStartJoinAndLeave : Obligations.JobsStartJoinAndLeave := by
  refine fun s => ⟨fun answers => ⟨fun idle run => ?asleep, fun awake => ⟨fun busy => ?busy, fun free packs => ⟨fun outside => ?outside,
    fun inside ports => ?forms⟩⟩, ?leave⟩, exec_jobStartTimeout, ?hello, ?join, ?start⟩
  case asleep =>
    rw [exec_jobStart answers, jobStart_asleep idle run]; rfl
  case busy =>
    have held : (s.job.state = .forming || s.packsHeld) = true := by
      rcases busy with h | ⟨p, hp, h⟩
      · simp [h]
      · simp [State.packsHeld_of_prog hp h]
    rw [exec_jobStart answers, jobStart_awake awake, if_pos held]; rfl
  case outside =>
    rw [exec_jobStart answers, jobStart_free awake free packs, outside]; rfl
  case forms =>
    rw [exec_jobStart answers, jobStart_free awake free packs, inside, jobAdvance_formed ports]
    refine ⟨_, rfl, ?_⟩
    rw [s.formed_eq]
    exact ⟨rfl, rfl, rfl, rfl, rfl, rfl⟩
  case leave =>
    refine ⟨_, exec_jobLeave answers, ?_⟩
    have left : ∀ f < 18, tabGet Port.reset s.leavePorts.ports f = _ := fun f hf => (s.leavePorts_port hf).trans (Port.leaveJob_eq _)
    generalize s.leavePorts.ports = ports at left ⊢
    exact ⟨rfl, rfl, left⟩
  case hello =>
    intro f h m t2 t msg forming mine
    dsimp only
    rw [exec_hello_forming msg forming mine]
    refine ⟨fun other => ?_, fun part stepping elsewhere => ?_, fun part stepping src expect => ?_⟩
    · exact if_pos (by simpa using other)
    · exact (if_neg (by simp [part, stepping])).trans (if_pos (by simpa using elsewhere))
    · exact (if_neg (by simp [part, stepping])).trans (if_neg (by simp [src, expect]))
  case join => exact fun f h latest count t2 t msg forming child fresh => exec_join_forming msg forming child fresh
  case start => exact fun f h epoch v t2 t msg forming parent follower => exec_start_forming msg forming parent follower

end Sys2Proof.Machine
end

section
/-! SUPPORT. Adding to a Collar and what it wakes: counting and fault records leave the cores, a wake changes nothing but the waking event
(R88, R97, R98, R470-R472, R493). -/
namespace Sys2Proof.Machine

section CoresKept
variable (s : State)

/-- Counting leaves the cores (R493). -/
@[simp] theorem State.bumpRaw_cores (key n : Nat) : (s.bumpRaw key n).cores = s.cores := by
  unfold State.bumpRaw; dsimp only; split_ifs <;> rfl

/-- A vector's message leaves the cores (R516). -/
@[simp] theorem raiseMsix_cores (fn v : Nat) : (raiseMsix fn v s).cores = s.cores := by
  unfold raiseMsix; dsimp only; split_ifs <;> simp

/-- A notification leaves the cores (R533). -/
@[simp] theorem notify_cores (kind : Nat) (body : List Byte) : (notify kind body s).cores = s.cores := by
  unfold notify; split_ifs <;> simp

/-- Announcing an alert leaves the cores (R472). -/
@[simp] theorem announceAlert_cores : (announceAlert s).cores = s.cores := by simp [announceAlert]

/-- An alert leaves the cores (R472). -/
@[simp] theorem State.alert_cores (bit : Nat) : (s.alert bit).cores = s.cores := by
  unfold State.alert; split_ifs <;> simp

/-- Counting, with the alert of a first saturation, leaves the cores (R493). -/
@[simp] theorem State.bump_cores (idx sub n : Nat) : (s.bump idx sub n).cores = s.cores := by
  unfold State.bump State.bumpKey; dsimp only; split_ifs <;> simp

/-- A fault record leaves the cores (R470-R472). -/
@[simp] theorem writeFaultRecord_cores (code cls pack core stream : Nat) : (writeFaultRecord code cls pack core stream s).cores = s.cores := by
  simp [writeFaultRecord]

end CoresKept

/-- States with the same cores have the same core. -/
theorem State.core_congr {s t : State} (h : t.cores = s.cores) (c : Nat) : t.core c = s.core c := congrArg (tabGet Core.reset · c) h

/-- A Collar after an add: the sum, or the largest value with OVF (R97). -/
def Collar.add (col : Collar) (n : BitVec 32) : Collar :=
  if col.value.toNat + n.toNat < 2 ^ 32 then { col with value := col.value + n } else { col with value := 0xFFFFFFFF, ovf := true }

/-- An add that does not carry leaves the sum (R97). -/
theorem Collar.add_of_lt {col : Collar} {n : BitVec 32} (sum : col.value.toNat + n.toNat < 2 ^ 32) :
    col.add n = { col with value := BitVec.ofNat 32 (col.value.toNat + n.toNat) } := by
  rw [Collar.add, if_pos sum, BitVec.ofNat_add, BitVec.ofNat_toNat, BitVec.ofNat_toNat, BitVec.setWidth_eq, BitVec.setWidth_eq]

/-- An add is the new Collar, with the record of a first carry beside the cores, and the wakes of the Collar (R97, R98). -/
theorem collarAdd_eq (c k : Nat) (n : BitVec 32) (s : State) :
    ∃ u, u.cores = (s.modCore c (fun x => x.setCollar k (((s.core c).collar k).add n))).cores ∧ collarAdd c k n s = wakeCollar c k u := by
  unfold collarAdd
  dsimp only
  refine ⟨_, ?_, rfl⟩
  by_cases sum : ((s.core c).collar k).value.toNat + n.toNat < 2 ^ 32
  · rw [if_pos sum, Collar.add_of_lt sum]
  · rw [if_neg sum, Collar.add, if_neg sum]
    split_ifs <;> simp

/-- A stream after a change of one stream of its core. -/
theorem Core.modStream_stream (k : Core) (i : Nat) (f : Stream → Stream) (j : Nat) :
    (k.modStream i f).stream j = if j = i then f (k.stream j) else k.stream j := by
  split_ifs with same
  · subst same; exact Core.setStream_self _ _ _
  · exact Core.setStream_other _ _ _ same

/-- What a wake of one stream is: its waking event, if it waits for this (R88). -/
def wakeIf (c : Nat) (waits : Stream → Bool) (s : State) (i : Nat) : State :=
  if waits ((s.core c).stream i) then s.modCore c (fun x => x.modStream i Stream.noteWake) else s

/-- A stream parked on Collar `k` whose WAIT the Collar satisfies (R88, R98). -/
def Stream.waitMet (k : Nat) (col : Collar) (t : Stream) : Bool :=
  t.st = .parkedCollar && t.waitCollar = k && (decide (t.waitT.toNat ≤ col.value.toNat) || col.ovf)

/-- The wakes of a Collar, one stream after another. -/
theorem wakeCollar_eq (c k : Nat) (s : State) :
    wakeCollar c k s = (List.range 8).foldl (wakeIf c (Stream.waitMet k ((s.core c).collar k))) s := rfl

/-- One stream's wake, seen from any stream. -/
theorem wakeIf_stream (c : Nat) (waits : Stream → Bool) (s : State) (i j : Nat) : ((wakeIf c waits s i).core c).stream j =
    if j = i ∧ waits ((s.core c).stream j) = true then ((s.core c).stream j).noteWake else (s.core c).stream j := by
  by_cases waiting : waits ((s.core c).stream i) = true
  · rw [wakeIf, if_pos waiting, State.modCore_self, Core.modStream_stream]
    exact if_congr ⟨fun same => ⟨same, same ▸ waiting⟩, And.left⟩ rfl rfl
  · rw [wakeIf, if_neg waiting, if_neg (by rintro ⟨rfl, met⟩; exact waiting met)]

/-- Of the streams gone through, those that wait for it have their waking event (R88). -/
theorem wakes_stream (c : Nat) (waits : Stream → Bool) (l : List Nat) (s : State) (j : Nat) :
    ((l.foldl (wakeIf c waits) s).core c).stream j =
      if j ∈ l ∧ waits ((s.core c).stream j) = true then ((s.core c).stream j).noteWake else (s.core c).stream j := by
  induction l generalizing s with
  | nil => simp
  | cons i l ih =>
    rw [List.foldl_cons, ih, wakeIf_stream]
    by_cases now : j = i ∧ waits ((s.core c).stream j) = true
    · obtain ⟨rfl, met⟩ := now
      simp [met, Stream.noteWake]
    · simp only [now, List.mem_cons, or_and_right, false_or, if_false]

/-- A stream whose WAIT on a Collar is met has its waking event (R88, R98). -/
theorem wakeCollar_woken {c k i : Nat} {s : State} (inCore : i < 8) (met : ((s.core c).stream i).waitMet k ((s.core c).collar k) = true) :
    ((wakeCollar c k s).core c).stream i = ((s.core c).stream i).noteWake := by
  rw [wakeCollar_eq, wakes_stream, if_pos ⟨List.mem_range.mpr inCore, met⟩]

/-- The wakes of a Collar leave every Collar. -/
@[simp] theorem wakeCollar_collar (c k : Nat) (s : State) (j : Nat) : ((wakeCollar c k s).core c).collar j = (s.core c).collar j :=
  (wakeCollar_onlyWakes c k s).collar j

/-- The wakes of a Collar leave the other cores. -/
theorem wakeCollar_core_other {c d : Nat} (k : Nat) (s : State) (h : d ≠ c) : (wakeCollar c k s).core d = s.core d :=
  (wakeCollar_onlyWakes c k s).2.1 d h

section Add
variable {c k : Nat} {n : BitVec 32} {s : State}

/-- The Collar after an add (R97). -/
@[simp] theorem collarAdd_collar : ((collarAdd c k n s).core c).collar k = ((s.core c).collar k).add n := by
  obtain ⟨u, cores, add⟩ := collarAdd_eq c k n s
  rw [add, wakeCollar_collar, State.core_congr cores, State.modCore_self, Core.setCollar_self]

/-- An add leaves the core's other Collars. -/
theorem collarAdd_collar_other {j : Nat} (h : j ≠ k) : ((collarAdd c k n s).core c).collar j = (s.core c).collar j := by
  obtain ⟨u, cores, add⟩ := collarAdd_eq c k n s
  rw [add, wakeCollar_collar, State.core_congr cores, State.modCore_self, Core.setCollar_other _ _ _ h]

/-- An add leaves the other cores. -/
theorem collarAdd_core_other {d : Nat} (h : d ≠ c) : (collarAdd c k n s).core d = s.core d := by
  obtain ⟨u, cores, add⟩ := collarAdd_eq c k n s
  rw [add, wakeCollar_core_other _ _ h, State.core_congr cores, State.modCore_other _ _ _ h]

/-- Of its own core an add changes the Collar, and of the streams the waking events alone (R97). -/
theorem collarAdd_core (c k : Nat) (n : BitVec 32) (s : State) :
    ∃ l, (collarAdd c k n s).core c = { (s.core c).setCollar k (((s.core c).collar k).add n) with streams := l } := by
  obtain ⟨u, cores, add⟩ := collarAdd_eq c k n s
  obtain ⟨-, -, core, -⟩ := wakeCollar_onlyWakes c k u
  rw [add, core, State.core_congr cores, State.modCore_self]
  exact ⟨_, rfl⟩

/-- An add leaves all of a stream but its waking event. -/
theorem collarAdd_stream (c k : Nat) (n : BitVec 32) (s : State) (i : Nat) :
    ∃ w, ((collarAdd c k n s).core c).stream i = { (s.core c).stream i with woken := w } := by
  obtain ⟨u, cores, add⟩ := collarAdd_eq c k n s
  obtain ⟨-, -, -, streams⟩ := wakeCollar_onlyWakes c k u
  rw [add, streams i, State.core_congr cores, State.modCore_self]
  exact ⟨_, rfl⟩

/-- An add leaves the scratchpad. -/
@[simp] theorem collarAdd_spad : ((collarAdd c k n s).core c).spad = (s.core c).spad := by
  obtain ⟨l, core⟩ := collarAdd_core c k n s
  rw [core]; rfl

/-- An add leaves the Bowls. -/
@[simp] theorem collarAdd_bowls : ((collarAdd c k n s).core c).bowls = (s.core c).bowls := by
  obtain ⟨l, core⟩ := collarAdd_core c k n s
  rw [core]; rfl

/-- An add leaves what waits for earlier work. -/
@[simp] theorem collarAdd_deferred : ((collarAdd c k n s).core c).deferred = (s.core c).deferred := by
  obtain ⟨l, core⟩ := collarAdd_core c k n s
  rw [core]; rfl

/-- An add leaves every PC. -/
@[simp] theorem collarAdd_pc (i : Nat) : (((collarAdd c k n s).core c).stream i).pc = ((s.core c).stream i).pc := by
  obtain ⟨w, stream⟩ := collarAdd_stream c k n s i
  rw [stream]

/-- A stream whose WAIT the new value or OVF satisfies has its waking event (R88, R98). -/
theorem collarAdd_woken {i : Nat} (inCore : i < 8) (met : ((s.core c).stream i).waitMet k (((s.core c).collar k).add n) = true) :
    (((collarAdd c k n s).core c).stream i).woken = true := by
  obtain ⟨u, cores, add⟩ := collarAdd_eq c k n s
  have core : u.core c = (s.core c).setCollar k (((s.core c).collar k).add n) := (State.core_congr cores c).trans (s.modCore_self c _)
  rw [add, wakeCollar_woken inCore (by rw [core, Core.setCollar_self]; exact met), Stream.noteWake]

end Add

/-- Settles O13: the Collar is `Collar.add`'s, and the wakes follow the changed Collar. -/
theorem collarAddSaturates : Obligations.CollarAddSaturates := by
  refine fun c k n s => ⟨fun below => ?_, fun above => ?_, fun j => collarAdd_collar_other, fun d => collarAdd_core_other,
    fun i inCore parked onThis reached => collarAdd_woken inCore ?_⟩
  · rw [collarAdd_collar, Collar.add, if_pos below]
  · rw [collarAdd_collar, Collar.add, if_neg (Nat.not_lt.mpr above)]
  · rw [collarAdd_collar] at reached
    simpa [Stream.waitMet, parked, onThis] using reached

/-- INDEX of a CLAIM's reply (R107). -/
theorem claimReply_index {i : Nat} (claimGen gen : Nat) (h : i < 2 ^ 32) : bitsOf (claimReply i claimGen gen) 0 32 = i := by
  simp only [bitsOf, claimReply, fieldOf, at_, Nat.shiftLeft_eq, Nat.shiftRight_eq_div_pow, BitVec.toNat_ofNat]
  omega

/-- CLAIM_GEN of a CLAIM's reply (R107). -/
theorem claimReply_claimGen {i g : Nat} (gen : Nat) (h : i < 2 ^ 32) (hg : g < 2 ^ 8) : bitsOf (claimReply i g gen) 32 8 = g := by
  simp only [bitsOf, claimReply, fieldOf, at_, Nat.shiftLeft_eq, Nat.shiftRight_eq_div_pow, BitVec.toNat_ofNat]
  omega

/-- INDEX_LIMIT has 13 bits (R103). -/
theorem ledgerLimit_lt (d : Word) : ledgerLimit d < 2 ^ 13 := Nat.mod_lt _ (by decide)

/-- CLAIM_GEN has 8 bits (R105). -/
theorem ownerGen_lt (e : Nat) : ownerGen e < 2 ^ 8 := Nat.mod_lt _ (by decide)

/-- A store leaves the Collars. -/
@[simp] theorem Core.store_collar (k : Core) (a : Nat) (l : List Byte) (j : Nat) : (k.store_ a l).collar j = k.collar j := by
  unfold Core.store_; split_ifs <;> rfl

/-- The owner entry and the bitmap bit of an index given to a stream (R104, R105, R109). -/
def Core.own (d : Word) (i core stream : Nat) (e : Nat) (k : Core) : Core :=
  (k.setOwner d i (at_ 24 (ownerGen e) + at_ 13 (stream % 8) + core % 1024)).setLedgerBit d i true

/-- Giving an index leaves the Collars. -/
@[simp] theorem Core.own_collar (d : Word) (i core stream e : Nat) (k : Core) (j : Nat) : (k.own d i core stream e).collar j = k.collar j := by
  simp [Core.own, Core.setOwner, Core.setLedgerBit]

/-- The index that a CLAIM finds marked for re-issue, if any (R109). -/
def Core.marked (x : Core) (d : Word) : Option Nat := (List.range (ledgerLimit d)).find? (fun i => ownerReissue (x.ownerEntry d i))

section Claim
variable {c k : Nat} (core stream : Nat) {s : State}

/-- A CLAIM with an entry marked is given the first of them (R109). -/
theorem onClaim_marked {i : Nat} (marked : (s.core c).marked ((s.core c).collar k).ledger = some i) :
    onClaim c k core stream s =
      let col := (s.core c).collar k
      let e := (s.core c).ownerEntry col.ledger i
      (claimReply i (ownerGen e) col.gen.toNat, s.modCore c (Core.own col.ledger i core stream e)) := by
  rw [Core.marked] at marked
  simp only [onClaim, marked]
  rfl

/-- A CLAIM of a Collar at its limit is answered EMPTY and changes nothing (R109). -/
theorem onClaim_empty (unmarked : (s.core c).marked ((s.core c).collar k).ledger = none)
    (limit : ledgerLimit ((s.core c).collar k).ledger ≤ ((s.core c).collar k).value.toNat) :
    onClaim c k core stream s = (claimReply 0xFFFFFFFF 0 ((s.core c).collar k).gen.toNat, s) := by
  rw [Core.marked] at unmarked
  simp only [onClaim, unmarked, limit, if_true]

/-- A CLAIM below the limit is given the Collar's value, and the Collar advances (R109). -/
theorem onClaim_next (unmarked : (s.core c).marked ((s.core c).collar k).ledger = none)
    (below : ((s.core c).collar k).value.toNat < ledgerLimit ((s.core c).collar k).ledger) :
    onClaim c k core stream s =
      let col := (s.core c).collar k
      let t := wakeCollar c k (s.modCore c (fun y => y.setCollar k { col with value := col.value + 1 }))
      let e := (t.core c).ownerEntry col.ledger col.value.toNat
      (claimReply col.value.toNat (ownerGen e) col.gen.toNat, t.modCore c (Core.own col.ledger col.value.toNat core stream e)) := by
  rw [Core.marked] at unmarked
  simp only [onClaim, unmarked, Nat.not_le.mpr below, if_false]
  rfl

end Claim

/-- Settles O14: a case for each of the answers of `onClaim`. -/
theorem ledgerHandsOutEachIndexOnce : Obligations.LedgerHandsOutEachIndexOnce := by
  refine fun c k core stream s => ⟨fun unmarked limit => ?empty, fun unmarked below => ?next, fun i marked => ?marked⟩
  case empty =>
    rw [onClaim_empty core stream unmarked limit]
    exact ⟨claimReply_index _ _ (by decide), rfl⟩
  case next =>
    rw [onClaim_next core stream unmarked below]
    refine ⟨claimReply_index _ _ (BitVec.isLt _), ?_, fun e other => ?_⟩
    · simp
    · simp [State.modCore_other, wakeCollar_core_other, other]
  case marked =>
    have limit : i < 2 ^ 32 :=
      calc i < ledgerLimit _ := List.mem_range.mp (List.mem_of_find?_eq_some marked)
        _ < 2 ^ 13 := ledgerLimit_lt _
        _ < 2 ^ 32 := by decide
    rw [onClaim_marked core stream marked]
    refine ⟨claimReply_index _ _ limit, claimReply_claimGen _ limit (ownerGen_lt _), ?_, fun e other => s.modCore_other c _ other⟩
    simp

end Sys2Proof.Machine
end

section
/-! SUPPORT. What an instruction that issues starts from, and what changes of its own core keep of the frame (R192-R195, R201). -/
namespace Sys2Proof.Machine

/-- A change of the core keeps the frame. -/
theorem CoreFrame.modCore {c : Nat} {s t : State} (h : CoreFrame c s t) (f : Core → Core) : CoreFrame c s (t.modCore c f) := by
  obtain ⟨rest, others, packs⟩ := h
  refine ⟨?_, fun d hd => (t.modCore_other c f hd).trans (others d hd), packs⟩
  simp only [State.modCore, State.setCore]
  rw [rest]

/-- Wakes in the core keep the frame. -/
theorem CoreFrame.wakes {c : Nat} {s t u : State} (h : CoreFrame c s t) (w : OnlyWakes c t u) : CoreFrame c s u := by
  obtain ⟨rest, others, packs⟩ := h
  obtain ⟨wakes, elsewhere, -, -⟩ := w
  have samePacks : u.packs = t.packs := by rw [wakes]
  refine ⟨by rw [wakes, rest], fun d hd => (elsewhere d hd).trans (others d hd), fun p => ?_⟩
  have same : u.pack p = t.pack p := congrArg (tabGet Pack.reset · p) samePacks
  rw [same]
  exact packs p

/-- An add that does not carry keeps the frame (R97). -/
theorem CoreFrame.collarAdd {c k : Nat} {n : BitVec 32} {s t : State} (h : CoreFrame c s t)
    (sum : ((t.core c).collar k).value.toNat + n.toNat < 2 ^ 32) : CoreFrame c s (collarAdd c k n t) := by
  obtain ⟨u, rfl, wakes⟩ := collarAdd_of_lt sum
  exact (h.modCore _).wakes wakes

section Noted
variable {c i : Nat} {s t : State}

/-- After the issue only the streams, the progress notes and the turn of the core differ. -/
theorem IssueNoted.core (h : IssueNoted c i s t) : ∃ l f, t.core c = { s.core c with streams := l, flitsSince := f, turn := i } :=
  ⟨_, _, h.2.1⟩

theorem IssueNoted.frame (h : IssueNoted c i s t) : CoreFrame c s t := h.1

theorem IssueNoted.stream (h : IssueNoted c i s t) : (t.core c).stream i = ((s.core c).stream i).issuedOnce s.clock := h.2.2.1

theorem IssueNoted.clock (h : IssueNoted c i s t) : t.clock = s.clock := by rw [h.1.1]

theorem IssueNoted.collar (h : IssueNoted c i s t) (k : Nat) : (t.core c).collar k = (s.core c).collar k := by
  obtain ⟨l, f, core⟩ := h.core
  rw [core]; rfl

theorem IssueNoted.bowl (h : IssueNoted c i s t) (b : Nat) : (t.core c).bowl b = (s.core c).bowl b := by
  obtain ⟨l, f, core⟩ := h.core
  rw [core]; rfl

theorem IssueNoted.bowls (h : IssueNoted c i s t) : (t.core c).bowls = (s.core c).bowls := by
  obtain ⟨l, f, core⟩ := h.core
  rw [core]

theorem IssueNoted.spad (h : IssueNoted c i s t) : (t.core c).spad = (s.core c).spad := by
  obtain ⟨l, f, core⟩ := h.core
  rw [core]

theorem IssueNoted.spadErr (h : IssueNoted c i s t) : (t.core c).spadErr = (s.core c).spadErr := by
  obtain ⟨l, f, core⟩ := h.core
  rw [core]

end Noted

/-- An instruction that issues runs its own effect on the state in which its issue is noted. -/
theorem exec_of_issues {op c i : Nat} {s : State} {x : Issued} {I : Instr} {run : Issued → State → State} (issues : Issues op c i s x)
    (meaning : exec I s = .next (issueOp op c i run s)) : ∃ t, IssueNoted c i s t ∧ exec I s = .next (run x t) := by
  obtain ⟨t, ran, noted⟩ := issueOp_becomes run issues
  exact ⟨t, noted, meaning.trans (congrArg _ ran)⟩

end Sys2Proof.Machine
end

section
/-! SUPPORT. The engine instructions (R78, R79, R163, R202, R204-R216). -/
namespace Sys2Proof.Machine

section Engine
variable {c i : Nat} {s t : State} {x : Issued}

/-- The operation an engine instruction becomes is read off the core's drain configurations and sequence number, which noting the issue
leaves. -/
theorem newOp_noted (e : Engine) (noted : IssueNoted c i s t) (own : x.c = c) : newOp e x t = newOp e x s := by
  subst own
  obtain ⟨l, f, core⟩ := noted.core
  have step : (t.pack (packOf x.c)).step = (s.pack (packOf x.c)).step := by rw [noted.frame.2.2]
  unfold newOp
  rw [core, step]
  rfl

/-- An engine instruction after its issue: one more operation in flight, and the accumulators' classes as they were (R78, R79). -/
theorem enqueueOp_joins (e : Engine) (noted : IssueNoted c i s t) (own : x.c = c) :
    OpJoins c i s (enqueueOp e x t) (newOp e x s) ∧ ((enqueueOp e x t).core c).accClass = (s.core c).accClass := by
  have queued : enqueueOp e x t = t.modCore c (fun k => { k with seq := k.seq + 1, ops := k.ops ++ [newOp e x s] }) := by
    rw [← newOp_noted e noted own]
    subst own; rfl
  obtain ⟨l, f, core⟩ := noted.core
  rw [queued]
  refine ⟨⟨noted.frame.modCore _, ?_, ?_, fun j other => ?_⟩, ?_⟩
  · rw [State.modCore_self, core]
  · rw [State.modCore_self]; exact noted.stream
  · rw [State.modCore_self]; exact noted.2.2.2 j other
  · rw [State.modCore_self, core]

/-- A change of the accumulators' classes is one that `OpJoins` allows. -/
theorem OpJoins.modAccClass {o : EngOp} (h : OpJoins c i s t o) (f : Tab AccClass → Tab AccClass) :
    OpJoins c i s (t.modCore c (fun k => { k with accClass := f k.accClass })) o := by
  obtain ⟨frame, core, own, others⟩ := h
  refine ⟨frame.modCore _, ?_, ?_, fun j other => ?_⟩
  · rw [State.modCore_self]
    have same := congrArg (fun k : Core => { k with accClass := f (t.core c).accClass }) core
    exact same
  · rw [State.modCore_self]; exact own
  · rw [State.modCore_self]; exact others j other

/-- An engine instruction that only enters its queue. -/
theorem exec_engine {op : Nat} {e : Engine} {I : Instr} (meaning : exec I s = .next (issueOp op c i (enqueueOp e) s)) (issues : Issues op c i s x) :
    ∃ t, exec I s = .next t ∧ OpJoins c i s t (newOp e x s) ∧ (t.core c).accClass = (s.core c).accClass := by
  obtain ⟨t, noted, ran⟩ := exec_of_issues issues meaning
  exact ⟨_, ran, enqueueOp_joins e noted issues.place.1⟩

end Engine

/-- A table after a write, at any key. -/
theorem tabGet_tabSet {α : Type} [DecidableEq α] (d : α) (t : Tab α) (k : Nat) (v : α) (j : Nat) :
    tabGet d (tabSet d t k v) j = if j = k then v else tabGet d t j := by
  split_ifs with same
  · rw [same, tabGet_tabSet_self]
  · exact tabGet_tabSet_other _ _ _ same

/-- The accumulators that an MMA with ZERO writes: one, or two in turn (R158, R208). -/
def zeroedAccs (w : Insn) (cls : AccClass) (l : Tab AccClass) : Tab AccClass :=
  let l := tabSet .fp32 l (ifld w 44 43) cls
  if ifld w 42 30 = 1 then l else tabSet .fp32 l (ifld w 44 43 + 1) cls

/-- The class of an accumulator after an MMA with ZERO (R154, R208). -/
theorem zeroedAccs_get (w : Insn) (cls : AccClass) (l : Tab AccClass) (a : Nat) : tabGet .fp32 (zeroedAccs w cls l) a =
    if a = ifld w 44 43 ∨ (ifld w 42 30 ≠ 1 ∧ a = ifld w 44 43 + 1) then cls else tabGet .fp32 l a := by
  unfold zeroedAccs
  by_cases one : ifld w 42 30 = 1
  · simp [one, tabGet_tabSet]
  · simp only [one, tabGet_tabSet, if_false, ne_eq, not_false_eq_true, true_and]
    by_cases own : a = ifld w 44 43 <;> simp [own]

/-- MMA enters the matrix queue, and with ZERO it sets the class of its accumulators (R154, R208). -/
theorem exec_mma {c : CoreId} {i : StreamId} {s : State} {x : Issued} (issues : Issues 0x20 c i s x) :
    ∃ t, exec (.mma c i) s = .next t ∧ OpJoins c i s t (newOp .matrix x s) ∧ (t.core c).accClass =
      if bitAt x.w 45 then zeroedAccs x.w (if pairInt x.w then .int32 else .fp32) (s.core c).accClass else (s.core c).accClass := by
  obtain ⟨t, noted, ran⟩ := exec_of_issues issues (I := .mma c i) rfl
  obtain ⟨joins, cls⟩ := enqueueOp_joins .matrix noted issues.place.1
  refine ⟨_, ran, ?_⟩
  dsimp only
  cases zero : bitAt x.w 45 with
  | false => exact ⟨joins, cls⟩
  | true =>
    rw [if_pos rfl, if_pos rfl, ← cls, issues.place.1]
    exact ⟨joins.modAccClass (zeroedAccs x.w _), congrArg Core.accClass (State.modCore_self _ _ _)⟩

/-- Settles O3: every engine instruction but MMA only enters its queue. -/
theorem engineInstructionsEnterTheirQueue : Obligations.EngineInstructionsEnterTheirQueue := by
  refine fun c i s x => ⟨?vector, ?fetch, exec_engine rfl, fun issues => ?mma⟩
  case vector => exact fun y listed => by fin_cases listed <;> exact exec_engine rfl
  case fetch => exact fun y listed => by fin_cases listed <;> exact exec_engine rfl
  case mma =>
    obtain ⟨t, ran, joins, cls⟩ := exec_mma issues
    refine ⟨t, ran, joins, fun a => ?_⟩
    rw [cls]
    cases bitAt x.w 45 with
    | false => simp
    | true => simp [zeroedAccs_get]

end Sys2Proof.Machine
end

section
/-! SUPPORT. The local Collar instructions, TAKE and STEPDONE (R82, R86, R88, R97, R107-R109, R220-R226, R308). -/
namespace Sys2Proof.Machine

/-- Two changes of a core that agree on it are one. -/
theorem State.modCore_congr {c : Nat} (s : State) {f g : Core → Core} (h : f (s.core c) = g (s.core c)) : s.modCore c f = s.modCore c g := by
  rw [State.modCore, h, State.modCore]

section Local
variable {c : CoreId} {i : StreamId} {s t : State} {x : Issued}

/-- With nothing of the core in flight, a local POST takes effect at once (R82, R97). -/
theorem deferOp_post_idle {k : Nat} {n : BitVec 32} (deferred : (t.core x.c).deferred = []) (ops : (t.core x.c).ops = [])
    (mesh : (t.core x.c).mesh = []) :
    deferOp x true k (.post n) none t = collarAdd x.c k n (t.modCore x.c (fun y => { y with seq := y.seq + 1, deferred := [] })) := by
  simp only [deferOp, runDeferred, State.modCore_self, ops, mesh, deferred, List.nil_append, List.length_cons, List.length_nil, zero_add,
    runDeferredAux, Core.earlierDone, List.all_nil, Bool.and_self, List.find?_cons_of_pos, applyDeferred, ↓reduceIte, State.modCore_modCore,
    List.filter_append]
  exact congrArg _ (State.modCore_congr _ (by simp [deferred]))

/-- A local POST waits for the stream's earlier work (R82, R221). -/
theorem exec_post_local (issues : Issues 0x50 c i s x) (loc : bitAt x.w 12 = false) :
    ∃ t, IssueNoted c i s t ∧ exec (.post c i) s = .next (deferOp x true (ifld x.w 11 8) (.post (collarN x)) none t) := by
  obtain ⟨t, noted, ran⟩ := exec_of_issues issues (I := .post c i) rfl
  exact ⟨t, noted, ran.trans (congrArg _ (if_neg (by simp [loc])))⟩

/-- A local FADD adds, and its register takes the old value (R97, R222). -/
theorem exec_fadd_local (issues : Issues 0x52 c i s x) (loc : bitAt x.w 12 = false) :
    ∃ t, IssueNoted c i s t ∧ exec (.fadd c i) s = .next (writeReg c i (ifld x.w 28 25) (((s.core c).collar (ifld x.w 11 8)).value.setWidth 64)
      (collarAdd c (ifld x.w 11 8) (collarN x) t)) := by
  obtain ⟨t, noted, ran⟩ := exec_of_issues issues (I := .fadd c i) rfl
  obtain ⟨core, stream, -⟩ := issues.place
  refine ⟨t, noted, ran.trans (congrArg _ ((if_neg (by simp [loc])).trans ?_))⟩
  dsimp only
  rw [core, stream, noted.collar]

/-- RESET clears value and OVF of the Collar (R97). -/
theorem exec_reset (issues : Issues 0x53 c i s x) : ∃ t, IssueNoted c i s t ∧
    exec (.reset c i) s = .next (t.modCore c (fun k => k.setCollar (ifld x.w 11 8) ((s.core c).collar (ifld x.w 11 8)).clear)) := by
  obtain ⟨t, noted, ran⟩ := exec_of_issues issues (I := .reset c i) rfl
  refine ⟨t, noted, ran.trans ?_⟩
  rw [issues.place.1, ← noted.collar]
  rfl

/-- WAIT goes on if the Collar lets it, and otherwise parks the stream (R88, R89, R97). -/
theorem exec_wait (issues : Issues 0x51 c i s x) : ∃ t, IssueNoted c i s t ∧
    exec (.wait c i) s = .next (
      let k := ifld x.w 11 8
      if (collarN x).toNat ≤ ((s.core c).collar k).value.toNat ∨ ((s.core c).collar k).ovf = true then t
      else t.modCore c (fun y => y.modStream i (fun u => { u with st := .parkedCollar, waitCollar := k, waitT := collarN x, woken := false }))) := by
  obtain ⟨t, noted, ran⟩ := exec_of_issues issues (I := .wait c i) rfl
  obtain ⟨core, stream, -⟩ := issues.place
  refine ⟨t, noted, ran.trans ?_⟩
  dsimp only
  rw [core, stream, noted.collar]
  simp only [Bool.or_eq_true, decide_eq_true_eq]

end Local

/-- Of the Collars, the scratchpad and the Bowls only Collar `k` of core `c` may differ, which is `col` afterwards. -/
def CollarBecomes (c k : Nat) (s t : State) (col : Collar) : Prop :=
  CoreFrame c s t ∧ (t.core c).collar k = col ∧ (∀ j, j ≠ k → (t.core c).collar j = (s.core c).collar j) ∧
  (t.core c).spad = (s.core c).spad ∧ (t.core c).bowls = (s.core c).bowls

/-- A register written reads back (R191). -/
theorem writeReg_reg (c i r : Nat) (v : Word) (s : State) : (((writeReg c i r v s).core c).stream i).reg r = v := by
  simp [writeReg, Core.modStream, Stream.setReg, Stream.reg]

/-- A register write leaves the PC. -/
theorem writeReg_pc (c i r : Nat) (v : Word) (s : State) : (((writeReg c i r v s).core c).stream i).pc = ((s.core c).stream i).pc := by
  simp [writeReg, Core.modStream, Stream.setReg]

section Effect
variable {c k : Nat} {s t : State} {col : Collar}

/-- Noting an issue changes no Collar. -/
theorem IssueNoted.collarBecomes {i : Nat} (h : IssueNoted c i s t) (k : Nat) : CollarBecomes c k s t ((s.core c).collar k) :=
  ⟨h.frame, h.collar k, fun j _ => h.collar j, h.spad, h.bowls⟩

/-- A change of the core that leaves its Collars, scratchpad and Bowls. -/
theorem CollarBecomes.modCore (h : CollarBecomes c k s t col) {f : Core → Core} (collars : (f (t.core c)).collars = (t.core c).collars)
    (spad : (f (t.core c)).spad = (t.core c).spad) (bowls : (f (t.core c)).bowls = (t.core c).bowls) :
    CollarBecomes c k s (t.modCore c f) col := by
  obtain ⟨frame, own, others, sameSpad, sameBowls⟩ := h
  have collar (j : Nat) : ((t.modCore c f).core c).collar j = (t.core c).collar j := by
    rw [State.modCore_self, Core.collar, collars, Core.collar]
  refine ⟨frame.modCore f, (collar k).trans own, fun j other => (collar j).trans (others j other), ?_, ?_⟩ <;> rw [State.modCore_self]
  · exact spad.trans sameSpad
  · exact bowls.trans sameBowls

/-- A register written (R195). -/
theorem CollarBecomes.writeReg (h : CollarBecomes c k s t col) (i r : Nat) (v : Word) : CollarBecomes c k s (writeReg c i r v t) col := by
  unfold Machine.writeReg
  exact h.modCore rfl rfl rfl

/-- A Collar written. -/
theorem CollarBecomes.setCollar (h : CollarBecomes c k s t col) (new : Collar) :
    CollarBecomes c k s (t.modCore c (fun y => y.setCollar k new)) new := by
  obtain ⟨frame, -, others, spad, bowls⟩ := h
  refine ⟨frame.modCore _, ?_, fun j other => ?_, ?_, ?_⟩ <;> rw [State.modCore_self]
  · exact Core.setCollar_self _ _ _
  · exact (Core.setCollar_other _ _ _ other).trans (others j other)
  · exact spad
  · exact bowls

/-- An add that does not carry (R97). -/
theorem CollarBecomes.add (h : CollarBecomes c k s t col) {n : BitVec 32} (sum : col.value.toNat + n.toNat < 2 ^ 32) :
    CollarBecomes c k s (collarAdd c k n t) { col with value := BitVec.ofNat 32 (col.value.toNat + n.toNat) } := by
  obtain ⟨frame, rfl, others, spad, bowls⟩ := h
  exact ⟨frame.collarAdd sum, collarAdd_collar.trans (Collar.add_of_lt sum), fun j other => (collarAdd_collar_other other).trans (others j other),
    collarAdd_spad.trans spad, collarAdd_bowls.trans bowls⟩

end Effect

section Settle
variable {c : CoreId} {i : StreamId} {s : State} {x : Issued}

/-- A local POST of an idle core adds at once (R82, R97, R221). -/
theorem exec_post_adds (issues : Issues 0x50 c i s x) (loc : bitAt x.w 12 = false) (deferred : (s.core c).deferred = [])
    (ops : (s.core c).ops = []) (mesh : (s.core c).mesh = [])
    (sum : ((s.core c).collar (ifld x.w 11 8)).value.toNat + (collarN x).toNat < 2 ^ 32) :
    ∃ t, exec (.post c i) s = .next t ∧ CollarBecomes c (ifld x.w 11 8) s t { (s.core c).collar (ifld x.w 11 8) with
        value := BitVec.ofNat 32 (((s.core c).collar (ifld x.w 11 8)).value.toNat + (collarN x).toNat) } ∧
      ((t.core c).stream i).pc = (((s.core c).stream i).issuedOnce s.clock).pc ∧ (t.core c).deferred = [] := by
  obtain ⟨t, noted, ran⟩ := exec_post_local issues loc
  obtain ⟨l, f, core⟩ := noted.core
  rw [deferOp_post_idle (by rw [issues.place.1, core]; exact deferred) (by rw [issues.place.1, core]; exact ops)
    (by rw [issues.place.1, core]; exact mesh), issues.place.1] at ran
  refine ⟨_, ran, ((noted.collarBecomes _).modCore rfl rfl rfl).add sum, ?_, ?_⟩
  · rw [collarAdd_pc, State.modCore_self, ← noted.stream]; rfl
  · rw [collarAdd_deferred, State.modCore_self]

/-- A local FADD adds, and its register takes the old value (R97, R222). -/
theorem exec_fadd_adds (issues : Issues 0x52 c i s x) (loc : bitAt x.w 12 = false)
    (sum : ((s.core c).collar (ifld x.w 11 8)).value.toNat + (collarN x).toNat < 2 ^ 32) :
    ∃ t, exec (.fadd c i) s = .next t ∧ CollarBecomes c (ifld x.w 11 8) s t { (s.core c).collar (ifld x.w 11 8) with
        value := BitVec.ofNat 32 (((s.core c).collar (ifld x.w 11 8)).value.toNat + (collarN x).toNat) } ∧
      ((t.core c).stream i).pc = (((s.core c).stream i).issuedOnce s.clock).pc ∧
      ((t.core c).stream i).reg (ifld x.w 28 25) = ((s.core c).collar (ifld x.w 11 8)).value.setWidth 64 := by
  obtain ⟨t, noted, ran⟩ := exec_fadd_local issues loc
  exact ⟨_, ran, ((noted.collarBecomes _).add sum).writeReg _ _ _,
    (writeReg_pc _ _ _ _ _).trans ((collarAdd_pc _).trans (congrArg Stream.pc noted.stream)), writeReg_reg _ _ _ _ _⟩

end Settle

/-- Settles O4: POST, FADD and RESET by what becomes of their Collar, WAIT on the state in which the issue is noted. -/
theorem localCollarInstructions : Obligations.LocalCollarInstructions := by
  refine fun c i s x => ⟨fun issues loc deferred ops mesh sum => ?post, fun issues loc sum => ?fadd, fun issues => ?reset, fun issues => ?wait⟩
  case post =>
    obtain ⟨t, ran, ⟨frame, own, others, spad, bowls⟩, pc, none⟩ := exec_post_adds issues loc deferred ops mesh sum
    exact ⟨t, ran, frame, own, others, pc, none, spad, bowls⟩
  case fadd =>
    obtain ⟨t, ran, ⟨frame, own, others, spad, bowls⟩, pc, old⟩ := exec_fadd_adds issues loc sum
    exact ⟨t, ran, frame, own, others, pc, old, spad, bowls⟩
  case reset =>
    obtain ⟨t, noted, ran⟩ := exec_reset issues
    obtain ⟨frame, own, others, spad, bowls⟩ := (noted.collarBecomes _).setCollar ((s.core c).collar (ifld x.w 11 8)).clear
    exact ⟨_, ran, frame, own, others, (congrArg (Core.stream · i) (State.modCore_self _ _ _)).trans noted.stream, spad, bowls⟩
  case wait =>
    obtain ⟨t, noted, ran⟩ := exec_wait issues
    refine ⟨_, ran, ?_⟩
    dsimp only
    split_ifs
    · exact noted
    · exact noted.modStream _

end Sys2Proof.Machine
end

section
/-! SUPPORT. CLAIM, COMPLETE, TAKE and STEPDONE of a core's own Collars and Bowls (R86, R88, R107-R109, R225, R226, R308). -/
namespace Sys2Proof.Machine

section CollarForms
variable {c : CoreId} {i : StreamId} {s : State} {x : Issued}

/-- A local CLAIM parks, and the own Shepherd answers it (R107, R109, R222). -/
theorem exec_claim_local (issues : Issues 0x54 c i s x) (loc : bitAt x.w 12 = false) : ∃ t, IssueNoted c i s t ∧
    exec (.claim c i) s = .next (
      let xd := ifld x.w 28 25
      let r := onClaim c (ifld x.w 11 8) c i (parkOnClaim x xd (setPending x xd t))
      claimAnswered c i xd r.1 r.2) := by
  obtain ⟨t, noted, ran⟩ := exec_of_issues issues (I := .claim c i) rfl
  obtain ⟨core, stream, -⟩ := issues.place
  refine ⟨t, noted, ran.trans (congrArg _ ((if_neg (by simp [loc])).trans ?_))⟩
  dsimp only
  rw [core, stream]

/-- A local COMPLETE waits for the stream's earlier work, with the Collar's generation at its issue (R82, R100, R223). -/
theorem exec_complete_local (issues : Issues 0x55 c i s x) (loc : bitAt x.w 12 = false) : ∃ t, IssueNoted c i s t ∧
    exec (.complete c i) s = .next (
      let k := ifld x.w 11 8
      deferOp x true k (.complete (BitVec.ofNat 32 (bitsOf x.ra 0 32)) (BitVec.ofNat 8 (bitsOf x.ra 32 8)) ((s.core c).collar k).gen) none t) := by
  obtain ⟨t, noted, ran⟩ := exec_of_issues issues (I := .complete c i) rfl
  refine ⟨t, noted, ran.trans (congrArg _ ((if_neg (by simp [loc])).trans ?_))⟩
  dsimp only
  rw [issues.place.1, noted.collar]

/-- STEPDONE sends the null claims of the step, records its gate and parks on launch (R108, R225, R226). -/
theorem exec_stepdone (issues : Issues 0x60 c i s x) : ∃ t, IssueNoted c i s t ∧
    exec (.stepdone c i) s = .next ((nullClaims x t).modCore c (fun k =>
      k.modStream i (fun y => { y with gate := gateOf x, st := .parkedLaunch, woken := false, claimsUsed := [] }))) := by
  obtain ⟨t, noted, ran⟩ := exec_of_issues issues (I := .stepdone c i) rfl
  obtain ⟨core, stream, -⟩ := issues.place
  refine ⟨t, noted, ran.trans ?_⟩
  dsimp only
  rw [core, stream]

end CollarForms

section Take

/-- A read of a scratchpad without errors gives the bytes and changes nothing (R246). -/
theorem readPort_clean {c : Nat} {s : State} (port a n : Nat) (clean : (s.core c).spadErr = []) :
    readPort c port a n s = (some (memRead (s.core c).spad a n), s) := by
  simp [readPort, readWords, Core.errWords, clean]

/-- What a TAKE finds in a scratchpad without errors depends on the scratchpad alone, and changes nothing (R308). -/
theorem takeFind_clean {c : Nat} {s t : State} (b : Bowl) (clean : (s.core c).spadErr = []) (clean' : (t.core c).spadErr = [])
    (spad : (t.core c).spad = (s.core c).spad) (fuel : Nat) (p : BitVec 15) : takeFind c b fuel p t = ((takeFind c b fuel p s).1, t) := by
  induction fuel generalizing p with
  | zero => rfl
  | succ fuel ih =>
    simp only [takeFind, readPort_clean _ _ _ clean, readPort_clean _ _ _ clean', spad, ih]
    split_ifs <;> rfl

/-- A TAKE on an empty Bowl finds nothing. -/
theorem takeFind_empty {c : Nat} {b : Bowl} (s : State) (fuel : Nat) (empty : b.rp = b.wp) : takeFind c b (fuel + 1) b.rp s = (.empty, s) := by
  rw [takeFind, if_pos empty]

/-- A stream with words written to consecutive registers (R219). -/
def Stream.setRegs (t : Stream) (r : Nat) : List Word → Stream
  | [] => t
  | w :: l => (t.setReg r w).setRegs (r + 1) l

/-- The writes of a TAKE, register by register. -/
theorem Stream.setRegs_eq_foldl (t : Stream) (r : Nat) (l : List Word) :
    (l.mapIdx (fun i w => (i, w))).foldl (fun (t : Stream) e => t.setReg (r + e.1) e.2) t = t.setRegs r l := by
  induction l generalizing t r with
  | nil => rfl
  | cons w l ih =>
    have shifted : l.mapIdx (fun i w => (i + 1, w)) = (l.mapIdx (fun i w => (i, w))).map (fun e => (e.1 + 1, e.2)) := by
      exact List.ext_getElem? fun j => by simp [Option.map_map, Function.comp_def]
    rw [List.mapIdx_cons, List.foldl_cons, shifted, List.foldl_map, Stream.setRegs, ← ih]
    simp only [Nat.add_zero, Nat.add_right_comm, Nat.add_assoc]

/-- Registers written leave the PC. -/
@[simp] theorem Stream.setRegs_pc (t : Stream) (r : Nat) (l : List Word) : (t.setRegs r l).pc = t.pc := by
  induction l generalizing t r with
  | nil => rfl
  | cons w l ih => rw [Stream.setRegs, ih]; rfl

/-- A register below those written is left. -/
theorem Stream.setRegs_below (t : Stream) {r j : Nat} {l : List Word} (below : j < r) (fit : r + l.length ≤ 16) :
    (t.setRegs r l).reg j = t.reg j := by
  induction l generalizing t r with
  | nil => rfl
  | cons w l ih =>
    rw [List.length_cons] at fit
    rw [Stream.setRegs, ih _ (by omega) (by omega), Stream.reg, Stream.setReg, tabGet_tabSet_other _ _ _ (by omega), Stream.reg]

/-- The words written stand in consecutive registers (R219). -/
theorem Stream.setRegs_reg (t : Stream) {r j : Nat} {l : List Word} (listed : j < l.length) (fit : r + l.length ≤ 16) :
    (t.setRegs r l).reg (r + j) = nth 0 l j := by
  induction l generalizing t r j with
  | nil => simp at listed
  | cons w l ih =>
    rw [List.length_cons] at fit listed
    cases j with
    | zero =>
      rw [Stream.setRegs, Nat.add_zero r, Stream.setRegs_below _ (Nat.lt_add_one r) (by omega), nth, Stream.reg, Stream.setReg, tabGet_tabSet_self]
    | succ j => rw [Stream.setRegs, nth, ← ih (t.setReg r w) (r := r + 1) (by omega) (by omega), Nat.add_right_comm, Nat.add_assoc]

/-- Bytes of whole words fall into as many chunks. -/
theorem chunksAux_length {n fuel : Nat} {l : List Byte} (whole : l.length = 8 * n) (enough : n ≤ fuel) : (chunksAux 8 fuel l).length = n := by
  induction n generalizing l fuel with
  | zero =>
    obtain rfl := List.length_eq_zero_iff.mp whole
    cases fuel <;> rfl
  | succ n ih =>
    obtain ⟨fuel, rfl⟩ := Nat.exists_eq_add_of_le' enough
    cases l with
    | nil => simp at whole
    | cons b l =>
      rw [← Nat.add_assoc, chunksAux, List.length_cons, ih (by rw [List.length_drop, whole]; omega) (by omega)]
      exact List.cons_ne_nil b l

/-- The words of `8 * n` bytes of a memory. -/
theorem bytesWords_memRead_length (m : Tab Byte) (a n : Nat) : (bytesWords (memRead m a (8 * n))).length = n := by
  have bytes : (memRead m a (8 * n)).length = 8 * n := by simp [memRead]
  rw [bytesWords, List.length_map, chunks, chunksAux_length bytes (by omega)]

/-- A Bowl written leaves the streams. -/
@[simp] theorem Core.setBowl_stream (k : Core) (b : Nat) (v : Bowl) (i : Nat) : (k.setBowl b v).stream i = k.stream i := rfl

variable {c : CoreId} {i : StreamId} {s : State} {x : Issued}

/-- A TAKE on an empty Bowl parks the stream with PC at the TAKE (R88, R308). -/
theorem exec_take_empty (issues : Issues 0x42 c i s x)
    (empty : ((s.core c).bowl (ifld x.w 13 8)).rp = ((s.core c).bowl (ifld x.w 13 8)).wp) :
    ∃ t, IssueNoted c i s t ∧ exec (.take c i) s = .next (parkOnBowl x (ifld x.w 13 8) t) := by
  obtain ⟨t, noted, ran⟩ := exec_of_issues issues (I := .take c i) rfl
  refine ⟨t, noted, ran.trans ?_⟩
  dsimp only
  rw [issues.place.1, noted.bowl, takeFind_empty t _ empty]

/-- A TAKE that finds a tuple that fits, in a scratchpad without errors, takes its words (R86, R219, R308). -/
theorem exec_take_tuple {p : BitVec 15} {n : Nat} (issues : Issues 0x42 c i s x) (clean : (s.core c).spadErr = [])
    (found : (let b := (s.core c).bowl (ifld x.w 13 8); takeFind c b (bDepth b + 1) b.rp s).1 = .head p n) (fit : ifld x.w 17 14 + n ≤ 16) :
    ∃ t, IssueNoted c i s t ∧ exec (.take c i) s = .next (
      let b := (s.core c).bowl (ifld x.w 13 8)
      let l := bytesWords (memRead (s.core c).spad (entryAddr b (p.toNat % bDepth b)) (8 * n))
      t.modCore c (fun k => (k.setStream i ((k.stream i).setRegs (ifld x.w 17 14) l)).setBowl (ifld x.w 13 8)
        (b.takeTo (p + BitVec.ofNat 15 ((n + 3) / 4)) t.clock))) := by
  obtain ⟨t, noted, ran⟩ := exec_of_issues issues (I := .take c i) rfl
  have clean' : (t.core c).spadErr = [] := noted.spadErr.trans clean
  obtain ⟨core, stream, -⟩ := issues.place
  refine ⟨t, noted, ran.trans ?_⟩
  dsimp only at found ⊢
  rw [core, stream, noted.bowl, takeFind_clean _ clean clean' noted.spad, found]
  dsimp only
  rw [if_neg (Nat.not_lt.mpr fit), readPort_clean _ _ _ clean', noted.spad]
  simp only [Stream.setRegs_eq_foldl]

end Take

/-- Settles O6, an instruction at a time. -/
theorem claimCompleteTakeAndStepdone : Obligations.ClaimCompleteTakeAndStepdone := by
  refine fun c i s x => ⟨exec_claim_local, exec_complete_local, fun issues empty => ?empty,
    fun p n l issues clean _ found fit words => ?tuple, exec_stepdone⟩
  case empty =>
    obtain ⟨t, noted, ran⟩ := exec_take_empty issues empty
    refine ⟨_, ran, ?_⟩
    rw [parkOnBowl, issues.place.1, issues.place.2.1, noted.clock]
    exact noted.modStream _
  case tuple =>
    obtain ⟨t, noted, ran⟩ := exec_take_tuple issues clean found fit
    subst words
    refine ⟨_, ran, noted.frame.modCore _, ?_, ?_, fun j listed => ?_, ?_⟩ <;> dsimp only <;> rw [State.modCore_self]
    · rw [Core.setBowl_self]; rfl
    · rw [Core.setBowl_stream, Core.setStream_self, Stream.setRegs_pc, noted.stream]
    · rw [Core.setBowl_stream, Core.setStream_self]
      exact Stream.setRegs_reg _ (by rwa [bytesWords_memRead_length]) (by rwa [bytesWords_memRead_length])
    · exact noted.spad

end Sys2Proof.Machine
end

section
/-! SUPPORT. What a core does with the packet at its L output, the publication of a write pointer, and the wake of a stream
(R84, R88, R89, R97-R109, R222, R272, R302-R314). -/
namespace Sys2Proof.Machine

section Head
variable {c : CoreId} {s : State} {p : Pkt} {rest : List Pkt}

/-- The packet at the core side of an L output. -/
theorem lqHead_of_lq {c : Nat} (head : (s.core c).lq = p :: rest) : lqHead c s = some p := by rw [lqHead, head, List.head?_cons]

/-- A packet dealt with leaves the streams. -/
@[simp] theorem lqPop_stream (c : Nat) (s : State) (i : Nat) : ((lqPop c s).core c).stream i = (s.core c).stream i := by
  rw [lqPop, State.modCore_self]; rfl

/-- What becomes of a packet for a Bowl by its judgement (R304-R307). -/
def deliverAs (c : Nat) (p : Pkt) (s : State) : Judgement → State
  | .write => acceptAt c p ((lqPop c s).modCore c (writeBowl p))
  | .hold => s
  | .discard => discardAt c p (lqPop c s)
  | .refuse r => refuseAt c p r (lqPop c s)

/-- A packet for a Bowl is dealt with as the Bowl judges it (R304-R307). -/
theorem exec_bowlDelivery {j : Judgement} (head : (s.core c).lq = p :: rest) (bound : p.forBowl = true) (judged : judgeAt c p s = j) :
    exec (.bowlDelivery c) s = .next (deliverAs c p s j) := by
  change execBowlDelivery c s = _
  simp only [execBowlDelivery, lqHead_of_lq head, bound, judged, Bool.not_true, Bool.false_eq_true, if_false]
  cases j <;> rfl

/-- A channel-closed packet that answers no feedback of a Retriever faults the live stream it names, or is late (R312). -/
theorem exec_channelClosed_stream (head : (s.core c).lq = p :: rest) (closed : p.hdr.ptype = 0x0B)
    (noFeedback : (if c.val = retrRouter (packOf c) then (lqPop c s).feedbackOf (packOf c) p.words else none) = none) :
    exec (.channelClosed c) s =
      let i := bitsOf (nth 0 p.words 0) 24 3
      if (((s.core c).stream i).st).live then .next (streamFault c i (0x40 + bitsOf (nth 0 p.words 0) 0 8) (lqPop c s))
      else .next ((lqPop c s).bumpCore c 0x77 1) := by
  change execChannelClosed c s = _
  simp only [execChannelClosed, lqHead_of_lq head, closed, noFeedback, ne_eq, not_true_eq_false, if_false, channelFaultCode, lqPop_stream]

/-- A channel-closed packet that answers a Retriever's feedback is a fault of the context (R361). -/
theorem exec_channelClosed_feedback {n : Nat} (head : (s.core c).lq = p :: rest) (closed : p.hdr.ptype = 0x0B)
    (feedback : (if c.val = retrRouter (packOf c) then (lqPop c s).feedbackOf (packOf c) p.words else none) = some n)
    (running : (s.pack (packOf c)).retr.stopped = false) :
    exec (.channelClosed c) s = .next (retrieverFault 0x93 (packOf c) n (lqPop c s)) := by
  change execChannelClosed c s = _
  have retr : ((lqPop c s).pack (packOf c)).retr.stopped = false := running
  simp only [execChannelClosed, lqHead_of_lq head, closed, feedback, retr, ne_eq, not_true_eq_false, if_false, Bool.false_eq_true]

/-- A service NACK goes to the service-return Bowl (R313). -/
theorem exec_serviceNack (head : (s.core c).lq = p :: rest) (nack : p.hdr.ptype = 0x0C) :
    exec (.serviceNack c) s =
      .next (deliverNack c p.words (if p.hdr.long then 0x06 else bitsOf (nth 0 p.words 0) 0 8) p.hdr (lqPop c s)) := by
  change execServiceNack c s = _
  simp only [execServiceNack, lqHead_of_lq head, nack, ne_eq, not_true_eq_false, if_false]

/-- A Collar operation of the kind in hand leaves the L output, and acts if the Collar accepts it; otherwise it is stale (R97, R100). -/
theorem remoteOp_of_head {c op : Nat} (ledgered : Bool) (f : Nat → Pkt → State → State) (head : (s.core c).lq = p :: rest)
    (collar : p.hdr.ptype = 0x05) (kind : pktCollarOp p = op) : remoteOp c op ledgered f s =
      if remoteAccepts (((lqPop c s).core c).collar (pktCollar p)) p ledgered then f (pktCollar p) p (lqPop c s)
      else staleCollarOp c (lqPop c s) := by
  have mine : (decide (p.hdr.ptype ≠ 0x05) || decide (pktCollarOp p ≠ op)) = false := by simp [collar, kind]
  simp only [remoteOp, lqHead_of_lq head, mine, Bool.false_eq_true, if_false]

/-- A Collar operation that the Collar accepts. -/
theorem exec_remote_accepted {op : Nat} {ledgered : Bool} {f : Nat → Pkt → State → State} {I : Instr}
    (meaning : exec I s = .next (remoteOp c op ledgered f s)) (head : (s.core c).lq = p :: rest) (collar : p.hdr.ptype = 0x05)
    (kind : pktCollarOp p = op) (accepts : remoteAccepts (((lqPop c s).core c).collar (pktCollar p)) p ledgered = true) :
    exec I s = .next (f (pktCollar p) p (lqPop c s)) := by
  rw [meaning, remoteOp_of_head ledgered f head collar kind, if_pos accepts]

/-- A Collar operation that the Collar does not accept is counted and dropped (R100). -/
theorem exec_remote_stale {op : Nat} {ledgered : Bool} {f : Nat → Pkt → State → State} {I : Instr}
    (meaning : exec I s = .next (remoteOp c op ledgered f s)) (head : (s.core c).lq = p :: rest) (collar : p.hdr.ptype = 0x05)
    (kind : pktCollarOp p = op) (refuses : remoteAccepts (((lqPop c s).core c).collar (pktCollar p)) p ledgered = false) :
    exec I s = .next ((lqPop c s).bumpCore c 0x07 1) := by
  rw [meaning, remoteOp_of_head ledgered f head collar kind, if_neg (by simp [refuses]), staleCollarOp]

/-- A null claim is discarded (R108). -/
theorem exec_nullClaim (head : (s.core c).lq = p :: rest) (collar : p.hdr.ptype = 0x05) (kind : pktCollarOp p = 4) :
    exec (.nullClaim c) s = .next (lqPop c s) := by
  change execNullClaim c s = _
  simp [execNullClaim, lqHead_of_lq head, collar, kind]

/-- A reply is written to the requesting stream's register (R88, R222, R272). -/
theorem exec_collarReply (head : (s.core c).lq = p :: rest) (reply : p.hdr.ptype = 0x06) :
    exec (.collarReply c) s =
      .next (claimAnswered c (bitsOf (nth 0 p.words 1) 4 3) (bitsOf (nth 0 p.words 1) 0 4) (nth 0 p.words 0) (lqPop c s)) := by
  change execCollarReply c s = _
  simp only [execCollarReply, lqHead_of_lq head, reply, ne_eq, not_true_eq_false, if_false]

end Head

/-- Settles O12: an accepted operation by its own meaning, the four that can be refused by one lemma. -/
theorem remoteCollarOperationsAtHome : Obligations.RemoteCollarOperationsAtHome := by
  refine fun c s p rest head => ⟨fun collar kind accepts => ?_, fun collar kind accepts => ?_, fun collar kind accepts => ?_,
    fun collar kind accepts => ?_, exec_nullClaim head, fun y listed collar kind refuses => ?_, exec_collarReply head⟩
  · exact (exec_remote_accepted (I := .remotePost c) rfl head collar kind accepts :)
  · exact (exec_remote_accepted (I := .remoteFetchAdd c) rfl head collar kind accepts :)
  · exact (exec_remote_accepted (I := .remoteClaim c) rfl head collar kind accepts :)
  · exact (exec_remote_accepted (I := .remoteComplete c) rfl head collar kind accepts :)
  · fin_cases listed <;> exact exec_remote_stale rfl head collar kind refuses

section Wake
variable {c i turn : Nat} {s t : State} {u : Stream}

/-- A stream that has not moved. -/
theorem StreamBecomes.refl (c i : Nat) (s : State) : StreamBecomes c i (s.core c).turn s s ((s.core c).stream i) :=
  ⟨⟨rfl, fun _ _ => rfl, fun _ => rfl⟩, rfl, rfl, fun _ _ => rfl⟩

/-- A progress counter is no part of a core (R493). -/
theorem StreamBecomes.advanceKey (h : StreamBecomes c i turn s t u) (key n : Nat) : StreamBecomes c i turn s (t.advanceKey key n) u := by
  obtain ⟨⟨rest, others, packs⟩, core⟩ := h
  refine ⟨⟨?_, others, packs⟩, core⟩
  rw [State.advanceKey, rest]

/-- The pack's note of its last progress is no part of a core (R474). -/
theorem StreamBecomes.advancePack (h : StreamBecomes c i turn s t u) (p : Nat) : StreamBecomes c i turn s (t.advancePack p) u := by
  obtain ⟨⟨rest, others, packs⟩, core⟩ := h.advanceKey (statKey (0x1800 + p) 0x50) 1
  refine ⟨⟨?_, others, fun q => ?_⟩, core⟩
  · rw [State.advancePack, State.modPack, State.setPack, rest]
  · by_cases same : q = p
    · subst same
      rw [State.advancePack, State.modPack_self, packs]
    · rw [State.advancePack, State.modPack_other _ _ _ same]
      exact packs q

/-- A wake makes its stream Ready, and notes the progress (R89, R474). -/
theorem wakeStream_becomes (c i : Nat) (s : State) :
    StreamBecomes c i (s.core c).turn s (wakeStream c i s) { (s.core c).stream i with st := .ready, woken := false, lastIssue := s.clock } :=
  ((((StreamBecomes.refl c i s).modStream _).advanceKey _ _).modStream _).advancePack _

end Wake

/-- A parked stream whose event has come becomes Ready (R88, R89). -/
theorem exec_streamWake {c : CoreId} {i : StreamId} {s : State} (woken : ((s.core c).stream i).woken = true)
    (parked : ((s.core c).stream i).st = .parkedCollar ∨ ((s.core c).stream i).st = .parkedBowl ∨ ((s.core c).stream i).st = .parkedClaim) :
    exec (.streamWake c i) s = .next (wakeStream c i s) := by
  refine if_pos ?_
  simpa only [woken, Bool.true_and, Bool.or_eq_true, decide_eq_true_eq, or_assoc] using parked

/-- A core with a Bowl's new write pointer visible, and its reader told of it (R302, R309). -/
def Core.publish (b : Nat) (k : Core) : Core :=
  (k.setBowl b { k.bowl b with wp := (k.bowl b).wpNext }).modStream (bReader (k.bowl b)) (fun t =>
    if t.st = .parkedBowl && t.waitBowl = b then t.noteWake else t)

/-- A write pointer that has moved is published (R302). -/
theorem exec_writePointerPublish {c : CoreId} {b : BowlId} {s : State} (moved : ((s.core c).bowl b).wp ≠ ((s.core c).bowl b).wpNext) :
    exec (.writePointerPublish c b) s = .next (s.modCore c (Core.publish b)) := if_neg moved

/-- The streams after a publication: a reader parked on the Bowl has its waking event (R88). -/
theorem Core.publish_stream (b : Nat) (k : Core) (i : Nat) : (k.publish b).stream i =
    if i = bReader (k.bowl b) ∧ (k.stream i).st = .parkedBowl ∧ (k.stream i).waitBowl = b
    then { k.stream i with woken := true } else k.stream i := by
  by_cases reader : i = bReader (k.bowl b)
  · rw [Core.publish, ← reader, Core.modStream, Core.setStream_self, Core.setBowl_stream]
    simp [Stream.noteWake]
  · rw [Core.publish, Core.modStream, Core.setStream_other _ _ _ reader, Core.setBowl_stream, if_neg (fun h => reader h.1)]

/-- Settles O11, a command at a time. -/
theorem bowlDeliveryAndPublish : Obligations.BowlDeliveryAndPublish := by
  refine fun c s => ⟨fun p rest head bound => ?delivery, fun b moved => ?publish, fun p rest head closed => ?closed,
    fun p rest head nack => exec_serviceNack head nack, fun i woken parked => ⟨_, exec_streamWake woken parked, wakeStream_becomes c i s⟩⟩
  case delivery =>
    exact ⟨exec_bowlDelivery head bound, exec_bowlDelivery head bound, exec_bowlDelivery head bound, fun r => exec_bowlDelivery head bound⟩
  case publish =>
    refine ⟨_, exec_writePointerPublish moved, rfl, fun d other => s.modCore_other c _ other, ?_⟩
    rw [State.modCore_self]
    exact ⟨Core.setBowl_self _ _ _, fun e other => Core.setBowl_other _ _ _ other, rfl, (s.core c).publish_stream b⟩
  case closed =>
    exact ⟨fun noFeedback live => (exec_channelClosed_stream head closed noFeedback).trans (if_pos live),
      fun noFeedback dead => (exec_channelClosed_stream head closed noFeedback).trans (if_neg (Bool.eq_false_iff.mp dead)),
      fun n => exec_channelClosed_feedback head closed⟩

end Sys2Proof.Machine
end

section
/-! SUPPORT. The engines' completions (R113, R160-R163, R171-R184, R202, R211, R248). -/
namespace Sys2Proof.Machine

section Engines
variable {c : CoreId} {s s1 : State} {o : EngOp}

/-- The accumulators, counters and progress after a problem of an operation whose operands have been read (R160, R179-R184). -/
def computeProblem (c : Nat) (o : EngOp) (ops : Operands) (upsets : List Upset) (s : State) : State :=
  let a := o.mma.accOf o.computed
  let before := (s.core c).acc
  let r := accumulate o.mma ops a before
  let acc := upsetAcc a upsets r.1
  let t := s.modCore c (fun k => { k.modOp o.seq (fun q => { q with computed := q.computed + 1 }) with acc := acc })
  let t := ((t.bumpCore c 0x33 r.2).bumpCore c 0x55 (aConflicts o.mma o.computed)).advanceCore c 0x91 o.mma.g
  afterCompute c o (ops.special || decide (0 < r.2) || (o.mma.afmt ≠ .int8 && accSpecial o.mma a acc))
    (laneFinding o.mma ops a before acc) t

/-- The first unfinished problem of the matrix queue is computed (R160, R179). -/
theorem exec_matrixProblemReady {ops : Operands} (upsets : List Upset)
    (first : (s.core c).ops.find? (fun o => o.engine = .matrix && !o.abandoned && decide (o.computed < o.mma.probs)) = some o)
    (up : tabGet false (s.core c).engReset 0 = false)
    (read : readOperands c o.mma o.computed (drainBefore c (o.mma.accOf o.computed) s) = (some ops, s1)) :
    exec (.matrixProblemReady c upsets) s = .next (computeProblem c o ops upsets s1) := by
  change execMatrixProblemReady c upsets s = _
  simp only [execMatrixProblemReady, first, up, read, Bool.false_eq_true, if_false]
  rfl

/-- The first fully computed matrix instruction is drained and completes (R161, R202). -/
theorem exec_drainComplete {q : EngOp}
    (first : (s.core c).ops.find? (fun o => o.engine = .matrix && !o.abandoned && o.computed = o.mma.probs) = some o)
    (up : tabGet false (s.core c).engReset 2 = false)
    (drained : ((drainUpTo c o.seq o.mma.probs (o.mma.probs - o.drained) s).core c).opBySeq o.seq = some q) (whole : q.abandoned = false) :
    exec (.drainComplete c) s = .next (completeOp c o.seq (drainUpTo c o.seq o.mma.probs (o.mma.probs - o.drained) s)) := by
  change execDrainComplete c s = _
  simp only [execDrainComplete, first, up, drained, whole, Bool.false_eq_true, if_false]

/-- The first vector instruction writes its result and completes (R171-R178, R202). -/
theorem exec_vectorComplete {r : VecResult}
    (first : (s.core c).ops.find? (fun o => o.engine = .vector && !o.abandoned) = some o)
    (up : tabGet false (s.core c).engReset 1 = false) (ran : runVector c o s = (some r, s1)) :
    exec (.vectorComplete c) s = .next (
      let t := r.writes.foldl (fun s w => writeArray c 3 w.addr w.tail w.bytes s) s1
      let t := ((r.cnt.apply c t).bumpCore c 0x43 r.oob).bumpCore c 0x55 r.conflicts
      completeOp c o.seq (t.advanceCore c 0x91 (ceilDiv (vecLen o.word) 64))) := by
  change execVectorComplete c s = _
  simp only [execVectorComplete, first, up, ran, Bool.false_eq_true, if_false]

section Dcfg
variable {l : List Byte} (first : (s.core c).ops.find? (fun o => o.engine = .drain) = some o)
  (up : tabGet false (s.core c).engReset 2 = false) (read : readPort c 2 (ifld o.word 31 11) 64 s = (some l, s1))
include first up read

/-- A DCFG whose bytes break no rule loads its configuration (R162, R163). -/
theorem exec_dcfgComplete_loads (sound : chainBad (bytesWords l) = false) (below : stagesAbove (s1.core c).fence (bytesWords l) = false) :
    exec (.dcfgComplete c) s = .next (completeOp c o.seq (s1.modCore c (fun k => k.setChain (ifld o.word 10 8) (bytesWords l)))) := by
  change execDcfgComplete c s = _
  simp only [execDcfgComplete, first, up, read, sound, below, Bool.or_self, Bool.false_eq_true, if_false]

/-- A DCFG whose bytes break a rule faults its live stream and keeps the configuration (R211). -/
theorem exec_dcfgComplete_faults (bad : (chainBad (bytesWords l) || stagesAbove (s1.core c).fence (bytesWords l)) = true)
    (live : (((s1.core c).stream o.stream).st).live = true) :
    exec (.dcfgComplete c) s = .next (completeOp c o.seq (streamFaultAt c o.stream o.pc 0x2B s1)) := by
  change execDcfgComplete c s = _
  simp only [execDcfgComplete, first, up, read, bad, live, Bool.false_eq_true, if_false, if_true]

end Dcfg
end Engines

/-- Settles O15, an engine at a time. -/
theorem enginesCompleteTheirOperations : Obligations.EnginesCompleteTheirOperations :=
  fun _ _ => ⟨fun _ _ _ upsets first up read => exec_matrixProblemReady upsets first up read,
    fun _ _ first up drained whole => exec_drainComplete first up drained whole,
    fun _ _ _ first up ran => exec_vectorComplete first up ran,
    fun _ _ _ first up read => ⟨exec_dcfgComplete_loads first up read, exec_dcfgComplete_faults first up read⟩⟩

end Sys2Proof.Machine
end

section
/-! SUPPORT. What noting an issue leaves of a state, and the scalar instructions (R191, R195-R201). -/
namespace Sys2Proof.Machine

section Left
variable {c i : Nat} {s t : State} (noted : IssueNoted c i s t)
include noted

theorem IssueNoted.route (n : Nat) : (t.core c).route n = (s.core c).route n := by
  obtain ⟨l, f, core⟩ := noted.core
  rw [core]; rfl

theorem IssueNoted.checked : (t.core c).checked = (s.core c).checked := by
  obtain ⟨l, f, core⟩ := noted.core
  rw [core]

theorem IssueNoted.howlAt : t.howlAt c = s.howlAt c := by
  obtain ⟨l, f, core⟩ := noted.core
  have howl : t.howl = s.howl := by rw [noted.frame.1]
  rw [State.howlAt, howl, core]; rfl

theorem IssueNoted.device : t.device = s.device := by
  rw [noted.frame.1]; rfl

theorem IssueNoted.step (p : Nat) : (t.pack p).step = (s.pack p).step := by rw [noted.frame.2.2]

theorem IssueNoted.freq (p : Nat) : (t.pack p).freq = (s.pack p).freq := by rw [noted.frame.2.2]

/-- Noting an issue leaves the epoch of the core's packets (R403). -/
theorem IssueNoted.epochOf (d : Nat) : t.epochOf d = s.epochOf d := by
  have prog : t.progOf (packOf d) = s.progOf (packOf d) := by
    rw [State.progOf, noted.frame.2.2]; rfl
  have progs (g : Nat) : t.prog g = s.prog g := by rw [noted.frame.1]; rfl
  simp only [State.epochOf, State.coreProg, prog, progs]

theorem IssueNoted.reg (r : Nat) : ((t.core c).stream i).reg r = ((s.core c).stream i).reg r := by rw [noted.stream]; rfl

theorem IssueNoted.lcv (n : Nat) : ((t.core c).stream i).lcv n = ((s.core c).stream i).lcv n := by rw [noted.stream]; rfl

end Left

section Scalar
variable {c i : Nat} {s t : State} {x : Issued}

/-- RDSR reads nothing that noting the issue changes (R200). -/
theorem rdsrValue_noted (noted : IssueNoted c i s t) (core : x.c = c) (stream : x.i = i) : rdsrValue x t = rdsrValue x s := by
  simp only [rdsrValue, core, stream, noted.howlAt, noted.step, noted.device, noted.lcv, noted.checked, noted.freq]

/-- A PC written is the stream's only change (R201). -/
theorem StreamBecomes.setPc {turn : Nat} {u : Stream} (h : StreamBecomes c i turn s t u) (core : x.c = c) (stream : x.i = i) (target : Nat) :
    StreamBecomes c i turn s (setPc x target t) { u with pc := BitVec.ofNat 12 target } := by
  subst core stream
  exact h.modStream _

/-- An instruction that writes one register: its stream takes the value, which the issue leaves as it was (R195, R197). -/
theorem exec_setX {op : Nat} {I : Instr} {v : Word} (value : Issued → State → Word) (issues : Issues op c i s x)
    (meaning : exec I s = .next (issueOp op c i (fun x s => setX x (ifld x.w 11 8) (value x s) s) s))
    (same : ∀ t, IssueNoted c i s t → value x t = v) :
    ∃ t, exec I s = .next t ∧ StreamBecomes c i i s t ((((s.core c).stream i).issuedOnce s.clock).setReg (ifld x.w 11 8) v) := by
  obtain ⟨t, noted, ran⟩ := exec_of_issues issues meaning
  obtain ⟨core, stream, -⟩ := issues.place
  rw [same t noted, setX, core, stream] at ran
  exact ⟨_, ran, noted.modStream _⟩

end Scalar

section Control
variable {c : CoreId} {i : StreamId} {s : State} {x : Issued}

/-- LCSET writes its loop counter (R197). -/
theorem exec_lcset (issues : Issues 0x04 c i s x) : ∃ t, exec (.lcset c i) s = .next t ∧ StreamBecomes c i i s t
    ((((s.core c).stream i).issuedOnce s.clock).setLc (ifld x.w 25 21)
      (BitVec.ofNat 32 (if bitAt x.w 20 then bitsOf x.ra 0 32 else ifld x.w 95 64))) := by
  obtain ⟨t, noted, ran⟩ := exec_of_issues issues (I := .lcset c i) rfl
  obtain ⟨core, stream, -⟩ := issues.place
  dsimp only at ran
  rw [core, stream, ← apply_ite (BitVec.ofNat 32)] at ran
  exact ⟨_, ran, noted.modStream _⟩

/-- LOOP goes on at counter 0, leaves its loop as the counter reaches 0, and otherwise counts and goes to its target (R197). -/
theorem exec_loop (issues : Issues 0x05 c i s x) : ∃ t, exec (.loop c i) s = .next t ∧ StreamBecomes c i i s t (
    let u := ((s.core c).stream i).issuedOnce s.clock
    let n := ifld x.w 25 21
    let v := ((s.core c).stream i).lcv n
    if v = 0 then u else if v = 1 then u.setLc n 0 else { u.setLc n (v - 1) with pc := BitVec.ofNat 12 (ifld x.w 43 32) }) := by
  obtain ⟨t, noted, ran⟩ := exec_of_issues issues (I := .loop c i) rfl
  obtain ⟨core, stream, -⟩ := issues.place
  refine ⟨_, ran, ?_⟩
  dsimp only
  rw [core, stream, noted.lcv]
  by_cases zero : ((s.core c).stream i).lcv (ifld x.w 25 21) = 0
  · rw [if_pos zero, if_pos zero]
    exact noted
  by_cases one : ((s.core c).stream i).lcv (ifld x.w 25 21) = 1
  · rw [if_neg zero, if_neg zero, if_pos one, one, if_pos (by decide)]
    exact noted.modStream _
  · rw [if_neg zero, if_neg zero, if_neg one, if_neg (fun h => one (sub_eq_zero.mp h))]
    exact (noted.modStream _).setPc core stream _

/-- BR goes to its target where its condition holds (R197, R199). -/
theorem exec_br (issues : Issues 0x06 c i s x) : ∃ t, exec (.br c i) s = .next t ∧ StreamBecomes c i i s t (
    let u := ((s.core c).stream i).issuedOnce s.clock
    if brHolds (ifld x.w 25 21) x.ra x.rb then { u with pc := BitVec.ofNat 12 (ifld x.w 43 32) } else u) := by
  obtain ⟨t, noted, ran⟩ := exec_of_issues issues (I := .br c i) rfl
  obtain ⟨core, stream, -⟩ := issues.place
  refine ⟨_, ran, ?_⟩
  dsimp only
  split_ifs
  · exact noted.setPc core stream _
  · exact noted

end Control

/-- Settles O1: three instructions write a register, and LCSET, LOOP and BR a loop counter or the PC. -/
theorem scalarInstructionsWriteTheirResult : Obligations.ScalarInstructionsWriteTheirResult := by
  refine fun c i s x => ⟨fun issues => ?nop, fun issues => exec_setX _ issues rfl fun _ _ => rfl,
    fun issues => exec_setX _ issues rfl fun _ _ => rfl, exec_lcset, exec_loop, exec_br,
    fun issues => exec_setX _ issues rfl fun t noted => rdsrValue_noted noted issues.place.1 issues.place.2.1⟩
  obtain ⟨t, noted, ran⟩ := exec_of_issues issues (I := .nop c i) rfl
  exact ⟨t, ran, noted⟩

end Sys2Proof.Machine
end

section
/-! SUPPORT. The functions of the ALU (R198). -/
namespace Sys2Proof.Machine

/-- The shift amount is bits [5:0] of B (R198). -/
theorem shiftAmount_eq (b : Word) : fieldOf b.toNat 0 6 = b.toNat % 64 := by simp [fieldOf]

/-- Division by a power of two is the arithmetic shift (R198). -/
theorem sshiftRight_toInt (a : Word) (n : Nat) : (a.sshiftRight n).toInt = a.toInt / 2 ^ n := by
  rw [BitVec.toInt_sshiftRight, Int.shiftRight_eq_div_pow]; norm_cast

/-- The high word of a product of two words fits in a word (R198). -/
theorem mulHigh_lt (a b : Word) : a.toNat * b.toNat / 2 ^ 64 < 2 ^ 64 := by
  rw [Nat.div_lt_iff_lt_mul (by decide)]
  exact Nat.mul_lt_mul'' a.isLt b.isLt

/-- Settles O2, a function at a time. -/
theorem aluFunctionsAreThoseOfTheTable : Obligations.AluFunctionsAreThoseOfTheTable := by
  intro a b
  rw [shiftAmount_eq]
  refine ⟨BitVec.toNat_add .., ?sub, rfl, rfl, rfl, ?shl, ?shr, sshiftRight_toInt a _, BitVec.toNat_mul .., ?minU, ?maxU, ?minS, ?maxS,
    ?ltU, ?ltS, ?mulHigh⟩
  case sub => exact (BitVec.toNat_sub a b).trans (by rw [Nat.add_comm])
  case shl => exact (BitVec.toNat_shiftLeft ..).trans (by rw [Nat.shiftLeft_eq])
  case shr => exact (BitVec.toNat_ushiftRight ..).trans (Nat.shiftRight_eq_div_pow ..)
  case minU => exact (apply_ite BitVec.toNat _ a b).trans (min_def ..).symm
  case maxU => exact (apply_ite BitVec.toNat _ b a).trans (max_def ..).symm
  case minS => exact (apply_ite BitVec.toInt _ a b).trans (min_def ..).symm
  case maxS => exact (apply_ite BitVec.toInt _ b a).trans (max_def ..).symm
  case ltU => exact apply_ite BitVec.toNat _ 1 0
  case ltS => exact apply_ite BitVec.toNat _ 1 0
  case mulHigh => exact (BitVec.toNat_ofNat ..).trans (Nat.mod_eq_of_lt (mulHigh_lt a b))

end Sys2Proof.Machine
end

section
/-! SUPPORT. The instructions that hand a packet to the mesh port (R87, R203, R217, R218, R221-R223, R227, R228, R270-R275). -/
namespace Sys2Proof.Machine

section Packets
variable {c i : Nat} {s t : State} (noted : IssueNoted c i s t)
include noted

/-- Noting an issue leaves the header of a route's packets (R270, R403). -/
theorem routeHdr_noted (ptype : Nat) (r : BitVec 256) : routeHdr t c i ptype r = routeHdr s c i ptype r := by
  simp only [routeHdr, noted.device, noted.epochOf]

/-- Noting an issue leaves the words of a tuple (R218). -/
theorem tupleWords_noted (xs nw : Nat) : tupleWords ((t.core c).stream i) xs nw = tupleWords ((s.core c).stream i) xs nw := by
  simp only [tupleWords, noted.reg]

end Packets

section Mesh
variable {c : CoreId} {i : StreamId} {s : State} {x : Issued}

/-- The packet a SEND makes, of the state in which it issues (R217, R270, R351). -/
def sendPkt (c i : Nat) (s : State) (x : Issued) : Pkt :=
  let r := (s.core c).route (ifld x.w 15 8)
  let retr := rKind r = 6
  let h := routeHdr s c i (if retr then 0x07 else 0x01) r
  { hdr := { h with long := true, len := ifld x.w 22 16, note := bitAt x.w 27, nw := bit01 (bitAt x.w 27), doff := bitsOf x.ra 21 21 / 64
                    reduce := h.reduce || retr, rid := if retr then rRid r else h.rid }
    words := if bitAt x.w 27 then [x.rb] else if retr then [BitVec.ofNat 64 (retrieverWord 0 (s.pack (packOf c)).step)] else []
    payload := [], exit := rExit r, origin := 0 }

/-- SEND hands its packet over with the scratchpad range it is read from (R87, R217). -/
theorem exec_send (issues : Issues 0x40 c i s x) : ∃ t, IssueNoted c i s t ∧ exec (.send c i) s = .next
    (sendScheduled x (ifld x.w 15 8) (sendPkt c i s x) (some (bitsOf x.ra 0 21, 256 * ifld x.w 22 16)) t) := by
  obtain ⟨t, noted, ran⟩ := exec_of_issues issues (I := .send c i) rfl
  obtain ⟨core, stream, -⟩ := issues.place
  refine ⟨t, noted, ran.trans ?_⟩
  simp only [core, stream, noted.route, noted.step, routeHdr_noted noted, sendPkt]

/-- The packet a SENDT makes on a data-tuple or a service-tuple route, of the state in which it issues (R218, R270, R271). -/
def sendtPkt (c i : Nat) (s : State) (x : Issued) (svc : Bool) : Pkt :=
  let r := (s.core c).route (ifld x.w 15 8)
  let nw := ifld x.w 24 20
  { hdr := { routeHdr s c i (if svc then 0x03 else 0x02) r with service := svc, nw := nw, long := decide (4 < nw), len := bit01 (decide (4 < nw)) }
    words := tupleWords ((s.core c).stream i) (ifld x.w 19 16) nw, payload := [], exit := rExit r, origin := 0 }

/-- SENDT hands its tuple over on a data-tuple route, and puts it into the mesh port for open slots on a service-tuple route (R218, R286). -/
theorem exec_sendt (issues : Issues 0x41 c i s x) : ∃ t, IssueNoted c i s t ∧ exec (.sendt c i) s = .next (
    if rKind ((s.core c).route (ifld x.w 15 8)) = 3 then
      promote c (t.modCore c (fun k => { k with seq := k.seq + 1, mesh := k.mesh ++ [meshOp x k.seq (sendtPkt c i s x true) none [] s.howl false] }))
    else sendScheduled x (ifld x.w 15 8) (sendtPkt c i s x false) none t) := by
  obtain ⟨t, noted, ran⟩ := exec_of_issues issues (I := .sendt c i) rfl
  obtain ⟨core, stream, -⟩ := issues.place
  have howl : t.howl = s.howl := by rw [noted.frame.1]
  refine ⟨t, noted, ran.trans ?_⟩
  dsimp only
  simp only [core, stream, noted.route, routeHdr_noted noted, tupleWords_noted noted, howl]
  split_ifs with service <;> simp [sendtPkt, service]

/-- A remote POST waits for the stream's earlier work with its place in the schedule taken (R82, R221, R275). -/
theorem exec_post_remote (issues : Issues 0x50 c i s x) (remote : bitAt x.w 12 = true) : ∃ t, IssueNoted c i s t ∧
    exec (.post c i) s = .next (deferRemote x (.post (collarN x)) (collarPkt t x 0 (collarN x).toNat 0) t) := by
  obtain ⟨t, noted, ran⟩ := exec_of_issues issues (I := .post c i) rfl
  exact ⟨t, noted, ran.trans (congrArg _ (if_pos remote))⟩

/-- A remote FADD marks its destination register pending and hands its packet over (R195, R222). -/
theorem exec_fadd_remote (issues : Issues 0x52 c i s x) (remote : bitAt x.w 12 = true) : ∃ t, IssueNoted c i s t ∧
    exec (.fadd c i) s = .next (
      let t := setPending x (ifld x.w 28 25) t
      sendScheduled x (ifld x.w 20 13) (collarPkt t x 1 (collarN x).toNat (replyTo x)) none t) := by
  obtain ⟨t, noted, ran⟩ := exec_of_issues issues (I := .fadd c i) rfl
  exact ⟨t, noted, ran.trans (congrArg _ (if_pos remote))⟩

/-- A remote CLAIM parks on its pending register, counts its claim of the step and hands its packet over (R88, R222, R327). -/
theorem exec_claim_remote (issues : Issues 0x54 c i s x) (remote : bitAt x.w 12 = true) : ∃ t, IssueNoted c i s t ∧
    exec (.claim c i) s = .next (
      let r := ifld x.w 20 13
      let t := parkOnClaim x (ifld x.w 28 25) (setPending x (ifld x.w 28 25) t)
      let t := t.modCore c (fun k => k.modStream i (fun y => { y with claimsUsed := tabSet 0 y.claimsUsed r (tabGet 0 y.claimsUsed r + 1) }))
      sendScheduled x r (collarPkt t x 2 0 (replyTo x)) none t) := by
  obtain ⟨t, noted, ran⟩ := exec_of_issues issues (I := .claim c i) rfl
  obtain ⟨core, stream, -⟩ := issues.place
  refine ⟨t, noted, ran.trans (congrArg _ ((if_pos remote).trans ?_))⟩
  dsimp only
  rw [core, stream]

/-- A remote COMPLETE waits for the stream's earlier work with the generation of its route (R82, R100, R223). -/
theorem exec_complete_remote (issues : Issues 0x55 c i s x) (remote : bitAt x.w 12 = true) : ∃ t, IssueNoted c i s t ∧
    exec (.complete c i) s = .next (
      let index := bitsOf x.ra 0 32
      let cg := bitsOf x.ra 32 8
      deferRemote x (.complete (BitVec.ofNat 32 index) (BitVec.ofNat 8 cg) (BitVec.ofNat 8 (rGen ((s.core c).route (ifld x.w 20 13)))))
        (collarPkt t x 3 0 (index + at_ 32 cg)) t) := by
  obtain ⟨t, noted, ran⟩ := exec_of_issues issues (I := .complete c i) rfl
  refine ⟨t, noted, ran.trans (congrArg _ ((if_pos remote).trans ?_))⟩
  have index : (BitVec.ofNat 32 (bitsOf x.ra 0 32)).toNat = bitsOf x.ra 0 32 := Nat.mod_eq_of_lt (Nat.mod_lt _ (by decide))
  have cg : (BitVec.ofNat 8 (bitsOf x.ra 32 8)).toNat = bitsOf x.ra 32 8 := Nat.mod_eq_of_lt (Nat.mod_lt _ (by decide))
  dsimp only
  rw [issues.place.1, noted.route, index, cg]

end Mesh

/-- Settles O5, an instruction at a time; SENDT by its route's kind. -/
theorem meshInstructionsHandTheirPacketOver : Obligations.MeshInstructionsHandTheirPacketOver := by
  refine fun c i s x => ⟨exec_send, fun issues data => ?data, fun issues service => ?service,
    fun issues => exec_of_issues issues (run := fun x s => retrieverCmd x false s) rfl,
    fun issues => exec_of_issues issues (run := fun x s => retrieverCmd x true s) rfl,
    exec_post_remote, exec_fadd_remote, exec_claim_remote, exec_complete_remote⟩
  case data =>
    obtain ⟨t, noted, ran⟩ := exec_sendt issues
    rw [if_neg data] at ran
    exact ⟨t, noted, ran⟩
  case service =>
    obtain ⟨t, noted, ran⟩ := exec_sendt issues
    rw [if_pos service] at ran
    exact ⟨t, noted, ran⟩

end Sys2Proof.Machine
end

section
/-! SUPPORT. A Retriever's logits packets and commands (R228, R351-R353, R361). -/
namespace Sys2Proof.Machine

/-- The elements below V that a logits packet brings to a context (R351, R353). -/
def pktLogits (k : Ctx) (q : Pkt) : List (Nat × BitVec 32) :=
  logitElems k.logitBf16 k.vocab (64 * q.hdr.doff / (if k.logitBf16 then 2 else 4)) q.payload

/-- Whether a logits packet of a context and SEQ is a steering fault: it is out of order, its last flit begins beyond V, an element has
arrived before, or the pair has left the store (R352, R353, R361). -/
def logitsFault (r : Retriever) (k : Ctx) (n seq : Nat) (q : Pkt) : Bool :=
  let size := if k.logitBf16 then 2 else 4
  let pair := (r.pairs.find? (fun x => x.ctx = n && x.seq = seq)).getD (RetrPair.fresh n seq)
  halfFaults r.pairs n seq k.vocab (fun x => x.take (pktLogits k q))
    || decide (k.vocab ≤ 64 * q.hdr.doff / size + (q.hdr.len - 1) * (256 / size))
    || (pktLogits k q).any (fun e => tabGet false pair.seen e.1) || (tabGet [] r.finished n).contains seq

section
variable {p : PackId} {s : State} {q : Pkt} (head : lqHead (retrRouter p) s = some q) (running : (s.pack p).retr.stopped = false)
include head running

/-- What a Retriever does with a logits packet (R351-R353, R361). -/
theorem exec_retrieverLogits (logits : q.hdr.ptype = 0x07) : exec (.retrieverLogits p) s = .next (
    let c := retrRouter p
    let n := retrCtx (nth 0 q.words 0)
    let seq := retrSeq (nth 0 q.words 0)
    if s.retrServes p n then
      if logitsFault (s.pack p).retr (s.ctx n) n seq q then retrieverFault 0x90 p n (lqPop c s)
      else if logitsHeld c q s then s
      else cancelIfWhole p n seq
        ((lqPop c s).modRetr p (fun r => { r with pairs := setPair n seq (fun x => x.take (pktLogits (s.ctx n) q)) r.pairs }))
    else retrieverFault 0x91 p n (lqPop c s)) := by
  change execRetrieverLogits p s = _
  simp only [execRetrieverLogits, head, running, logits, ne_eq, not_true_eq_false, decide_false, Bool.or_self, Bool.false_eq_true, if_false]
  cases s.retrServes p (retrCtx (nth 0 q.words 0)) with
  | false => rfl
  | true =>
    simp only [Bool.not_true, Bool.false_eq_true, if_false, if_true, apply_ite Host.Outcome.next]
    rfl

/-- What a Retriever does with a command of the kind in hand (R228, R353, R361). -/
theorem exec_retrieverCommand {cancel : Bool} (command : q.hdr.ptype = 0x08) (kind : bitAt (nth 0 q.words 0) 33 = cancel) :
    exec (if cancel then .retrieverCancelCmd p else .retrieverSampleCmd p) s = .next (
    let w := nth 0 q.words 0
    let n := retrCtx w
    let seq := retrSeq w
    let r := (s.pack p).retr
    let t := lqPop (retrRouter p) s
    let put (x : RetrPair) : RetrPair := { x with cmd := some { cancel := cancel, irq := bitAt w 32 } }
    if s.retrServes p n then
      if (tabGet [] r.acted n).contains seq then t
      else if halfFaults r.pairs n seq (s.ctx n).vocab put then retrieverFault 0x90 p n t
      else cancelIfWhole p n seq (t.modRetr p (fun r => { r with
        pairs := setPair n seq put r.pairs, acted := tabSet [] r.acted n (addSeq seq (tabGet [] r.acted n)) }))
    else retrieverFault 0x91 p n t) := by
  have meaning : exec (if cancel then .retrieverCancelCmd p else .retrieverSampleCmd p) s = .next (retrCommand p cancel s) := by
    cases cancel <;> rfl
  rw [meaning]
  simp only [retrCommand, head, running, command, kind, ne_eq, not_true_eq_false, decide_false, Bool.or_self, Bool.false_eq_true, if_false]
  have serves : (lqPop (retrRouter p) s).retrServes p (retrCtx (nth 0 q.words 0)) = s.retrServes p (retrCtx (nth 0 q.words 0)) := rfl
  rw [serves]
  cases s.retrServes p (retrCtx (nth 0 q.words 0)) <;> rfl

end

/-- Settles O27: each clause is a branch of what becomes of a logits packet or of a command. -/
theorem retrieverPairsLogitsAndCommands : Obligations.RetrieverPairsLogitsAndCommands := by
  refine fun p s q head running => ⟨fun logits => ?logits, fun cancel command kind => ?command⟩
  case logits =>
    have answer := exec_retrieverLogits head running logits
    refine ⟨fun other => ?_, fun serves fault => ?_, fun serves sound held => ?_, fun serves sound room => ?_⟩ <;>
      refine answer.trans (congrArg _ ?_)
    · exact if_neg (Bool.eq_false_iff.mp other)
    · exact (if_pos serves).trans (if_pos fault)
    · exact (if_pos serves).trans ((if_neg (Bool.eq_false_iff.mp sound)).trans (if_pos held))
    · exact (if_pos serves).trans ((if_neg (Bool.eq_false_iff.mp sound)).trans (if_neg (Bool.eq_false_iff.mp room)))
  case command =>
    have answer := exec_retrieverCommand head running command kind
    refine ⟨fun other => ?_, fun serves again => ?_, fun serves first fault => ?_, fun serves first sound => ?_⟩ <;>
      refine answer.trans (congrArg _ ?_)
    · exact if_neg (Bool.eq_false_iff.mp other)
    · exact (if_pos serves).trans (if_pos again)
    · exact (if_pos serves).trans ((if_neg (Bool.eq_false_iff.mp first)).trans (if_pos fault))
    · exact (if_pos serves).trans ((if_neg (Bool.eq_false_iff.mp first)).trans (if_neg (Bool.eq_false_iff.mp sound)))

end Sys2Proof.Machine
end

section
/-! SUPPORT. The fetch engine's requests, replies and completions, and the Groomer (R202, R247, R251-R253, R375-R379). -/
namespace Sys2Proof.Machine

section Fetch
variable {c : CoreId} {s : State} {o : EngOp} {tag : Nat}

/-- A core whose fetch engine has issued the next request of an operation with a tag (R376, R377). -/
def Core.noteRequest (o : EngOp) (tag : Nat) (gen : Byte) (store : Bool) (k : Core) : Core :=
  let r := nth (0, 0, 0) o.requests o.issuedReq
  { k with
    ops := k.ops.map (fun q => if q.seq = o.seq then { q with issuedReq := q.issuedReq + 1 } else q)
    reqs := k.reqs ++ [{ tag := tag, gen := gen, op := o.seq, stream := o.stream, pc := o.pc, hbm := r.1, spad := r.2.1, len := r.2.2
                         store := store }] }

section Issue
variable (first : (s.core c).ops.find? (fun o => o.engine = .fetch && decide (o.issuedReq < o.requests.length)) = some o)
  (free : (s.core c).freeTag = some tag) (up : tabGet false (s.core c).engReset 3 = false) (room : ((s.core c).input .l).fetch.length < 2)
include first free up room

/-- A FETCH's next request leaves without data (R376-R378). -/
theorem exec_fetchRequestIssue_reads (reads : opOf o.word ≠ 0x11) : exec (.fetchRequestIssue c) s = .next (
    let r := nth (0, 0, 0) o.requests o.issuedReq
    let gen := tabGet 0 (s.core c).tagGen tag
    let t := s.modCore c (Core.noteRequest o tag gen false)
    enterL c (fetchPkt t c false r.2.2 r.1 gen.toNat 0 tag r.2.1 []) t) := by
  change execFetchRequestIssue c s = _
  simp only [execFetchRequestIssue, first, free, up, Nat.not_le.mpr room, reads, decide_false, Bool.or_self, Bool.false_eq_true, if_false]
  rfl

/-- A STORE's next request leaves with the bytes it reads, which are counted (R376-R378). -/
theorem exec_fetchRequestIssue_writes {d : List Byte} {s1 : State} (writes : opOf o.word = 0x11)
    (read : (let r := nth (0, 0, 0) o.requests o.issuedReq; readPort c 6 r.2.1 r.2.2 s) = (some d, s1)) :
    exec (.fetchRequestIssue c) s = .next (
      let r := nth (0, 0, 0) o.requests o.issuedReq
      let gen := tabGet 0 (s.core c).tagGen tag
      let t := (s1.modCore c (Core.noteRequest o tag gen true)).bumpCore c 0x81 r.2.2
      enterL c (fetchPkt t c true r.2.2 r.1 gen.toNat 0 tag r.2.1 d) t) := by
  change execFetchRequestIssue c s = _
  dsimp only at read
  simp only [execFetchRequestIssue, first, free, up, Nat.not_le.mpr room, writes, read, decide_false, decide_true, Bool.or_self,
    Bool.false_eq_true, if_false, if_true]
  rfl

end Issue

section Reply
variable {p : Pkt} {rest : List Pkt} (head : (s.core c).lq = p :: rest) (reply : p.hdr.ptype = 0x0A) (own : bitsOf (nth 0 p.words 1) 30 2 = 0)
include head reply own

/-- A reply of a stale tag generation is counted and discarded (R379). -/
theorem exec_fetchReply_stale
    (stale : bitsOf (nth 0 p.words 1) 32 8 ≠ (tabGet 0 (s.core c).tagGen (bitsOf (nth 0 p.words 1) 24 6)).toNat) :
    exec (.fetchReply c) s = .next ((lqPop c s).bumpCore c 0x82 1) := by
  have gens : ((lqPop c s).core c).tagGen = (s.core c).tagGen := by rw [lqPop, State.modCore_self]
  change execFetchReply c s = _
  simp only [execFetchReply, lqHead_of_lq head, reply, own, gens, stale, ne_eq, not_true_eq_false, not_false_eq_true, decide_false,
    Bool.or_self, Bool.false_eq_true, if_false, if_true]

/-- A reply of status 0 frees its request; a FETCH's bytes are written and one request more of it is done (R202, R375, R379). -/
theorem exec_fetchReply_done {r : FetchReq}
    (current : bitsOf (nth 0 p.words 1) 32 8 = (tabGet 0 (s.core c).tagGen (bitsOf (nth 0 p.words 1) 24 6)).toNat)
    (request : (s.core c).reqs.find? (fun r => r.tag = bitsOf (nth 0 p.words 1) 24 6) = some r) (good : bitsOf (nth 0 p.words 0) 56 8 = 0) :
    exec (.fetchReply c) s = .next (
      let t := (lqPop c s).modCore c (fun k => { k with reqs := k.reqs.filter (fun q => q.tag ≠ bitsOf (nth 0 p.words 1) 24 6) })
      let t := if r.store then t else ((writePort c 6 r.spad (p.payload.take r.len) t).bumpCore c 0x80 r.len).modCore c (fun k => { k with
        ops := k.ops.map (fun q => if q.seq = r.op then { q with doneReq := q.doneReq + 1 } else q) })
      t.advanceCore c 0x91 1) := by
  have gens : ((lqPop c s).core c).tagGen = (s.core c).tagGen := by rw [lqPop, State.modCore_self]
  have reqs : ((lqPop c s).core c).reqs = (s.core c).reqs := by rw [lqPop, State.modCore_self]
  change execFetchReply c s = _
  simp only [execFetchReply, lqHead_of_lq head, reply, own, gens, reqs, current, request, good, ne_eq, not_true_eq_false, decide_false,
    Bool.or_self, Bool.false_eq_true, if_false, if_true]
  cases r.store <;> rfl

end Reply

/-- A fetch operation whose requests are all done completes (R202). -/
theorem exec_fetchComplete (done : (s.core c).ops.find? (fun o => o.engine = .fetch && o.doneReq = o.requests.length) = some o) :
    exec (.fetchComplete c) s = .next (completeOp c o.seq s) := by
  change execFetchComplete c s = _
  simp only [execFetchComplete, done]

end Fetch

section Groomer
variable {c : CoreId} {s : State} (runs : groomRuns c s = true)
include runs

/-- A pass that is due starts at word 0, and one that ended late before it is counted (R251, R252). -/
theorem exec_groomerPassStart (idle : (s.core c).groomActive = false) (due : (s.core c).groomStart + (s.core c).groomPeriod ≤ s.clock) :
    exec (.groomerPassStart c) s = .next (
      let k := s.core c
      let t := if k.groomStart + k.groomPeriod < k.groomEnd then s.bump 0x5014 5 1 else s
      t.modCore c (fun k => { k with groomActive := true, groomStart := t.clock, groomPeriod := t.groomBeats, groomAt := 0 })) := by
  change execGroomerPassStart c s = _
  simp only [execGroomerPassStart, runs, idle, Nat.not_lt.mpr due, Bool.not_true, Bool.or_self, decide_false, Bool.false_eq_true, if_false]

/-- The word in turn is visited and the scan moves on (R251-R253). -/
theorem exec_groomerVisit (active : (s.core c).groomActive = true) (idle : (s.core c).rewriteQ = [])
    (inside : (s.core c).groomAt + 1 < spadBytes / 8) : exec (.groomerVisit c) s =
      .next (((groomWord c (s.core c).groomAt s).advanceKey (statKey (0x1000 + c) 0x56) 1).modCore c (fun q =>
        { q with groomAt := (s.core c).groomAt + 1 })) := by
  change execGroomerVisit c s = _
  simp only [execGroomerVisit, runs, active, idle, inside, List.isEmpty_nil, Bool.not_true, Bool.or_self, Bool.false_eq_true, if_false, if_true]

/-- The oldest queued address is rewritten and leaves the queue (R247, R252). -/
theorem exec_groomerRewrite {a : Nat} {rest : List Nat} (queued : (s.core c).rewriteQ = a :: rest) : exec (.groomerRewrite c) s =
    .next (groomWord c (a / 8) (s.modCore c (fun q => { q with rewriteQ := rest }))) := by
  change execGroomerRewrite c s = _
  simp only [execGroomerRewrite, runs, queued, Bool.not_true, Bool.false_eq_true, if_false]

end Groomer

/-- Settles O16, a command at a time. -/
theorem fetchEngineAndGroomer : Obligations.FetchEngineAndGroomer := by
  refine fun c s => ⟨fun o tag first free up room => ?issue, fun p rest head reply own => ?reply, fun o => exec_fetchComplete,
    exec_groomerPassStart, exec_groomerVisit, fun a rest runs => exec_groomerRewrite runs⟩
  case issue =>
    exact ⟨exec_fetchRequestIssue_reads first free up room, fun d s1 => exec_fetchRequestIssue_writes first free up room⟩
  case reply =>
    exact ⟨exec_fetchReply_stale head reply own, fun r => exec_fetchReply_done head reply own⟩

end Sys2Proof.Machine
end

section
/-! SUPPORT. Headers that cross a link, drained routers and the answers to service multicasts
(R263, R264, R281, R283, R286, R292-R294). -/
namespace Sys2Proof.Machine

section Header
variable {c : Nat} {d : Dir} {p : Pkt} {rest : List Pkt} {s : State}

/-- What becomes of the next packet on a link by what its check bits show (R264, R292). -/
def headerCrosses (c : Nat) (d : Dir) (p : Pkt) (rest : List Pkt) (s : State) : LinkEcc → State
  | .clean => takeHeader c d p rest s
  | .corrected n => takeHeader c d p rest (s.bumpCore c 0x60 n)
  | .uncorrectable => meshFault 0x83 (linkPacks c d) c (meshFaultWord 0x83 0 0 d.code 0 c)
      (s.modCore c (fun k => k.setInput d { k.input d with stuck := true }))

/-- The next packet on a link that is not blocked crosses it as its check bits show (R264, R281, R292). -/
theorem exec_headerArrival {c : CoreId} (unblocked : ((s.core c).input d).stuck = false) (next : nextOnLink c d s = some (p, rest))
    (ecc : LinkEcc) : exec (.headerArrival c d ecc) s = .next (headerCrosses c d p rest s ecc) := by
  change execHeaderArrival c d ecc s = _
  simp only [execHeaderArrival, unblocked, next, Bool.false_eq_true, if_false]
  cases ecc <;> rfl

/-- A packet in a router input's buffer, with the beat of its arrival (R281). -/
def arrivesNow (c : Nat) (d : Dir) (p : Pkt) (s : State) : Arrived := { pkt := p, at_ := s.howl, gap := flitBeats c d s }

/-- A fetch header enters the fetch buffer (R281). -/
theorem takeHeader_fetch (fetch : p.isFetch = true) : takeHeader c d p rest s =
    let i := { (s.core c).input d with link := rest }
    s.setCore c ((s.core c).setInput d { i with fetch := i.fetch ++ [arrivesNow c d p s] }) := if_pos fetch

section Data
variable (data : p.isFetch = false)
include data

/-- A service header enters the service buffer (R281). -/
theorem takeHeader_svc (service : p.isSvc = true) : takeHeader c d p rest s =
    let i := { (s.core c).input d with link := rest }
    s.setCore c ((s.core c).setInput d { i with svc := i.svc ++ [arrivesNow c d p s] }) :=
  (if_neg (Bool.eq_false_iff.mp data)).trans (if_pos service)

variable (scheduled : p.isSvc = false)
include scheduled

/-- A scheduled header that every output of its path waits for enters the scheduled buffer (R263, R281; before a
program's first launch the shadow tables are asked too, log entry 12). -/
theorem takeHeader_matched (matched : (outDirs s.device c d p).all (fun q => hasMatch ((s.core c).output q) d p.hdr) = true) :
    takeHeader c d p rest s =
      let i := { (s.core c).input d with link := rest }
      s.setCore c ((s.core c).setInput d { i with sched := i.sched ++ [arrivesNow c d p s] }) := by
  have noneLacks : (outDirs s.device c d p).find? (fun q => !hasMatch ((s.core c).output q) d p.hdr) = none :=
    List.find?_eq_none.mpr fun q mem => by simp [List.all_eq_true.mp matched q mem]
  simp only [takeHeader, data, scheduled, noneLacks, Bool.false_eq_true, if_false]
  rfl

/-- A scheduled header that an output of its path does not wait for is held and is mesh fault 0x80 (R292). -/
theorem takeHeader_unmatched {q : Dir}
    (lacks : (outDirs s.device c d p).find? (fun q => !hasMatch ((s.core c).output q) d p.hdr) = some q) : takeHeader c d p rest s =
      let i := { (s.core c).input d with link := rest }
      meshFault 0x80 [packOf c] c (meshFaultWord 0x80 p.hdr.period p.hdr.tag q.code ((s.core c).output q).head c)
        (s.setCore c ((s.core c).setInput d { i with held := i.held ++ [p] })) := by
  simp only [takeHeader, data, scheduled, lacks, Bool.false_eq_true, if_false]

end Data
end Header

section Drained
variable {c : CoreId} {s : State} (empty : (s.core c).routerEmpty = true)
include empty

/-- A router that drains in a teardown, its tables done, goes back to the idle table (R280, R283). -/
theorem exec_routerDrained_teardown (ends : (s.pack (packOf c)).teardown.isSome = true) (done : (s.core c).tablesDone = true) :
    exec (.routerDrained c) s =
      .next (s.setCore c ((s.core c).mapOutputs (fun o => if o.table.idle && o.shadow.isNone then o else o.toIdle s.howl))) := by
  change execRouterDrained c s = _
  simp only [execRouterDrained, empty, ends, done, Bool.not_true, Bool.false_eq_true, if_false, if_true]

/-- A drained router of a launched program that still has shadow tables switches to them (R283). -/
theorem exec_routerDrained_launched (stays : (s.pack (packOf c)).teardown = none) (launched : (s.pack (packOf c)).everLaunched = true)
    (shadow : Dir.all.any (fun q => ((s.core c).output q).shadow.isSome) = true) : exec (.routerDrained c) s =
      .next (s.setCore c ((s.core c).mapOutputs (fun o => o.toShadow (s.pack (packOf c)).launchAt))) := by
  change execRouterDrained c s = _
  simp only [execRouterDrained, empty, stays, launched, shadow, Option.isSome_none, Bool.and_self, Bool.not_true, Bool.false_eq_true,
    if_false, if_true]

end Drained

section Mcast
variable {c : CoreId} {s : State} {m : SvcMcast}

/-- A leaf's answer leaves the L output and is entered in the oldest multicast that waits for it, which ends with its last leaf's answer
(R286; the answer's form and how it finds its multicast are log entry 13). -/
theorem exec_serviceAnswer {p : Pkt} {rest : List Pkt} (head : (s.core c).lq = p :: rest) (answer : p.hdr.ptype = 0x0D)
    (waits : (s.core c).mcasts.find? (fun m => m.hdr.dstBowl = p.hdr.dstBowl && m.leaves.contains p.hdr.srcCore &&
      !m.answered.contains p.hdr.srcCore) = some m) : exec (.serviceAnswer c) s = .next (
    let m' := m.answer p.hdr.srcCore (decide (nth 0 p.words 0 ≠ 0))
    let t := s.setCore c { s.core c with lq := rest, mcasts := (s.core c).mcasts.map (fun x => if x = m then m' else x) }
    if m'.leaves.all (fun l => m'.answered.contains l) then endMcast c m' t else t) := by
  change execServiceAnswer c s = _
  simp only [execServiceAnswer, head, answer, waits, State.modCore_self, State.modCore_modCore, ne_eq, not_true_eq_false, if_false]
  rfl

/-- A multicast that left 2^14 beats ago ends (R286). -/
theorem exec_serviceMcastTimeout
    (due : (s.core c).mcasts.find? (fun m => m.left && decide ((2 : Int) ^ 14 ≤ howlDiff s.howl m.sentAt)) = some m) :
    exec (.serviceMcastTimeout c) s = .next (endMcast c m s) := by
  change execServiceMcastTimeout c s = _
  simp only [execServiceMcastTimeout, due]

end Mcast

/-- Settles O9, a command at a time; a header that is taken, by its class. -/
theorem headersAnswersAndDrains : Obligations.HeadersAnswersAndDrains := by
  refine fun c d s => ⟨fun p rest unblocked next => ?crosses, fun p rest => ?taken, rfl, exec_routerDrained_teardown,
    exec_routerDrained_launched, fun p rest m => exec_serviceAnswer, fun m => exec_serviceMcastTimeout⟩
  case crosses =>
    have crosses := exec_headerArrival unblocked next
    exact ⟨crosses .clean, fun n => crosses (.corrected n), crosses .uncorrectable⟩
  case taken =>
    exact ⟨takeHeader_fetch, takeHeader_svc, takeHeader_matched, fun q data scheduled => takeHeader_unmatched data scheduled⟩

end Sys2Proof.Machine
end

section
/-! SUPPORT. The judgement of a packet at a Bowl, a step at a time: the first step that decides ends it (R299, R304). -/
namespace Sys2Proof.Machine

section Judge
variable {b : Bowl} {h : Hdr}

/-- A data block or a service block (R304). -/
abbrev Hdr.IsBlock (h : Hdr) : Prop := h.ptype = 0x01 ∨ h.ptype = 0x04

/-- A block that ends past the receive window (R304, R305). -/
abbrev PastWindow (b : Bowl) (h : Hdr) : Prop := h.IsBlock ∧ bWin b * 64 < h.doff * 64 + 256 * h.len

/-- The Bowl's ring has `k` consecutive entries free, the pad to the ring's end counted where they would wrap (R299, R304). -/
abbrev FitsInRing (b : Bowl) (k : Nat) : Prop :=
  let room := bDepth b - b.wpNext.toNat % bDepth b
  (if k ≤ room then k else room + k) ≤ bDepth b - (b.wpNext - b.rp).toNat

/-- The judgement's last step: the entries needed and those free (R304). -/
def judgeEntries (b : Bowl) (h : Hdr) : Judgement :=
  if bowlNeed h = 0 ∨ FitsInRing b (bowlNeed h) then .write else if bSvc b = true then .refuse 0x02 else .hold

/-- The judgement from the test of the receive window on (R304). -/
def judgeWindow (b : Bowl) (h : Hdr) : Judgement := if PastWindow b h then .refuse 0x04 else judgeEntries b h

/-- The judgement from the test of the class on (R304). -/
def judgeClass (b : Bowl) (h : Hdr) : Judgement := if h.service ≠ bSvc b then .refuse 0x03 else judgeWindow b h

/-- The judgement from the test of the open state on (R304). -/
def judgeOpen (b : Bowl) (h : Hdr) : Judgement :=
  if bConf b = false ∨ b.isOpen = false then .refuse 0x01 else judgeClass b h

/-- The entries a packet needs, by whether it is a block. -/
theorem bowlNeed_eq (h : Hdr) : bowlNeed h = if h.IsBlock then (if h.note then 1 else 0) else (h.nw + 3) / 4 := by
  simp only [bowlNeed, Bool.or_eq_true, decide_eq_true_eq]

/-- The model's judgement is the test of the generation and then the other steps. -/
theorem judge_eq (b : Bowl) (h : Hdr) : judge b h = if h.gen ≠ bGen b then .discard else judgeOpen b h := by
  simp only [judge, judgeOpen, judgeClass, judgeWindow, judgeEntries, ite_or, PastWindow, Hdr.IsBlock, FitsInRing, ← not_le, ite_not,
    Bool.or_eq_true, Bool.and_eq_true, decide_eq_true_eq, Bool.not_eq_true']

/-- A step answers with its own judgement or one of the later steps'. -/
theorem ite_mem_cons {c : Prop} [Decidable c] {j later : Judgement} {js : List Judgement} (mem : later ∈ js) :
    (if c then j else later) ∈ j :: js := by
  split
  · exact List.mem_cons_self
  · exact List.mem_cons_of_mem j mem

/-- A step's own judgement, where no later step gives it, comes just where its test holds. -/
theorem step_decides_iff {c : Prop} [Decidable c] {j later : Judgement} {js : List Judgement} (mem : later ∈ js) (new : j ∉ js) :
    (if c then j else later) = j ↔ c := (ne_of_mem_of_not_mem mem new).symm.ite_eq_left_iff

/-- What the last step can answer. -/
theorem judgeEntries_mem (b : Bowl) (h : Hdr) : judgeEntries b h ∈ [.write, .refuse 0x02, .hold] :=
  ite_mem_cons (ite_mem_cons List.mem_cons_self)

/-- What the steps from the receive window on can answer. -/
theorem judgeWindow_mem (b : Bowl) (h : Hdr) : judgeWindow b h ∈ [.refuse 0x04, .write, .refuse 0x02, .hold] :=
  ite_mem_cons (judgeEntries_mem b h)

/-- What the steps from the class on can answer. -/
theorem judgeClass_mem (b : Bowl) (h : Hdr) : judgeClass b h ∈ [.refuse 0x03, .refuse 0x04, .write, .refuse 0x02, .hold] :=
  ite_mem_cons (judgeWindow_mem b h)

/-- What the steps from the open state on can answer. -/
theorem judgeOpen_mem (b : Bowl) (h : Hdr) :
    judgeOpen b h ∈ [.refuse 0x01, .refuse 0x03, .refuse 0x04, .write, .refuse 0x02, .hold] :=
  ite_mem_cons (judgeClass_mem b h)

/-- Only a packet of another generation is discarded (R304). -/
theorem judge_discard_iff : judge b h = .discard ↔ h.gen ≠ bGen b := by
  rw [judge_eq]
  exact step_decides_iff (judgeOpen_mem b h) (by decide)

/-- A Bowl not configured or not open, and no other, refuses with reason 0x01 (R304, R310). -/
theorem judgeOpen_refuse_iff : judgeOpen b h = .refuse 0x01 ↔ bConf b = false ∨ b.isOpen = false :=
  step_decides_iff (judgeClass_mem b h) (by decide)

/-- A packet of the wrong class, and no other, is refused with reason 0x03 (R304, R310). -/
theorem judgeClass_refuse_iff : judgeClass b h = .refuse 0x03 ↔ h.service ≠ bSvc b :=
  step_decides_iff (judgeWindow_mem b h) (by decide)

/-- A block past the receive window, and no other packet, is refused with reason 0x04 (R304, R310). -/
theorem judgeWindow_refuse_iff : judgeWindow b h = .refuse 0x04 ↔ PastWindow b h :=
  step_decides_iff (judgeEntries_mem b h) (by decide)

section Entries
variable {k : Nat} (need : bowlNeed h = k)
include need

/-- A packet that needs no entry, or whose entries are free, is written (R304). -/
theorem judgeEntries_write_iff : judgeEntries b h = .write ↔ k = 0 ∨ FitsInRing b k := by
  subst need
  exact step_decides_iff (ite_mem_cons (List.mem_singleton_self Judgement.hold)) (by decide)

/-- A packet whose entries are not free is answered by the Bowl's class (R304). -/
theorem judgeEntries_eq_iff_of_ne_write {j : Judgement} (other : j ≠ .write) : judgeEntries b h = j ↔
    k ≠ 0 ∧ ¬ FitsInRing b k ∧ (if bSvc b = true then .refuse 0x02 else .hold) = j := by
  rw [judgeEntries, need, ite_eq_iff, not_or, and_assoc]
  exact or_iff_right (fun written => other written.2.symm)

/-- A full service Bowl refuses with reason 0x02 (R304, R310). -/
theorem judgeEntries_refuse_iff : judgeEntries b h = .refuse 0x02 ↔ k ≠ 0 ∧ ¬ FitsInRing b k ∧ bSvc b = true := by
  rw [judgeEntries_eq_iff_of_ne_write need (by decide), Ne.ite_eq_left_iff (by decide)]

/-- A full data Bowl holds the packet (R304, R306). -/
theorem judgeEntries_hold_iff : judgeEntries b h = .hold ↔ k ≠ 0 ∧ ¬ FitsInRing b k ∧ bSvc b = false := by
  rw [judgeEntries_eq_iff_of_ne_write need (by decide), Ne.ite_eq_right_iff (by decide), Bool.not_eq_true]

end Entries

/-- A packet of the Bowl's generation goes on to the test of the open state. -/
theorem judge_current (current : h.gen = bGen b) : judge b h = judgeOpen b h := (judge_eq b h).trans (if_neg (not_not_intro current))

/-- A Bowl configured and open goes on to the test of the class. -/
theorem judgeOpen_open (conf : bConf b = true) (opened : b.isOpen = true) : judgeOpen b h = judgeClass b h :=
  if_neg (by simp only [conf, opened, Bool.true_eq_false, or_self, not_false_eq_true])

/-- A packet of the Bowl's class goes on to the test of the receive window. -/
theorem judgeClass_same (same : h.service = bSvc b) : judgeClass b h = judgeWindow b h := if_neg (not_not_intro same)

/-- A packet within the receive window goes on to the count of the entries. -/
theorem judgeWindow_inside (inside : ¬ PastWindow b h) : judgeWindow b h = judgeEntries b h := if_neg inside

end Judge

/-- Settles O10, a step of the judgement at a time: each decides by its own test or goes on to the next. -/
theorem bowlJudgementFollowsTheRule : Obligations.BowlJudgementFollowsTheRule := by
  intro b h block k room free fits
  have need : bowlNeed h = k := bowlNeed_eq h
  refine ⟨judge_discard_iff, fun current => ?_⟩
  rw [judge_current current]
  refine ⟨judgeOpen_refuse_iff, fun conf opened => ?_⟩
  rw [judgeOpen_open conf opened]
  refine ⟨judgeClass_refuse_iff, fun same => ?_⟩
  rw [judgeClass_same same]
  refine ⟨judgeWindow_refuse_iff, fun inside => ?_⟩
  rw [judgeWindow_inside inside]
  exact ⟨judgeEntries_write_iff need, judgeEntries_refuse_iff need, judgeEntries_hold_iff need⟩

end Sys2Proof.Machine
end

section
/-! SUPPORT. Loading: the load commands, the end of a check and the end of an installation (R328-R330, R332, R335, R410, R602, R603). -/
namespace Sys2Proof.Machine

/-- Nothing differs but the counters, what records their saturation, and the messages and notifications of its alert. -/
def CountsOnly (s t : State) : Prop := t = { s with
  stats := t.stats, statsFirst := t.statsFirst, statsSat := t.statsSat, faults := t.faults, host := t.host, mgmt := t.mgmt }

theorem CountsOnly.trans {s t u : State} (h : CountsOnly s t) (h' : CountsOnly t u) : CountsOnly s u := by
  unfold CountsOnly at *
  rw [h', h]

theorem CountsOnly.bumpRaw (s : State) (key n : Nat) : CountsOnly s (s.bumpRaw key n) := by
  unfold State.bumpRaw; dsimp only; split_ifs <;> rfl

theorem CountsOnly.raiseMsix (fn v : Nat) (s : State) : CountsOnly s (raiseMsix fn v s) := by
  unfold Machine.raiseMsix; dsimp only; split_ifs
  · exact .bumpRaw s _ _
  · rfl
  · rfl

theorem CountsOnly.notify (kind : Nat) (body : List Byte) (s : State) : CountsOnly s (notify kind body s) := by
  unfold Machine.notify; split_ifs
  · rfl
  · exact .bumpRaw s _ _

/-- Counting changes the counters, and at a first saturation what announces it (R493). -/
theorem CountsOnly.bump (s : State) (idx sub n : Nat) : CountsOnly s (s.bump idx sub n) := by
  unfold State.bump State.bumpKey; dsimp only; split_ifs
  · exact .bumpRaw s _ _
  · exact (CountsOnly.bumpRaw s _ _).trans ((CountsOnly.notify _ _ _).trans (.raiseMsix _ _ _))

/-- Counting leaves the load registers. -/
theorem State.bump_load (s : State) (idx sub n : Nat) : (s.bump idx sub n).load = s.load := by
  rw [CountsOnly.bump s idx sub n]

section Packs

/-- Packs changed one after the other, each as the state then says. -/
def State.modPacks (f : State → Pack → Pack) (l : List Nat) (s : State) : State := l.foldl (fun s p => s.modPack p (f s)) s

variable {f : State → Pack → Pack} {l : List Nat} {p : Nat}

/-- Changing packs changes only packs. -/
theorem State.modPacks_only (f : State → Pack → Pack) (l : List Nat) (s : State) :
    s.modPacks f l = { s with packs := (s.modPacks f l).packs } := by
  induction l generalizing s with
  | nil => rfl
  | cons q l ih => exact ih _

/-- A pack that is not listed is left. -/
theorem State.modPacks_pack_of_notMem (s : State) (out : p ∉ l) : (s.modPacks f l).pack p = s.pack p := by
  induction l generalizing s with
  | nil => rfl
  | cons q l ih =>
    obtain ⟨other, out⟩ := not_or.mp (List.mem_cons.not.mp out)
    exact (ih _ out).trans (s.modPack_other q _ other)

/-- A listed pack is as the change leaves it, whatever that is of every pack. -/
theorem State.modPacks_pack_of_mem {P : Pack → Prop} (changed : ∀ s k, P (f s k)) (s : State) (listed : p ∈ l) :
    P ((s.modPacks f l).pack p) := by
  induction l generalizing s with
  | nil => exact absurd listed List.not_mem_nil
  | cons q l ih =>
    by_cases again : p ∈ l
    · exact ih _ again
    · obtain rfl := (List.mem_cons.mp listed).resolve_right again
      have last : (s.modPacks f (p :: l)).pack p = f s (s.pack p) := (modPacks_pack_of_notMem _ again).trans (s.modPack_self p _)
      exact last ▸ changed s _

end Packs

/-- Leaving a TAP instruction changes only the TAP (R628). -/
theorem tapYield_only (s : State) : tapYield s = { s with jtag := (tapYield s).jtag } := by
  unfold tapYield; split <;> rfl

/-- Following PACK_STATE changes only the power state (R602, R603). -/
theorem refreshDev_only (s : State) : refreshDev s = { s with power := (refreshDev s).power } := by
  unfold refreshDev; dsimp only; split_ifs <;> rfl

section Commands
variable {s : State} (only : Bool)

/-- A check or an installation is under way: a new check is busy (R329). -/
theorem startCheck_busy (busy : s.load.state = .checking ∨ s.load.state = .installing) : startCheck only s = (stBusy, s) :=
  if_pos (by simpa only [Bool.or_eq_true, decide_eq_true_eq] using busy)

/-- With neither under way a check is refused, or it starts (R329, R410). -/
theorem startCheck_free (notChecking : s.load.state ≠ .checking) (notInstalling : s.load.state ≠ .installing) : startCheck only s =
    if s.loadRefused then (stState, s) else (stDone, { tapYield s with load := { s.load with
    state := .checking, checkOnly := only, image := s.imageAddr, packs := (s.img s.imageAddr).mask, startedAt := s.howl } }) := by
  have free : (decide (s.load.state = .checking) || decide (s.load.state = .installing)) = false := by
    simp only [notChecking, notInstalling, decide_false, Bool.or_self]
  rw [startCheck, free, if_neg Bool.false_ne_true]
  split
  · rfl
  · rw [tapYield_only]; rfl

variable (answers : Answering s)
include answers

/-- LOAD_COMMAND 1 and 2 answer the status of `startCheck` and leave its state (R329). -/
theorem exec_startCheck {status : Nat} {t : State} (check : startCheck only s = (status, t)) :
    exec (if only then .checkOnly else .checkAndInstall) s = .next { t with out := [BitVec.ofNat 8 status] } := by
  have command : exec (if only then .checkOnly else .checkAndInstall) s = .next (s.command (startCheck only)) := by
    cases only
    · rfl
    · rfl
  rw [command, s.command_booted _ answers.1 answers.2, check]

/-- LOAD_COMMAND 3 during a check ends it (R329). -/
theorem exec_loadAbort_checking (checking : s.load.state = .checking) :
    exec .loadAbort s = .next { s with load := { s.load with state := .idle }, out := [0] } := by
  change Host.Outcome.next (s.command loadAbort) = _
  rw [s.command_booted loadAbort answers.1 answers.2, loadAbort, checking]
  rfl

/-- LOAD_COMMAND 3 tears down a program that is installing or installed (R329). -/
theorem exec_loadAbort_loaded (loaded : s.load.state = .installing ∨ s.load.state = .installed) :
    exec .loadAbort s = .next
      { refreshDev { startTeardown s.load.prog 0 s with load := { s.load with state := .idle } } with out := [0] } := by
  change Host.Outcome.next (s.command loadAbort) = _
  rw [s.command_booted loadAbort answers.1 answers.2, loadAbort]
  rcases loaded with loaded | loaded
  · rw [loaded]; rfl
  · rw [loaded]; rfl

end Commands

section CheckDone
variable {s : State}

/-- A failed load: its code with the time, LOAD_STATE 4, and the rest left (R328, R332). -/
theorem loadFails_load (w : Word) (s : State) : (loadFails w s).load = { s.load with state := .failed, result := w, resultTime := s.howl } :=
  State.bump_load _ _ _ _

/-- A check that fails (R332, R335). -/
theorem exec_pedigreeCheckDone_fails {w : Word} (checking : s.load.state = .checking) (fails : s.pedigree s.load.image = some w) :
    exec .pedigreeCheckDone s = .next (loadFails w (readImage s.load.image s)) := by
  change execPedigreeCheckDone s = _
  simp only [execPedigreeCheckDone, checking, fails, ne_eq, not_true_eq_false, if_false]

/-- Image `m` takes program slot `n` and its packs (R330). -/
def State.place (m : Image) (n : Nat) (u : State) : State :=
  ((setLoadResult 0 .installing u).setProg n (programOf m u)).modPacks (fun s k => { k with prog := some n, level := s.checkLevelOf n })
    (packsIn m.hdr.mask)

/-- The installation of the checked image begins, in the lowest free slot (R328, R330). -/
def State.beginInstall (u : State) : State :=
  let n := u.freeProg
  let t := u.place (u.image u.load.image n) n
  { t with load := { t.load with prog := n } }

/-- A check that passes ends at LOAD_STATE 5, or goes on to the installation; `u` is the state with the image read and the pass counted
(R330, R332). -/
theorem exec_pedigreeCheckDone_passes {u : State} (checking : s.load.state = .checking) (passes : s.pedigree s.load.image = none)
    (counted : (readImage s.load.image s).bump 0x5017 1 1 = u) :
    exec .pedigreeCheckDone s = .next (if u.load.checkOnly then setLoadResult 0 .passed u else u.beginInstall) := by
  change execPedigreeCheckDone s = _
  simp only [execPedigreeCheckDone, checking, passes, counted, ne_eq, not_true_eq_false, if_false]
  split
  · rfl
  · rfl

variable (m : Image) (n : Nat) (u : State)

/-- Placing an image changes its program, its packs and LOAD_STATE with its result. -/
theorem State.place_only : u.place m n = { setLoadResult 0 .installing u with
    progs := (u.setProg n (programOf m u)).progs, packs := (u.place m n).packs } := State.modPacks_only _ _ _

/-- As an installation begins the load registers name its program (R328). -/
theorem State.beginInstall_load :
    u.beginInstall.load = { u.load with state := .installing, result := 0, resultTime := u.howl, prog := u.freeProg } := by
  rw [State.beginInstall, State.place_only]
  rfl

/-- The beginning of an installation changes the load registers, the programs and the packs. -/
theorem State.beginInstall_only :
    u.beginInstall = { u with load := u.beginInstall.load, progs := u.beginInstall.progs, packs := u.beginInstall.packs } := by
  rw [State.beginInstall, State.place_only]
  rfl

/-- The lowest free slot holds the image's program (R330). -/
theorem State.beginInstall_prog : u.beginInstall.prog u.freeProg = programOf (u.image u.load.image u.freeProg) u := by
  rw [State.beginInstall, State.place_only]
  exact u.setProg_self _ _

variable {p : Nat}

/-- The image's packs are the program's (R330). -/
theorem State.beginInstall_pack (mine : p ∈ packsIn (u.image u.load.image u.freeProg).hdr.mask) :
    (u.beginInstall.pack p).prog = some u.freeProg :=
  State.modPacks_pack_of_mem (P := fun k => k.prog = some u.freeProg) (fun _ _ => rfl) _ mine

/-- Every other pack is left. -/
theorem State.beginInstall_pack_other (other : p ∉ packsIn (u.image u.load.image u.freeProg).hdr.mask) :
    u.beginInstall.pack p = u.pack p :=
  State.modPacks_pack_of_notMem _ other

end CheckDone

section InstallDone
variable {s : State}

/-- The cores of the packs lose their fence, the used ones are filled, and the contexts are written (R298, R330, R338). -/
def State.fillCores (m : Image) (s : State) : State :=
  let s := (packsIn m.hdr.mask).foldl (fun s p => (packCores p).foldl (fun s c =>
    if (s.core c).fence = 0 then s else s.modCore c (fun k => { k with fence := 0 })) s) s
  let s := m.cores.foldl (fun s x =>
    let w := readWeights m.hdr.base x s
    (installSpad x w.1 w.2).modCore x.core (fun k => installCore x m.claims k)) s
  m.ctxs.foldl (fun s x => installCtx x.1 x.2 s) s

/-- A pack in which a program has just been installed (R330). -/
def Pack.install (clock : Nat) (k : Pack) : Pack := { k with
  state := .installed, queue := [], nextStep := 0, step := 0, inStep := false, everLaunched := false, posted := false
  goAt := none, overran := false, headLate := false, goLate := false
  retr := { Retriever.reset with tagGen := k.retr.tagGen, tableErr := k.retr.tableErr }, teardown := none, stopping := false, lastProg := clock }

/-- Packs no longer degraded, as far as they were. -/
def State.undegrade (l : List Nat) (s : State) : State := l.foldl (fun s p =>
  if (tabGet VetPack.reset s.vet.packs p).degraded then
    { s with vet := { s.vet with packs := tabMod .reset s.vet.packs p (fun v => { v with degraded := false }) } }
  else s) s

/-- Ending the degradation of packs changes only their vet records. -/
theorem State.undegrade_only (l : List Nat) (s : State) : s.undegrade l = { s with vet := (s.undegrade l).vet } := by
  induction l generalizing s with
  | nil => rfl
  | cons p l ih =>
    unfold State.undegrade at *
    rw [List.foldl_cons, ih]
    split <;> rfl

/-- The installation ends: cores, contexts and packs are written and LOAD_STATE is 3 (R328, R330). -/
def State.endInstall (m : Image) (s : State) : State :=
  let t := ((s.fillCores m).modPacks (fun s => Pack.install s.clock) (packsIn m.hdr.mask)).undegrade (packsIn m.hdr.mask)
  refreshDev { t with load := { t.load with state := .installed } }

/-- An installation ends when every used core's router is drained and no vet slice runs there (R330, R444). -/
theorem exec_installDone (installing : s.load.state = .installing)
    (ready : (s.image s.load.image s.load.prog).cores.all (fun x => (s.core x.core).routerEmpty && !(s.core x.core).vetting) = true) :
    exec .installDone s = .next (s.endInstall (s.image s.load.image s.load.prog)) := by
  change execInstallDone s = _
  exact if_neg (by rw [ready, decide_eq_false (not_not.mpr installing)]; decide)

variable (m : Image)

/-- LOAD_STATE is 3 once the installation has ended (R328). -/
theorem State.endInstall_state (s : State) : (s.endInstall m).load.state = .installed := by
  rw [State.endInstall, refreshDev_only]

/-- What the install makes of whatever pack holds of the program's packs once the installation has ended (R330). -/
theorem State.endInstall_pack {P : Pack → Prop} (installed : ∀ clock k, P (Pack.install clock k)) (s : State) {p : Nat}
    (mine : p ∈ packsIn m.hdr.mask) : P ((s.endInstall m).pack p) := by
  rw [State.endInstall, refreshDev_only, State.undegrade_only]
  exact State.modPacks_pack_of_mem (fun s => installed s.clock) _ mine

end InstallDone

/-- Settles O20, a command at a time; the end of a check by its result. -/
theorem loadCommandsAndInstall : Obligations.LoadCommandsAndInstall := by
  refine fun s => ⟨fun answers busy => ?busy, fun answers checking installing refused => ?refused,
    fun answers checking installing allowed only => ?starts, exec_loadAbort_checking, fun answers loaded => ?teardown,
    fun w => exec_pedigreeCheckDone_fails, fun w => ?failed, fun checking passes => ?passed,
    fun installing ready => ?installed⟩
  case busy =>
    have busy only := exec_startCheck only answers (startCheck_busy only busy)
    exact ⟨busy false, busy true⟩
  case refused =>
    have refused only := exec_startCheck only answers ((startCheck_free only checking installing).trans (if_pos refused))
    exact ⟨refused false, refused true⟩
  case starts =>
    exact exec_startCheck only answers ((startCheck_free only checking installing).trans (if_neg (ne_true_of_eq_false allowed)))
  case teardown =>
    exact ⟨_, exec_loadAbort_loaded answers loaded, rfl, by rw [refreshDev_only], rfl⟩
  case failed =>
    exact ⟨loadFails_load w s, by rw [loadFails_load]; rfl⟩
  case passed =>
    dsimp only
    generalize counted : (readImage s.load.image s).bump 0x5017 1 1 = u
    have ends := exec_pedigreeCheckDone_passes checking passes counted
    have prog := u.beginInstall_prog
    exact ⟨fun only => ends.trans (congrArg Host.Outcome.next (if_pos only)),
      fun full => ⟨_, ends.trans (congrArg Host.Outcome.next (if_neg (ne_true_of_eq_false full))), u.beginInstall_only, u.beginInstall_load,
        congrArg Program.packs prog, congrArg Program.imageAddr prog, congrArg Program.opset prog, congrArg Program.compiler prog,
        congrArg Program.checkLevel prog, fun _ => u.beginInstall_pack, fun _ => u.beginInstall_pack_other⟩⟩
  case installed =>
    exact ⟨_, exec_installDone installing ready, State.endInstall_state _ s, fun p mine =>
      State.endInstall_pack _ (P := fun k => k.state = .installed ∧ k.queue = [] ∧ k.everLaunched = false ∧ k.posted = false ∧ k.goAt = none ∧
        k.teardown = none) (fun _ _ => ⟨rfl, rfl, rfl, rfl, rfl, rfl⟩) s mine⟩

end Sys2Proof.Machine
end

section
/-! SUPPORT. The input entries that the ring controller reads, and the Retriever's answer to their parameters (R341-R344). -/
namespace Sys2Proof.Machine

/-- What the ring controller does with an entry of program `g` that it has read: refusal, the Retriever's judgement of its parameters, or a
post to the input Collar (R344). -/
def answerEntry (n g : Nat) (l : List Byte) (u : State) : State :=
  if entMalformed l (u.prog g).windows then ringRefuse n u
  else if entKind l = 2 then u.modCtx n (fun k => { k with stage := .params (entParams l).ok })
  else postInput n (u.modCtx n (fun k => { k with stage := .posted }))

section Answer
variable {n g : Nat} {l : List Byte} {u : State}

/-- A malformed entry is refused (R344). -/
theorem answerEntry_malformed (malformed : entMalformed l (u.prog g).windows = true) : answerEntry n g l u = ringRefuse n u :=
  if_pos malformed

variable (sound : entMalformed l (u.prog g).windows = false)
include sound

/-- A PARAMS entry waits for the Retriever's answer (R343, R344). -/
theorem answerEntry_params (params : entKind l = 2) :
    answerEntry n g l u = u.modCtx n (fun k => { k with stage := .params (entParams l).ok }) :=
  (if_neg (ne_true_of_eq_false sound)).trans (if_pos params)

/-- Any other entry is posted to the input Collar (R97, R344). -/
theorem answerEntry_posts (other : entKind l ≠ 2) :
    answerEntry n g l u = postInput n (u.modCtx n (fun k => { k with stage := .posted })) :=
  (if_neg (ne_true_of_eq_false sound)).trans (if_neg other)

end Answer

/-- Only a posted entry is settled (R344). -/
theorem ringSettle_of_not_posted {n : Nat} {s : State} (notPosted : (s.ctx n).stage ≠ .posted) : ringSettle n s = s :=
  if_neg (by rw [decide_eq_false notPosted, Bool.false_and]; exact Bool.false_ne_true)

/-- At idle context `n`, which program `g` owns, the ring controller reads the current entry `l` and leaves state `t` (R344). -/
structure ReadsEntry (n g : Nat) (l : List Byte) (s t : State) : Prop where
  owned : (s.ctx n).owner = some g
  idle : (s.ctx n).stage = .idle
  announced : (s.ctx n).inSeen ≠ (s.ctx n).inTail
  rails : s.power.rails = true
  running : (s.pack (n % 16)).retr.stopped = false
  read : ringRead ((s.ctx n).inAddr (s.ctx n).inSeen) 64 s = (.done l, t)

/-- The context of state `s` keeps the entry whose read left state `t` (R344). -/
def keepEntry (n : Nat) (l : List Byte) (s t : State) : State := t.setCtx n { s.ctx n with pendEntry := l }

/-- An entry that has been read is answered by the command of its kind (R344). -/
theorem ReadsEntry.answers {n g : Nat} {l : List Byte} {s t : State} (reads : ReadsEntry n g l s t) {kinds : Nat → Bool}
    (kind : kinds (entKind l) = true) : inputEntry n kinds s = answerEntry n g l (keepEntry n l s t) := by
  obtain ⟨owned, idle, announced, rails, running, read⟩ := reads
  have settled : ringSettle n s = s := ringSettle_of_not_posted (by rw [idle]; decide)
  simp only [inputEntry, settled, owned, idle, announced, rails, running, read, kind, ne_eq, not_true_eq_false, decide_false, Bool.not_true,
    Bool.or_self, Bool.false_eq_true, if_false, answerEntry, keepEntry]

section Commands
variable {n : CtxId} {g : Nat} {l : List Byte} {s t : State} (reads : ReadsEntry n g l s t)
include reads

/-- INPUT_TOKENS answers a TOKENS entry, and one whose KIND is none of the four (R342, R344). -/
theorem exec_inputTokens (kind : entKind l = 1 ∨ entKind l = 0 ∨ 4 < entKind l) :
    exec (.inputTokens n) s = .next (answerEntry n g l (keepEntry n l s t)) :=
  congrArg Host.Outcome.next (reads.answers (by simpa only [Bool.or_eq_true, decide_eq_true_eq, or_assoc] using kind))

/-- INPUT_PARAMS answers a PARAMS entry (R344). -/
theorem exec_inputParams (kind : entKind l = 2) :
    exec (.inputParams n) s = .next (answerEntry n g l (keepEntry n l s t)) :=
  congrArg Host.Outcome.next (reads.answers (decide_eq_true kind))

/-- INPUT_HANDOFF answers a HANDOFF entry (R341, R344). -/
theorem exec_inputHandoff (kind : entKind l = 3) :
    exec (.inputHandoff n) s = .next (answerEntry n g l (keepEntry n l s t)) :=
  congrArg Host.Outcome.next (reads.answers (decide_eq_true kind))

/-- INPUT_CLOSE answers a CLOSE entry (R344). -/
theorem exec_inputClose (kind : entKind l = 4) :
    exec (.inputClose n) s = .next (answerEntry n g l (keepEntry n l s t)) :=
  congrArg Host.Outcome.next (reads.answers (decide_eq_true kind))

end Commands

/-- An accepted answer puts the entry's parameters in force and consumes the entry (R343, R344). -/
theorem exec_paramsAnswer_accepted {n : CtxId} {s : State} (accepted : (s.ctx n).stage = .params true) :
    exec (.paramsAnswer n) s = .next (consumeEntry n (s.setCtx n { s.ctx n with params := entParams (s.ctx n).pendEntry })) := by
  change execParamsAnswer n s = _
  simp only [execParamsAnswer, accepted]

/-- A refused answer is STATUS 9 (R344). -/
theorem exec_paramsAnswer_refused {n : CtxId} {s : State} (refused : (s.ctx n).stage = .params false) :
    exec (.paramsAnswer n) s = .next (ringRefuse n s) := by
  change execParamsAnswer n s = _
  simp only [execParamsAnswer, refused]

/-- Settles O26: each command answers the entry of its kind, by what the entry is. -/
theorem inputEntriesAreHandled : Obligations.InputEntriesAreHandled := by
  refine fun n s g l t => ⟨fun owned idle announced rails running read => ?entry, exec_paramsAnswer_accepted, exec_paramsAnswer_refused⟩
  have reads : ReadsEntry n g l s t := ⟨owned, idle, announced, rails, running, read⟩
  refine ⟨fun malformed => ?malformed, fun sound => ?sound⟩
  case malformed =>
    have refused : answerEntry n g l (keepEntry n l s t) = _ := answerEntry_malformed malformed
    rw [← keepEntry, ← refused]
    exact ⟨exec_inputTokens reads, exec_inputParams reads, exec_inputHandoff reads, exec_inputClose reads⟩
  case sound =>
    have posts (other : entKind l ≠ 2) : answerEntry n g l (keepEntry n l s t) = _ := answerEntry_posts sound other
    have waits (params : entKind l = 2) : answerEntry n g l (keepEntry n l s t) = _ := answerEntry_params sound params
    exact ⟨fun kind => (exec_inputTokens reads (.inl kind)).trans (congrArg _ (posts (by omega))),
      fun kind => (exec_inputHandoff reads kind).trans (congrArg _ (posts (by omega))),
      fun kind => (exec_inputClose reads kind).trans (congrArg _ (posts (by omega))),
      fun kind => (exec_inputParams reads kind).trans (congrArg _ (waits kind))⟩

end Sys2Proof.Machine
end

section
/-! SUPPORT. A Retriever's samples and completions (R344, R346, R352, R354, R358, R359, R361, R363, R379, R515). -/
namespace Sys2Proof.Machine

/-- The Retriever of a pack whose progress is noted is the one it had. -/
@[simp] theorem State.advancePack_retr (s : State) (p : Nat) : ((s.advancePack p).pack p).retr = (s.pack p).retr := by
  rw [State.advancePack, State.modPack_self]; rfl

/-- What `modRetr` wrote reads back. -/
@[simp] theorem State.modRetr_self (s : State) (p : Nat) (f : Retriever → Retriever) : ((s.modRetr p f).pack p).retr = f (s.pack p).retr :=
  congrArg Pack.retr (State.modPack_self _ _ _)

/-- Taking the packet at a core's L output leaves the packs. -/
@[simp] theorem lqPop_pack (c : Nat) (s : State) (p : Nat) : (lqPop c s).pack p = s.pack p := rfl

section Samples
variable {p : PackId} {s : State}

/-- The lowest ready context starts, or its logits hold an uncorrectable word (R352, R354, R361). -/
theorem exec_sampleStart {x : RetrPair} (running : (s.pack p).retr.stopped = false) (free : (s.pack p).retr.sampling = none)
    (ready : s.readyPair p = some x) : exec (.sampleStart p) s = .next (
      if s.storeBad p x then retrieverFault 0x92 p x.ctx s
      else (s.modRetr p (fun r => { r.finish x.ctx x.seq with sampling := some (startSample p x s) })).bump (0x1800 + p) 0x36
        (startSample p x s).beats) := by
  change execSampleStart p s = _
  simp only [execSampleStart, running, free, ready, Option.isSome_none, Bool.or_self, Bool.false_eq_true, if_false]

/-- A sample whose beats have passed, with the time and the SEQNO_DONE it ends at (R345, R359). -/
def Sample.timed (s : State) (x : Sample) : Sample := { x with readyAt := s.howl, seqno := s.hbmNum ((s.ctx x.ctx).stateAddr + 8) 4 }

/-- The pipeline of a Retriever is free, and its pack has progressed (R354, R474). -/
def State.endSample (p : Nat) (s : State) : State := (s.modRetr p (fun r => { r with sampling := none })).advancePack p

/-- A Retriever holds a completion (R346). -/
def State.holdSample (p : Nat) (x : Sample) (s : State) : State := s.modRetr p (fun r => { r with ready := r.ready ++ [x] })

/-- A sample whose beats have passed sends the feedback of a kept answer, is held behind a held completion of its context, or is issued as
far as it can be (R346, R358, R359, R458). -/
theorem exec_sampleReady {x : Sample} (sampling : (s.pack p).retr.sampling = some x)
    (passed : howlGe s.howl (x.startedAt + BitVec.ofNat 64 x.beats) = true) : exec (.sampleReady p) s = .next (
      let t := s.endSample p
      let y := x.timed s
      if x.kept then (sendFeedback p y t).bump 0x501B 6 1
      else if (s.pack p).retr.ready.any (fun z => z.ctx = x.ctx) then t.holdSample p y
      else (issueCpl p y t).getD (t.holdSample p y)) := by
  change execSampleReady p s = _
  cases issued : issueCpl p (x.timed s) (s.endSample p) with
  | none | some _ =>
    simp only [Sample.timed, State.endSample] at issued
    simp only [execSampleReady, sampling, passed, issued, Sample.timed, State.endSample, State.holdSample, State.advancePack_retr,
      State.modRetr_self, Option.getD_none, Option.getD_some, apply_ite Host.Outcome.next, Bool.not_true, Bool.false_eq_true, if_false]

end Samples

section Held
variable {n : CtxId} {s : State} (owned : (s.ctx n).owner ≠ none) (running : (s.pack (n % 16)).retr.stopped = false)
include owned running

/-- A refusal that the ring controller holds is retried (R344, R346). -/
theorem exec_completionWrite_refuses (held : (s.ctx n).stage = .refuse) : exec (.completionWrite n) s = .next (ringRefuse n s) := by
  change execCompletionWrite n s = _
  simp only [execCompletionWrite, Option.isNone_eq_false_iff.mpr (Option.isSome_iff_ne_none.mpr owned), running, held, Bool.or_self,
    Bool.false_eq_true, if_false, if_true]

/-- A held completion is written once it can be issued (R346). -/
theorem exec_completionWrite_issues {x : Sample} {u : State} (noRefusal : (s.ctx n).stage ≠ .refuse)
    (held : (s.pack (n % 16)).retr.ready.find? (fun x => x.ctx = n.val) = some x)
    (issued : issueCpl (n % 16) x (s.modRetr (n % 16) (fun r => { r with ready := r.ready.erase x })) = some u) :
    exec (.completionWrite n) s = .next u := by
  change execCompletionWrite n s = _
  simp only [execCompletionWrite, Option.isNone_eq_false_iff.mpr (Option.isSome_iff_ne_none.mpr owned), running, noRefusal, held, issued,
    Bool.or_self, Bool.false_eq_true, if_false]

end Held

section Reply
variable {p : PackId} {s : State} {q : Pkt} (head : lqHead (retrRouter p) s = some q) (reply : q.hdr.ptype = 0x0A)
  (own : bitsOf (nth 0 q.words 1) 30 2 = 1)
include head reply own

/-- A completion's reply of a stale tag generation is counted and discarded (R363, R379). -/
theorem exec_completionAccepted_stale
    (stale : bitsOf (nth 0 q.words 1) 32 8 ≠ (tabGet 0 (s.pack p).retr.tagGen (bitsOf (nth 0 q.words 1) 24 6)).toNat) :
    exec (.completionAccepted p) s = .next ((lqPop (retrRouter p) s).bumpCore (retrRouter p) 0x82 1) := by
  change execCompletionAccepted p s = _
  simp only [execCompletionAccepted, head, reply, own, lqPop_pack, stale, ne_eq, not_true_eq_false, not_false_eq_true, decide_false,
    Bool.or_self, Bool.false_eq_true, if_false, if_true]

/-- The completion of a tag is no longer outstanding. -/
def State.freeCplTag (p tag : Nat) (s : State) : State := s.modRetr p (fun r => { r with reqs := r.reqs.filter (fun y => y.tag ≠ tag) })

variable {x : CplReq}
  (current : bitsOf (nth 0 q.words 1) 32 8 = (tabGet 0 (s.pack p).retr.tagGen (bitsOf (nth 0 q.words 1) 24 6)).toNat)
  (request : (s.pack p).retr.reqs.find? (fun x => x.tag = bitsOf (nth 0 q.words 1) 24 6) = some x)
include current request

/-- A completion answered with status 0 is accepted, and raises its context's vector if it asks for it (R358, R515). -/
theorem exec_completionAccepted_good (good : bitsOf (nth 0 q.words 0) 56 8 = 0) : exec (.completionAccepted p) s = .next (
    let t := (lqPop (retrRouter p) s).freeCplTag p (bitsOf (nth 0 q.words 1) 24 6)
    let u := (cplAccepted portWrite x.ctx x.step t).bump (0x1800 + p) (if x.status ≤ 1 then 0x30 else 0x31) 1
    if x.irq then raiseCtx x.ctx u else u) := by
  change execCompletionAccepted p s = _
  simp only [execCompletionAccepted, head, reply, own, lqPop_pack, current, request, good, ne_eq, not_true_eq_false, decide_false,
    Bool.or_self, Bool.false_eq_true, if_false, State.freeCplTag]

/-- A completion answered with another status is fault 0x94 (R361). -/
theorem exec_completionAccepted_faults (bad : bitsOf (nth 0 q.words 0) 56 8 ≠ 0) (running : (s.pack p).retr.stopped = false) :
    exec (.completionAccepted p) s = .next (
      retrieverFault 0x94 p x.ctx ((lqPop (retrRouter p) s).freeCplTag p (bitsOf (nth 0 q.words 1) 24 6))) := by
  change execCompletionAccepted p s = _
  simp only [execCompletionAccepted, head, reply, own, lqPop_pack, current, request, bad, running, ne_eq, not_true_eq_false,
    not_false_eq_true, decide_false, Bool.or_self, Bool.false_eq_true, if_false, if_true, State.freeCplTag]

end Reply

/-- Settles O28, a command at a time; a reply of the current generation by its status. -/
theorem retrieverSamplesAndCompletes : Obligations.RetrieverSamplesAndCompletes := by
  refine fun p s => ⟨fun x running free ready => ?start, fun x sampling passed => ?passed, fun n pack owned running => ?held,
    fun q head reply own => ⟨exec_completionAccepted_stale head reply own, fun x current request => ?current⟩⟩
  case start =>
    have starts := exec_sampleStart running free ready
    exact ⟨fun bad => starts.trans (congrArg _ (if_pos bad)), fun good => starts.trans (congrArg _ (if_neg (ne_true_of_eq_false good)))⟩
  case passed =>
    have answer := exec_sampleReady sampling passed
    refine ⟨fun kept => ?_, fun new behind => ?_, fun new first => ?_⟩ <;> refine answer.trans (congrArg _ ?_)
    · exact if_pos kept
    · exact (if_neg (ne_true_of_eq_false new)).trans (if_pos behind)
    · exact (if_neg (ne_true_of_eq_false new)).trans (if_neg (ne_true_of_eq_false first))
  case held =>
    rw [← pack] at running ⊢
    exact ⟨exec_completionWrite_refuses owned running, fun x u => exec_completionWrite_issues owned running⟩
  case current =>
    exact ⟨exec_completionAccepted_good head reply own current request, exec_completionAccepted_faults head reply own current request⟩

end Sys2Proof.Machine
end

section
/-! SUPPORT. What an accepted owner message finds, and how many sessions an opening leaves (R564, R566). -/
namespace Sys2Proof.Machine

theorem firstCode_cons {b : Bool} {c : Nat} {l : List (Bool × Nat)} (e : firstCode ((b, c) :: l) = 0) (coded : c ≠ 0) :
    b = false ∧ firstCode l = 0 := by
  cases b
  · exact ⟨rfl, e⟩
  · exact absurd e coded

/-- An accepted owner message that does not claim finds an owner (R564). -/
theorem State.owner_of_ownerRefusal {s : State} {m : List Byte} (accepted : s.ownerRefusal m = 0) (other : fld m 8 1 ≠ 1) :
    s.sec.owner ≠ .unowned := by
  intro unowned
  obtain ⟨-, e⟩ := firstCode_cons accepted (by decide)
  obtain ⟨-, e⟩ := firstCode_cons e (by decide)
  obtain ⟨-, e⟩ := firstCode_cons e (by decide)
  obtain ⟨-, e⟩ := firstCode_cons e (by decide)
  obtain ⟨state, -⟩ := firstCode_cons e (by decide)
  rw [unowned] at state
  simp [other] at state

/-- The least of a start and the values over a list is the start or one of them. -/
theorem foldl_min_mem {α : Type} (f : α → Nat) (l : List α) (n : Nat) :
    l.foldl (fun m y => min m (f y)) n = n ∨ ∃ y ∈ l, f y = l.foldl (fun m y => min m (f y)) n := by
  induction l generalizing n with
  | nil => exact .inl rfl
  | cons a l ih =>
    rw [List.foldl_cons]
    obtain e | ⟨y, mem, e⟩ := ih (min n (f a))
    · rw [e]
      obtain least | least := Nat.le_total n (f a)
      · exact .inl (Nat.min_eq_left least)
      · exact .inr ⟨a, List.mem_cons_self, (Nat.min_eq_right least).symm⟩
    · exact .inr ⟨y, List.mem_cons_of_mem _ mem, e⟩

/-- Opening a session leaves at most four open: a fifth closes the one used least recently (R566). -/
theorem openSession_length (x : Session) {l : List Session} (few : l.length ≤ 4) : (openSession x l).length ≤ 4 := by
  unfold openSession
  have kept : (l.filter (fun y => y.number ≠ x.number)).length ≤ 4 := (List.length_filter_le _ _).trans few
  generalize l.filter (fun y => y.number ≠ x.number) = l at kept ⊢
  rw [List.length_append, List.length_singleton]
  split
  · omega
  have found : l.findIdx (fun y => y.lastUse = l.foldl (fun m y => min m y.lastUse) (l.headD x).lastUse) < l.length := by
    rw [List.findIdx_lt_length]
    obtain e | ⟨y, mem, e⟩ := foldl_min_mem Session.lastUse l (l.headD x).lastUse
    · cases l with
      | nil => contradiction
      | cons a l => exact ⟨a, List.mem_cons_self, decide_eq_true e.symm⟩
    · exact ⟨y, mem, decide_eq_true e⟩
  rw [List.length_eraseIdx_of_lt found]
  omega

end Sys2Proof.Machine
end

section
/-! SUPPORT. What every command keeps of a state, whatever its operands: the queue of waiting commands, the canonical form of HBM and lawful
ownership. One relation serves the invariants about all three. -/
namespace Sys2Proof.Machine

/-- From `s` to `t` no waiting command is lost or added, and HBM stays canonical and ownership lawful where they were. -/
structure Keeps (s t : State) : Prop where
  pending : t.pending = s.pending
  hbm : HbmCanonical s → HbmCanonical t
  ownership : OwnershipLawful s → OwnershipLawful t

variable {s₀ s t : State}

theorem Keeps.refl (s : State) : Keeps s s := ⟨rfl, id, id⟩

/-- An update of any fields but HBM, the security state and the waiting commands keeps all three. -/
theorem Keeps.update {clock howl nonce cores packs progs load gen ctxs hbmKey hbmStacks ports ring job mirror faults stats progress settings statsSat
    statsFirst lastMismatchTime lastMismatchPlace meshFaultHeld meshFaultTime meshFault slipHeld slipTime slipPlace vet power env
    host heldRing mgmt calib upd jtag out}
    (h : Keeps s₀ s) :
    Keeps s₀ ⟨clock, howl, nonce, cores, packs, progs, load, gen, ctxs, s.hbm, hbmKey, hbmStacks, ports, ring, job, mirror, faults, stats,
      progress, settings, statsSat, statsFirst, lastMismatchTime, lastMismatchPlace, meshFaultHeld, meshFaultTime, meshFault,
      slipHeld, slipTime, slipPlace, vet, power, env, host, heldRing, mgmt, calib, s.sec, upd, jtag, out, s.pending⟩ :=
  ⟨h.pending, h.hbm, h.ownership⟩

theorem Keeps.ite {c : Prop} [Decidable c] (h : Keeps s₀ s) (k : Keeps s₀ t) : Keeps s₀ (if c then s else t) := by
  split
  · exact h
  · exact k

/-- As `Keeps.ite`, where both branches go on from one state. -/
theorem Keeps.iteOn {c : Prop} [Decidable c] {u : State} (k : Keeps s₀ s → Keeps s₀ t) (m : Keeps s₀ s → Keeps s₀ u) (h : Keeps s₀ s) :
    Keeps s₀ (if c then t else u) := .ite (k h) (m h)

section Fold
variable {α β : Type} {l : List α}

theorem Keeps.foldl {f : State → α → State} (h : Keeps s₀ s) (k : ∀ {u a}, Keeps s₀ u → Keeps s₀ (f u a)) : Keeps s₀ (l.foldl f s) := by
  induction l generalizing s with
  | nil => exact h
  | cons a l ih => exact ih (k h)

/-- As `Keeps.foldl`, where the fold carries something beside the state. -/
theorem Keeps.foldlSnd {f : β × State → α → β × State} {x : β × State} (h : Keeps s₀ x.2)
    (k : ∀ {y : β × State} {a}, Keeps s₀ y.2 → Keeps s₀ (f y a).2) : Keeps s₀ (l.foldl f x).2 := by
  induction l generalizing x with
  | nil => exact h
  | cons a l ih => exact ih (k h)

/-- The state of a pair that is known. -/
theorem Keeps.snd {x : α × State} {a : α} (e : x = (a, t)) (h : Keeps s₀ x.2) : Keeps s₀ t := by
  rw [e] at h; exact h

theorem Keeps.pair {a : α} (h : Keeps s₀ s) : Keeps s₀ (a, s).2 := h

theorem Keeps.iteSnd {c : Prop} [Decidable c] {x y : α × State} (h : Keeps s₀ x.2) (k : Keeps s₀ y.2) : Keeps s₀ (if c then x else y).2 := by
  split
  · exact h
  · exact k

/-- As `Keeps.iteSnd`, where both branches go on from one state. -/
theorem Keeps.iteSndOn {c : Prop} [Decidable c] {x y : α × State} (k : Keeps s₀ s → Keeps s₀ x.2) (m : Keeps s₀ s → Keeps s₀ y.2)
    (h : Keeps s₀ s) : Keeps s₀ (if c then x else y).2 := .iteSnd (k h) (m h)

theorem Keeps.foldN {f : State → Nat → State} {n : Nat} (h : Keeps s₀ s) (k : ∀ {u i}, Keeps s₀ u → Keeps s₀ (f u i)) :
    Keeps s₀ (foldN n f s) := h.foldl k

end Fold

/-- A command answers a next state, and `Keeps` holds of it. -/
def Completes (s : State) (o : Host.Outcome State Fault Refusal) : Prop := ∃ t, o = .next t ∧ Keeps s t

theorem Completes.next (h : Keeps s₀ s) : Completes s₀ (.next s) := ⟨s, rfl, h⟩

theorem Completes.ite {c : Prop} [Decidable c] {o p : Host.Outcome State Fault Refusal} (h : Completes s₀ o) (k : Completes s₀ p) :
    Completes s₀ (if c then o else p) := by
  split
  · exact h
  · exact k

/-- As `Completes.ite`, where both branches go on from one state. -/
theorem Completes.iteOn {c : Prop} [Decidable c] {o p : Host.Outcome State Fault Refusal} (k : Keeps s₀ s → Completes s₀ o)
    (m : Keeps s₀ s → Completes s₀ p) (h : Keeps s₀ s) : Completes s₀ (if c then o else p) := .ite (k h) (m h)

/-- As `Keeps.foldl`, where the fold carries a record or a tuple whose state is `state`. -/
theorem Keeps.foldlBy {σ α : Type} {l : List α} (state : σ → State) {f : σ → α → σ} {x : σ} (h : Keeps s₀ (state x))
    (k : ∀ {y a}, Keeps s₀ (state y) → Keeps s₀ (state (f y a))) : Keeps s₀ (state (l.foldl f x)) := by
  induction l generalizing x with
  | nil => exact h
  | cons a l ih => exact ih (k h)

/-- As `Keeps.foldl`, where a step may fail. -/
theorem Keeps.foldlSome {α : Type} {l : List α} {f : Option State → α → Option State} {x : Option State} {u : State}
    (k : ∀ {x a u}, (∀ {t}, x = some t → Keeps s₀ t) → f x a = some u → Keeps s₀ u) (h : ∀ {t}, x = some t → Keeps s₀ t)
    (e : l.foldl f x = some u) : Keeps s₀ u := by
  induction l generalizing x with
  | nil => exact h e
  | cons a l ih => exact ih (k h) e

theorem Keeps.iteSndSnd {α β : Type} {c : Prop} [Decidable c] {x y : α × β × State} (h : Keeps s₀ x.2.2) (k : Keeps s₀ y.2.2) :
    Keeps s₀ (if c then x else y).2.2 := by
  split
  · exact h
  · exact k

end Sys2Proof.Machine
end

section
/-! SUPPORT. What every command keeps: the state's own operations. -/
namespace Sys2Proof.Machine

variable {s₀ s : State} {c p g n key fn v kind bit idx sub a : Nat} {j : Core} {f : Core → Core} {body l : List Byte} {packs : List Nat}
  {ok : Bool} {j₁ : Pack} {j₂ : Program} {j₃ : Ctx} {j₄ : Stack} {j₅ : Port} {f₁ : Pack → Pack} {f₂ : Program → Program} {f₃ : Ctx → Ctx}
  {f₄ : Stack → Stack} {f₅ : Port → Port} {f₆ : HostFn → HostFn} {f₇ : State → Nat × State} {f₈ : State → State} (h : Keeps s₀ s)
include h

theorem Keeps.setCore : Keeps s₀ (s.setCore c j) := by unfold State.setCore; exact .update h

theorem Keeps.modCore : Keeps s₀ (s.modCore c f) := by unfold State.modCore; exact .setCore h

theorem Keeps.setPack : Keeps s₀ (s.setPack p j₁) := by unfold State.setPack; exact .update h

theorem Keeps.modPack : Keeps s₀ (s.modPack p f₁) := by unfold State.modPack; exact .setPack h

theorem Keeps.setProg : Keeps s₀ (s.setProg g j₂) := by unfold State.setProg; exact .update h

theorem Keeps.modProg : Keeps s₀ (s.modProg g f₂) := by unfold State.modProg; exact .setProg h

theorem Keeps.setCtx : Keeps s₀ (s.setCtx n j₃) := by unfold State.setCtx; exact .update h

theorem Keeps.modCtx : Keeps s₀ (s.modCtx n f₃) := by unfold State.modCtx; exact .setCtx h

theorem Keeps.setStack : Keeps s₀ (s.setStack n j₄) := by unfold State.setStack; exact .update h

theorem Keeps.modStack : Keeps s₀ (s.modStack n f₄) := by unfold State.modStack; exact .setStack h

theorem Keeps.setPort : Keeps s₀ (s.setPort n j₅) := by unfold State.setPort; exact .update h

theorem Keeps.modPort : Keeps s₀ (s.modPort n f₅) := by unfold State.modPort; exact .setPort h

theorem Keeps.fresh : Keeps s₀ (s.fresh).2 := by unfold State.fresh; exact .pair (.update h)

theorem Keeps.modFn : Keeps s₀ (s.modFn n f₆) := by unfold State.modFn; exact .update h

theorem Keeps.bumpRaw : Keeps s₀ (s.bumpRaw key n) := by unfold State.bumpRaw; exact .ite h (.ite (.update h) (.update h))

theorem Keeps.raiseMsix : Keeps s₀ (raiseMsix fn v s) := by unfold Machine.raiseMsix; exact .ite (.bumpRaw h) (.ite (.modFn h) (.update h))

theorem Keeps.notify : Keeps s₀ (notify kind body s) := by unfold Machine.notify; exact .ite (.update h) (.bumpRaw h)

theorem Keeps.announceAlert : Keeps s₀ (announceAlert s) := by unfold Machine.announceAlert; exact .raiseMsix (.notify h)

theorem Keeps.alert : Keeps s₀ (s.alert bit) := by unfold State.alert; exact .ite h (.announceAlert (.update h))

theorem Keeps.bumpKey : Keeps s₀ (s.bumpKey key n) := by unfold State.bumpKey; exact .ite (.bumpRaw h) (.announceAlert (.bumpRaw h))

theorem Keeps.bump : Keeps s₀ (s.bump idx sub n) := by unfold State.bump; exact .bumpKey h

theorem Keeps.bumpCore : Keeps s₀ (s.bumpCore c sub n) := by unfold State.bumpCore; exact .bump h

theorem Keeps.advanceKey : Keeps s₀ (s.advanceKey key n) := by unfold State.advanceKey; exact .update h

theorem Keeps.advancePack : Keeps s₀ (s.advancePack p) := by unfold State.advancePack; exact .modPack (.advanceKey h)

theorem Keeps.restartWatch : Keeps s₀ (s.restartWatch packs) := by unfold State.restartWatch; exact .foldl h .modPack

theorem Keeps.advanceCore : Keeps s₀ (s.advanceCore c sub n) := by unfold State.advanceCore; exact .ite h (.modCore (.advancePack (.advanceKey h)))

theorem Keeps.hbmWrite : Keeps s₀ (s.hbmWrite a l) := ⟨h.pending, fun c => s.hbmWrite_wf a l (h.hbm c), h.ownership⟩

theorem Keeps.hbmZero : Keeps s₀ (s.hbmZero a n) := ⟨h.pending, fun c => s.hbmZero_wf a n (h.hbm c), h.ownership⟩

theorem Keeps.setSetting : Keeps s₀ (s.setSetting idx sub v) := by unfold State.setSetting; exact .update h

omit h in
theorem Keeps.answer {x : Nat × State} (k : Keeps s₀ x.2) : Keeps s₀ (State.answer x) := by unfold State.answer; exact .update k

theorem Keeps.command (keeps : ∀ {t}, Keeps s₀ t → Keeps s₀ (f₇ t).2) : Keeps s₀ (s.command f₇) := by
  unfold State.command
  exact .ite (.answer (keeps h)) h

theorem Keeps.commitFlash (keeps : ∀ {t}, Keeps s₀ t → Keeps s₀ (f₈ t)) : Keeps s₀ (State.commitFlash ok f₈ s).2 := by
  unfold State.commitFlash
  exact .iteSnd h (.iteSnd h (.pair (.update (keeps h))))

end Sys2Proof.Machine
end

section
/-! SUPPORT. What every command keeps: the stack controllers and their ring port. -/
namespace Sys2Proof.Machine

variable {s₀ s : State} {st bank a n source line len : Nat} {d : List Byte} {p : Pkt} {r : StackReq} {put : Nat → List Byte → State → State}
  {step : Word} (h : Keeps s₀ s)
include h

theorem Keeps.issueRfm : Keeps s₀ (issueRfm st bank s) := by unfold Machine.issueRfm; exact .modStack (.bump h)

theorem Keeps.activate : Keeps s₀ (activate st bank s) := by unfold Machine.activate; exact .modStack (.ite (.issueRfm h) h)

theorem Keeps.countAccess : Keeps s₀ (countAccess st a n s) := by unfold Machine.countAccess; exact .foldl h fun k => .activate (.bump k)

theorem Keeps.correctLines : Keeps s₀ (correctLines st a n s) := by
  unfold Machine.correctLines
  exact .foldl h fun k => .ite (.modStack (.bump k)) k

theorem Keeps.poisonReply : Keeps s₀ (poisonReply st source line s) := by unfold Machine.poisonReply; exact .modStack (.bump h)

theorem Keeps.stackRead : Keeps s₀ (stackRead source a n s).2 := by
  dsimp only [Machine.stackRead]
  split
  · exact .pair (.poisonReply (.countAccess h))
  · exact .pair (.bump (.correctLines (.countAccess h)))

theorem Keeps.stackPut : Keeps s₀ (stackPut source a d s).2 := by
  dsimp only [Machine.stackPut]
  split
  · exact .pair (.poisonReply (.countAccess h))
  · exact .pair (.bump (.hbmWrite (.foldl (.countAccess h) fun k => .ite (.correctLines k) k)))

theorem Keeps.stackWrite : Keeps s₀ (stackWrite source a d s).2 := by
  unfold Machine.stackWrite
  exact .iteSnd (.pair (.countAccess h)) (.stackPut h)

theorem Keeps.sendReply : Keeps s₀ (sendReply st source p s) := by unfold Machine.sendReply; exact .modCore h

theorem Keeps.noteAccepted : Keeps s₀ (noteAccepted p s) := by
  dsimp only [Machine.noteAccepted]
  split
  · exact h
  split
  · exact h
  · exact .setCore h

theorem Keeps.takeReq : Keeps s₀ (takeReq st r s) := by unfold Machine.takeReq; exact .ite (.noteAccepted (.setStack h)) (.sendReply (.setStack h))

theorem Keeps.countToken (keeps : ∀ {x y t}, Keeps s₀ t → Keeps s₀ (put x y t)) : Keeps s₀ (countToken put n s) := by
  unfold Machine.countToken
  exact .ite (keeps h) (.alert (.update (.fresh (keeps h))))

theorem Keeps.cplAccepted (keeps : ∀ {x y t}, Keeps s₀ t → Keeps s₀ (put x y t)) : Keeps s₀ (cplAccepted put n step s) := by
  unfold Machine.cplAccepted
  exact .advancePack (.modCtx (keeps (.countToken h keeps)))

theorem Keeps.storedEntries : Keeps s₀ (storedEntries a len s) := by
  unfold Machine.storedEntries
  exact .foldl h fun k => .ite (.cplAccepted k .stackWrite) k

theorem Keeps.serveReq : Keeps s₀ (serveReq st r s) := by
  dsimp only [Machine.serveReq]
  split
  · exact .sendReply h
  split
  · split
    next e => exact .sendReply (.ite (.storedEntries (.snd e (.stackWrite h))) (.snd e (.stackWrite h)))
    next e => exact .sendReply (.snd e (.stackWrite h))
  split
  next e => exact .sendReply (.snd e (.stackRead h))
  next e => exact .sendReply (.snd e (.stackRead h))

theorem Keeps.ringTurn : Keeps s₀ (ringTurn st s) := by
  dsimp only [Machine.ringTurn]
  refine .modStack ?_
  refine .foldl h fun k => ?_
  split
  · exact k
  split
  · exact .takeReq k
  · exact k

theorem Keeps.serveBefore : Keeps s₀ (serveBefore st a n s) := by
  dsimp only [Machine.serveBefore]
  refine .foldN h fun k => ?_
  split
  · exact k
  · exact .serveReq (.modStack k)

theorem Keeps.freeBytes : Keeps s₀ (s.freeBytes n).2 := by unfold State.freeBytes; exact .pair (.update h)

theorem Keeps.ringRead : Keeps s₀ (ringRead a n s).2 := by
  dsimp only [Machine.ringRead]
  split
  · split
    · exact .pair (.freeBytes (.serveBefore (.ringTurn h)))
    split
    next e => exact .snd e (.stackRead (.serveBefore (.ringTurn h)))
    next e => exact .snd e (.stackRead (.serveBefore (.ringTurn h)))
  all_goals exact h

theorem Keeps.ringWrite : Keeps s₀ (ringWrite a d s).2 := by
  dsimp only [Machine.ringWrite]
  split
  · split
    · exact .pair (.serveBefore (.ringTurn h))
    split
    next e => exact .snd e (.stackWrite (.serveBefore (.ringTurn h)))
    next e => exact .snd e (.stackWrite (.serveBefore (.ringTurn h)))
  all_goals exact h

theorem Keeps.portWrite : Keeps s₀ (portWrite a d s) := by
  dsimp only [Machine.portWrite]
  split
  next e => exact .stackWrite (.snd e (.ringWrite h))
  next e => exact .snd e (.ringWrite h)
  next e => exact .snd e (.ringWrite h)
  next e => exact .snd e (.ringWrite h)

theorem Keeps.portRead : Keeps s₀ (portRead a n s).2 := by
  dsimp only [Machine.portRead]
  split
  next e => exact .snd e (.ringRead h)
  next e =>
    split
    next e' => exact .snd e' (.stackRead (.snd e (.ringRead h)))
    next e' => exact .freeBytes (.snd e' (.stackRead (.snd e (.ringRead h))))
  next e => exact .freeBytes (.snd e (.ringRead h))
  next e => exact .freeBytes (.snd e (.ringRead h))

theorem Keeps.dumpWrite : Keeps s₀ (dumpWrite a d s) := by
  dsimp only [Machine.dumpWrite]
  split
  · exact .stackPut (.serveBefore (.ringTurn h))
  · exact .stackPut h
  all_goals exact h

theorem Keeps.zeroiseHbm : Keeps s₀ (zeroiseHbm a n s) := by unfold Machine.zeroiseHbm; exact .ite h (.bump (.hbmZero (.countAccess h)))

end Sys2Proof.Machine
end

section
/-! SUPPORT. What every command keeps: what every fault does. -/
namespace Sys2Proof.Machine

variable {s₀ s : State} {code cls pack core stream n rung p g cause record origin via reason c word ctx f₁ : Nat} {f : BitVec 128 → BitVec 128}
  {body : CtrlBody} {except : Option Nat} {barkHowl : Time} {ofJob : Bool} {packs : List Nat} {pc : BitVec 12} (h : Keeps s₀ s)
include h

theorem Keeps.writeFaultRecord : Keeps s₀ (writeFaultRecord code cls pack core stream s) := by
  unfold Machine.writeFaultRecord
  exact .alert (.update h)

theorem Keeps.editFaultRecord : Keeps s₀ (editFaultRecord n f s) := by unfold Machine.editFaultRecord; exact .update h

theorem Keeps.raiseRung : Keeps s₀ (raiseRung n rung s) := by unfold Machine.raiseRung; exact .editFaultRecord h

theorem Keeps.stopPack : Keeps s₀ (stopPack p s) := by unfold Machine.stopPack; exact .modPack (.foldl h fun k => .ite k (.modCore k))

theorem Keeps.setCtxState : Keeps s₀ (setCtxState n code s) := by unfold Machine.setCtxState; exact .portWrite h

theorem Keeps.startTeardown : Keeps s₀ (startTeardown g cause s) := by
  unfold Machine.startTeardown
  exact .ite h
    (.iteOn .update id
      (.iteOn .update id
        (.foldl (.foldl (.update (.modProg h)) fun k => .modPack (.foldl (.stopPack k) fun m => .ite (.modCore m) (.modCore m))) .setCtxState)))

theorem Keeps.markReset : Keeps s₀ (markReset cause record p s) := by unfold Machine.markReset; exact .modPack h

theorem Keeps.sendCtrl : Keeps s₀ (sendCtrl f₁ body s) := by unfold Machine.sendCtrl; exact .modPort h

theorem Keeps.floodCtrl : Keeps s₀ (floodCtrl except body s) := by unfold Machine.floodCtrl; exact .foldl h fun k => .ite (.sendCtrl k) k

theorem Keeps.barkDuplicate : Keeps s₀ (barkDuplicate s) := by unfold Machine.barkDuplicate; exact .ite (.bump h) (.update (.bump h))

theorem Keeps.jobBark : Keeps s₀ (jobBark origin via reason barkHowl s) := by
  unfold Machine.jobBark
  exact .ite
    (.barkDuplicate h)
    (.foldl (.alert (.update (.update (.foldl (.iteOn .update id (.floodCtrl (.bump (.update h)))) fun k => .foldl k .stopPack)))) .startTeardown)

theorem Keeps.localBark : Keeps s₀ (localBark reason s) := by
  unfold Machine.localBark
  exact .ite (.barkDuplicate h) (.foldl (.alert (.bump (.update h))) .startTeardown)

theorem Keeps.originateBark : Keeps s₀ (originateBark ofJob reason s) := by unfold Machine.originateBark; exact .ite (.jobBark h) (.localBark h)

theorem Keeps.barkPack : Keeps s₀ (barkPack reason p s).2 := by
  dsimp only [Machine.barkPack]
  split
  · exact h
  · exact .pair (.originateBark h)

theorem Keeps.setBarked : Keeps s₀ (setBarked n s) := by unfold Machine.setBarked; exact .editFaultRecord (.foldl h fun k => .ite k (.modPack k))

theorem Keeps.reportFault : Keeps s₀ (reportFault code packs core stream s) := by
  dsimp only [Machine.reportFault]
  exact .iteOn (fun m => .foldl m .markReset) id (.iteOn .setBarked id (.foldlSnd (.pair (.writeFaultRecord h)) fun k => .pair (.barkPack k)))

theorem Keeps.streamFaultAt : Keeps s₀ (streamFaultAt c stream pc code s) := by unfold Machine.streamFaultAt; exact .reportFault (.modCore h)

theorem Keeps.streamFault : Keeps s₀ (streamFault c stream code s) := by unfold Machine.streamFault; exact .streamFaultAt h

theorem Keeps.meshFault : Keeps s₀ (meshFault code packs core word s) := by
  unfold Machine.meshFault
  exact .reportFault (.foldl (.bump (.ite h (.update h))) .stopPack)

theorem Keeps.retrieverFault : Keeps s₀ (retrieverFault code p ctx s) := by
  unfold Machine.retrieverFault
  exact .foldl (.reportFault (.stopPack (.setSetting (.setSetting (.modPack h))))) fun k => .ite (.setCtxState k) k

end Sys2Proof.Machine
end

section
/-! SUPPORT. What every command keeps: scratchpad access. -/
namespace Sys2Proof.Machine

variable {s₀ s : State} {c port kind addr bits len tail : Nat} {record dec : Bool} {l : List Byte} (h : Keeps s₀ s)
include h

theorem Keeps.recordEcc : Keeps s₀ (recordEcc c port kind addr s) := by unfold Machine.recordEcc; exact .modCore h

theorem Keeps.eccCorrected : Keeps s₀ (eccCorrected c port addr bits s) := by
  unfold Machine.eccCorrected
  exact .modCore (.recordEcc (.bumpCore h))

theorem Keeps.eccUncorrectable : Keeps s₀ (eccUncorrectable c port addr record s) := by
  unfold Machine.eccUncorrectable
  exact .ite h (.ite (.bumpCore h) (.ite (.bumpCore (.ite (.recordEcc h) h)) (.reportFault (.stopPack (.bumpCore (.recordEcc h))))))

theorem Keeps.drawn : Keeps s₀ (s.drawn dec bits) := by unfold State.drawn; exact .ite (.update h) h

omit h in
theorem Keeps.eccReadWord {x : EccRead} {bits : Nat} (k : Keeps s₀ x.st) : Keeps s₀ (eccReadWord c port w bits x).st := by
  dsimp only [Machine.eccReadWord]
  split
  · exact k
  · exact .eccCorrected k
  · exact .eccUncorrectable (.drawn k)
  · exact .eccCorrected (.fresh k)
  · exact .fresh k

omit h in
/-- Reading erroneous words one after another. -/
theorem Keeps.eccReadWords {x : EccRead} {errs : Tab Nat} (k : Keeps s₀ x.st) :
    Keeps s₀ (errs.foldl (fun r e => Machine.eccReadWord c port e.1 e.2 r) x).st := .foldlBy EccRead.st k .eccReadWord

theorem Keeps.readWords : Keeps s₀ (readWords c port addr len s).1.st := .eccReadWords h

theorem Keeps.readPort : Keeps s₀ (readPort c port addr len s).2 := .readWords h

theorem Keeps.writeArray : Keeps s₀ (writeArray c port addr tail l s) := by
  dsimp only [Machine.writeArray]
  split
  · exact h
  split
  · exact .setCore h
  refine .modCore ?_
  split
  · exact .foldl (.foldl (.eccReadWords h) .modCore) .modCore
  · exact .foldl (.eccReadWords h) .modCore

theorem Keeps.writePort : Keeps s₀ (writePort c port addr l s) := by unfold Machine.writePort; exact .writeArray h

theorem Keeps.scrambleRange : Keeps s₀ (scrambleRange c addr len s) := by unfold Machine.scrambleRange; exact .modCore (.update h)

theorem Keeps.scrambleAcc : Keeps s₀ (scrambleAcc c s) := by unfold Machine.scrambleAcc; exact .modCore (.update h)

end Sys2Proof.Machine
end

section
/-! SUPPORT. What every command keeps: Collars and deferred operations. -/
namespace Sys2Proof.Machine

variable {s₀ s : State} {c i j core stream r : Nat} {n index : BitVec 32} {claimGen gen : BitVec 8} {v : Word} (h : Keeps s₀ s)
include h

theorem Keeps.streamProgress : Keeps s₀ (streamProgress c i s) := by unfold Machine.streamProgress; exact .modCore (.advanceKey h)

theorem Keeps.wakeStream : Keeps s₀ (wakeStream c i s) := by unfold Machine.wakeStream; exact .advancePack (.streamProgress (.modCore h))

theorem Keeps.wakeCollar : Keeps s₀ (wakeCollar c j s) := by unfold Machine.wakeCollar; exact .foldl h fun k => .ite (.modCore k) k

theorem Keeps.collarAdd : Keeps s₀ (collarAdd c j n s) := by
  unfold Machine.collarAdd
  exact .wakeCollar (.ite (.modCore h) (.ite (.modCore h) (.writeFaultRecord (.bump (.modCore h)))))

theorem Keeps.staleCollarOp : Keeps s₀ (staleCollarOp c s) := by unfold Machine.staleCollarOp; exact .bumpCore h

theorem Keeps.onClaim : Keeps s₀ (onClaim c j core stream s).2 := by
  dsimp only [Machine.onClaim]
  split
  · exact .pair (.modCore h)
  · exact .iteSnd h (.pair (.modCore (.wakeCollar (.modCore h))))

theorem Keeps.onComplete : Keeps s₀ (onComplete c j core index claimGen gen s) := by
  unfold Machine.onComplete
  exact .ite (.bumpCore h) (.collarAdd (.modCore h))

theorem Keeps.reissueClaims : Keeps s₀ (reissueClaims c j core s) := by
  unfold Machine.reissueClaims
  exact .foldl h fun k => .ite (.bumpCore (.modCore k)) k

theorem Keeps.writeReg : Keeps s₀ (writeReg c stream r v s) := by unfold Machine.writeReg; exact .modCore h

theorem Keeps.claimAnswered : Keeps s₀ (claimAnswered c stream r v s) := by unfold Machine.claimAnswered; exact .modCore (.writeReg h)

end Sys2Proof.Machine
end

section
/-! SUPPORT. What every command keeps: packets, merges and Bowl judgements. -/
namespace Sys2Proof.Machine

variable {s₀ s : State} {r : RingPkt} {x' c n : Nat} {p : Pkt} {d : Dir} (h : Keeps s₀ s)
include h

theorem Keeps.owePkt : Keeps s₀ (owePkt r s) := by unfold Machine.owePkt; exact .ite h (.modPort h)

theorem Keeps.ringTakes : Keeps s₀ (handOver.ringTakes x' p s) := by
  unfold handOver.ringTakes
  exact .ite (.ite (.update h) (.bump h)) (.ite (.update h) (.ite (.update h) (.update h)))

theorem Keeps.handOver : Keeps s₀ (handOver c d p s) := by
  dsimp only [Machine.handOver]
  split
  · exact .modCore h
  split
  · exact .ite (.bump h) (.modCore h)
  · split
    · exact .modStack h
    · exact h
  · split
    · exact .modStack h
    · exact h
  · exact .ringTakes h
  · exact .ringTakes h

theorem Keeps.countFlits : Keeps s₀ (countFlits c d n s) := by unfold Machine.countFlits; exact .advanceCore h

theorem Keeps.useLink : Keeps s₀ (useLink c d n s) := by unfold Machine.useLink; exact .modCore h

theorem Keeps.enterL : Keeps s₀ (enterL c p s) := by
  dsimp only [Machine.enterL]
  split
  · exact .setCore h
  split
  · exact .setCore h
  split
  · exact .setCore h
  · exact .meshFault (.setCore h)

theorem Keeps.promoteAux : Keeps s₀ (promoteAux c n s) := by
  induction n generalizing s with
  | zero => exact h
  | succ n ih =>
    dsimp only [Machine.promoteAux]
    split
    · exact ih (.enterL (.modCore h))
    split
    · exact h
    · exact ih (.enterL (.modCore h))

theorem Keeps.promote : Keeps s₀ (promote c s) := by unfold Machine.promote; exact .promoteAux h

theorem Keeps.sendFromL : Keeps s₀ (sendFromL c p s) := by unfold Machine.sendFromL; exact .promote (.modCore h)

end Sys2Proof.Machine
end

section
/-! SUPPORT. What every command keeps: the order of POST and COMPLETE, refusals and NACKs. -/
namespace Sys2Proof.Machine

variable {s₀ s : State} {c outcome reason : Nat} {d : DeferredOp} {p : Pkt} {words : List Word} {b : Hdr} (h : Keeps s₀ s)
include h

theorem Keeps.applyDeferred : Keeps s₀ (applyDeferred c d s) := by
  dsimp only [Machine.applyDeferred]
  split
  · split
    · exact .collarAdd (.modCore h)
    · exact .onComplete (.modCore h)
    · exact .modCore h
    · exact .modCore h
  split
  · exact .promote (.modCore (.modCore h))
  · exact .modCore h

theorem Keeps.runDeferredAux : Keeps s₀ (runDeferredAux c n s) := by
  induction n generalizing s with
  | zero => exact h
  | succ n ih =>
    dsimp only [Machine.runDeferredAux]
    split
    · exact h
    · exact ih (.applyDeferred h)

theorem Keeps.runDeferred : Keeps s₀ (runDeferred c s) := by unfold Machine.runDeferred; exact .runDeferredAux h

theorem Keeps.ringOutcome : Keeps s₀ (ringOutcome c p outcome s) := by unfold Machine.ringOutcome; exact .update h

theorem Keeps.refuseAt : Keeps s₀ (refuseAt c p reason s) := by
  unfold Machine.refuseAt
  exact .ite (.ite (.ringOutcome (.bumpCore h)) (.ite (.sendFromL (.bumpCore h)) (.sendFromL (.bumpCore h)))) (.sendFromL (.bumpCore h))

theorem Keeps.acceptAt : Keeps s₀ (acceptAt c p s) := by unfold Machine.acceptAt; exact .ite h (.ite (.ringOutcome h) (.ite (.sendFromL h) h))

theorem Keeps.discardAt : Keeps s₀ (discardAt c p s) := by unfold Machine.discardAt; exact .ite (.ringOutcome (.bumpCore h)) (.bumpCore h)

theorem Keeps.deliverNack : Keeps s₀ (deliverNack c words reason b s) := by
  dsimp only [Machine.deliverNack]
  split
  · exact .bumpCore h
  · exact .ite (.bumpCore h) (.setCore h)

end Sys2Proof.Machine
end

section
/-! SUPPORT. What every command keeps: the routers. -/
namespace Sys2Proof.Machine

variable {s₀ s : State} {c : Nat} {d dir : Dir} {x : Contrib} {l : List Contrib} {p : Pkt} {w : Word} {core : CoreId} {serves : Dir → Bool}
  {fetch : Bool} {refill : State → State} {rest : List Pkt} {ecc : LinkEcc} {l₁ : SvcMcast} (h : Keeps s₀ s)
include h

theorem Keeps.slipBegin : Keeps s₀ (slipBegin c d s) := by
  unfold Machine.slipBegin
  exact .iteOn id .update (.modCore (.bump (.bump (.bumpCore h))))

theorem Keeps.slipAtStart : Keeps s₀ (slipAtStart c d s) := by unfold Machine.slipAtStart; exact .ite (.slipBegin h) h

theorem Keeps.advanceOutput : Keeps s₀ (advanceOutput c d s) := by unfold Machine.advanceOutput; exact .modCore h

theorem Keeps.takeContrib : Keeps s₀ (takeContrib c x s) := by
  dsimp only [Machine.takeContrib]
  split
  · exact .modCore h
  · exact .modCore h

theorem Keeps.holdContrib : Keeps s₀ (holdContrib c x s) := by
  dsimp only [Machine.holdContrib]
  split
  · exact .modCore h
  · exact .modCore (.takeContrib h)

theorem Keeps.contribPayload : Keeps s₀ (contribPayload c x s).2 := by
  dsimp only [Machine.contribPayload]
  split
  · split
    · exact .readPort h
    · exact h
  · exact h

theorem Keeps.gatherPayloads : Keeps s₀ (gatherPayloads c l s).2 := by
  dsimp only [Machine.gatherPayloads]
  refine .foldlSnd h fun k => ?_
  split
  · exact .pair (.contribPayload k)
  · exact .pair (.contribPayload k)

theorem Keeps.sendOn : Keeps s₀ (sendOn c p s d) := by
  unfold Machine.sendOn
  exact .advanceOutput (.useLink (.countFlits (.handOver (.slipAtStart h))))

theorem Keeps.startEntry : Keeps s₀ (startEntry c d w l s) := by
  dsimp only [Machine.startEntry]
  split
  · exact h
  split
  · exact .meshFault (.foldl h .holdContrib)
  split
  · exact h
  split
  next e => exact .snd e (.gatherPayloads h)
  next e => exact .runDeferred (.promote (.iteOn .bumpCore id (.foldl (.foldl (.snd e (.gatherPayloads h)) .takeContrib) .sendOn)))

theorem Completes.execEntryStart : Completes s₀ (execEntryStart core dir s) := by
  dsimp only [Machine.execEntryStart]
  split
  · exact .next h
  split
  · exact .next (.startEntry h)
  · exact .next h

theorem Completes.execSlipBegin : Completes s₀ (execSlipBegin core dir s) := by
  unfold Machine.execSlipBegin
  exact .ite (.next (.slipBegin h)) (.next h)

theorem Keeps.refillSvc : Keeps s₀ (refillSvc c d n s) := by
  induction n generalizing s with
  | zero => exact h
  | succ n ih =>
    dsimp only [Machine.refillSvc]
    split
    · exact h
    · exact ih (.promote (.setCore h))

theorem Keeps.refillFetch : Keeps s₀ (refillFetch c d serves n s) := by
  induction n generalizing s with
  | zero => exact h
  | succ n ih =>
    dsimp only [Machine.refillFetch]
    split
    · exact h
    split
    · exact h
    · exact ih (.promote (.setCore h))

theorem Keeps.noteLeft : Keeps s₀ (noteLeft c p s) := by unfold Machine.noteLeft; exact .ite (.modCore h) h

theorem Keeps.sendFitting {cap room : Nat} (k : ∀ {t}, Keeps s₀ t → Keeps s₀ (refill t)) :
    Keeps s₀ (sendFitting c d fetch refill n cap room s) := by
  induction n generalizing s cap room with
  | zero => exact h
  | succ n ih =>
    dsimp only [Machine.sendFitting]
    split
    · exact k h
    split
    · exact k h
    · exact ih (.bumpCore (.useLink (.countFlits (.noteLeft (.handOver (.modCore (k h)))))))

theorem Keeps.serveSlot : Keeps s₀ (serveSlot c d fetch s) := by
  have refilled {t : State} {serves : Dir → Bool} (k : Keeps s₀ t) :
      Keeps s₀ (if fetch then Machine.refillFetch c d serves 16 t else Machine.refillSvc c d 16 t) := .ite (.refillFetch k) (.refillSvc k)
  unfold Machine.serveSlot
  exact .ite h (.ite (.sendFitting h refilled) (.ite (.promote (.advanceOutput (.sendFitting h refilled))) h))

theorem Completes.execOpenSlotService : Completes s₀ (execOpenSlotService core dir s) := by
  unfold Machine.execOpenSlotService
  exact .next (.serveSlot h)

theorem Completes.execFetchLaneService : Completes s₀ (execFetchLaneService core dir s) := by
  unfold Machine.execFetchLaneService
  exact .next (.serveSlot h)

theorem Completes.execFirstSlipRearm : Completes s₀ (execFirstSlipRearm s) := by unfold Machine.execFirstSlipRearm; exact .next (.update h)

theorem Keeps.takeHeader : Keeps s₀ (takeHeader c d p rest s) := by
  dsimp only [Machine.takeHeader]
  split
  · exact .setCore h
  split
  · exact .setCore h
  split
  · exact .setCore h
  · exact .meshFault (.setCore h)

theorem Completes.execHeaderArrival : Completes s₀ (execHeaderArrival core dir ecc s) := by
  dsimp only [Machine.execHeaderArrival]
  split
  · exact .next h
  split
  · exact .next h
  split
  · exact .next (.meshFault (.modCore h))
  · exact .next (.takeHeader (.bumpCore h))
  · exact .next (.takeHeader h)

theorem Completes.execLastMeshFaultRead : Completes s₀ (execLastMeshFaultRead s) := by unfold Machine.execLastMeshFaultRead; exact .next (.update h)

theorem Completes.execRouterDrained : Completes s₀ (execRouterDrained core s) := by
  unfold Machine.execRouterDrained
  exact .ite (.next h) (.ite (.ite (.next (.setCore h)) (.next h)) (.ite (.next (.setCore h)) (.next h)))

theorem Keeps.endMcast : Keeps s₀ (endMcast c l₁ s) := by
  unfold Machine.endMcast
  exact .iteOn id (fun k => .sendFromL (.bump k)) (.promote (.modCore h))

theorem Completes.execServiceAnswer : Completes s₀ (execServiceAnswer core s) := by
  dsimp only [Machine.execServiceAnswer]
  split
  · exact .next h
  split
  · exact .next h
  split
  · exact .next (.modCore h)
  · exact .next (.iteOn .endMcast id (.modCore (.modCore h)))

theorem Completes.execServiceMcastTimeout : Completes s₀ (execServiceMcastTimeout core s) := by
  dsimp only [Machine.execServiceMcastTimeout]
  split
  · exact .next h
  · exact .next (.endMcast h)

end Sys2Proof.Machine
end

section
/-! SUPPORT. What every command keeps: Bowls and stream wakes. -/
namespace Sys2Proof.Machine

variable {s₀ s : State} {c op : Nat} {core : CoreId} {bowl : BowlId} {stream : StreamId} {ledgered : Bool} {f : Nat → Pkt → State → State}
  (h : Keeps s₀ s)
include h

theorem Keeps.lqPop : Keeps s₀ (lqPop c s) := by unfold Machine.lqPop; exact .modCore h

theorem Completes.execBowlDelivery : Completes s₀ (execBowlDelivery core s) := by
  dsimp only [Machine.execBowlDelivery]
  split
  · exact .next h
  split
  · exact .next h
  split
  · exact .next (.acceptAt (.modCore (.lqPop h)))
  · exact .next h
  · exact .next (.discardAt (.lqPop h))
  · exact .next (.refuseAt (.lqPop h))

theorem Completes.execWritePointerPublish : Completes s₀ (execWritePointerPublish core bowl s) := by
  unfold Machine.execWritePointerPublish
  exact .ite (.next h) (.next (.modCore h))

theorem Completes.execChannelClosed : Completes s₀ (execChannelClosed core s) := by
  dsimp only [Machine.execChannelClosed]
  split
  · exact .next h
  split
  · exact .next h
  split
  · exact .next (.ite (.lqPop h) (.retrieverFault (.lqPop h)))
  · exact .ite (.next (.streamFault (.lqPop h))) (.next (.bumpCore (.lqPop h)))

theorem Completes.execServiceNack : Completes s₀ (execServiceNack core s) := by
  dsimp only [Machine.execServiceNack]
  split
  · exact .next h
  · exact .ite (.next h) (.next (.deliverNack (.lqPop h)))

theorem Completes.execStreamWake : Completes s₀ (execStreamWake core stream s) := by
  unfold Machine.execStreamWake
  exact .ite (.next (.wakeStream h)) (.next h)

theorem Keeps.remoteOp (keeps : ∀ {x y t}, Keeps s₀ t → Keeps s₀ (f x y t)) : Keeps s₀ (remoteOp c op ledgered f s) := by
  dsimp only [Machine.remoteOp]
  split
  · exact h
  · exact .ite h (.ite (keeps (.lqPop h)) (.staleCollarOp (.lqPop h)))

theorem Completes.execRemotePost : Completes s₀ (execRemotePost core s) := by unfold Machine.execRemotePost; exact .next (.remoteOp h .collarAdd)

theorem Completes.execRemoteFetchAdd : Completes s₀ (execRemoteFetchAdd core s) := by
  unfold Machine.execRemoteFetchAdd
  exact .next (.remoteOp h fun k => .sendFromL (.collarAdd k))

theorem Completes.execRemoteClaim : Completes s₀ (execRemoteClaim core s) := by
  unfold Machine.execRemoteClaim
  exact .next (.remoteOp h fun k => .sendFromL (.onClaim k))

theorem Completes.execRemoteComplete : Completes s₀ (execRemoteComplete core s) := by
  unfold Machine.execRemoteComplete
  exact .next (.remoteOp h .onComplete)

theorem Completes.execNullClaim : Completes s₀ (execNullClaim core s) := by
  dsimp only [Machine.execNullClaim]
  split
  · exact .next h
  · exact .ite (.next (.lqPop h)) (.next h)

theorem Completes.execCollarReply : Completes s₀ (execCollarReply core s) := by
  dsimp only [Machine.execCollarReply]
  split
  · exact .next h
  · exact .ite (.next h) (.next (.claimAnswered (.lqPop h)))

end Sys2Proof.Machine
end

section
/-! SUPPORT. What every command keeps: the issue of an instruction. -/
namespace Sys2Proof.Machine

variable {s₀ s : State} {x : Issued} {op c i seq : Nat} {run : Issued → State → State} {e : Engine} (h : Keeps s₀ s)
include h

theorem Keeps.noteIssue : Keeps s₀ (noteIssue x s) := by
  unfold Machine.noteIssue
  exact .ite (.modCore h) (.streamProgress (.advanceCore (.modCore h)))

theorem Keeps.issueOp (keeps : ∀ {x t}, Keeps s₀ t → Keeps s₀ (run x t)) : Keeps s₀ (issueOp op c i run s) := by
  unfold Machine.issueOp
  extract_lets _ _ _ _ _ _ u
  have read : Keeps s₀ u := .ite (.update h) h
  split
  · exact h
  split
  · exact .streamFault h
  split
  · exact .streamFault read
  split
  · exact read
  split
  · exact read
  split
  · exact .streamFault read
  · exact keeps (.noteIssue read)

theorem Keeps.enqueueOp : Keeps s₀ (enqueueOp e x s) := by unfold Machine.enqueueOp; exact .setCore h

theorem Keeps.completeOp : Keeps s₀ (completeOp c seq s) := by unfold Machine.completeOp; exact .runDeferred (.modCore h)

end Sys2Proof.Machine
end

section
/-! SUPPORT. What every command keeps: the fetch engine. -/
namespace Sys2Proof.Machine

variable {s₀ s : State} {core : CoreId} {stream : StreamId} (h : Keeps s₀ s)
include h

theorem Completes.execFetch : Completes s₀ (execFetch core stream s) := by unfold Machine.execFetch; exact .next (.issueOp h .enqueueOp)

theorem Completes.execStore : Completes s₀ (execStore core stream s) := by unfold Machine.execStore; exact .next (.issueOp h .enqueueOp)

theorem Completes.execFetchRequestIssue : Completes s₀ (execFetchRequestIssue core s) := by
  dsimp only [Machine.execFetchRequestIssue]
  split
  · split
    · exact .next h
    split
    · split
      next e => exact .next (.enterL (.bumpCore (.modCore (.snd e (.readPort h)))))
      next e => exact .next (.snd e (.readPort h))
    · exact .next (.enterL (.modCore h))
  · exact .next h

theorem Completes.execFetchReply : Completes s₀ (execFetchReply core s) := by
  dsimp only [Machine.execFetchReply]
  split
  · exact .next h
  split
  · exact .next h
  split
  · exact .next (.bumpCore (.lqPop h))
  split
  · exact .next (.lqPop h)
  · exact .iteOn
      (fun k => .ite (.next (.advanceCore k)) (.next (.advanceCore (.modCore (.bumpCore (.writePort k))))))
      (fun k => .ite (.next (.streamFaultAt (.modCore k))) (.next (.modCore k)))
      (.modCore (.lqPop h))

theorem Completes.execFetchComplete : Completes s₀ (execFetchComplete core s) := by
  dsimp only [Machine.execFetchComplete]
  split
  · exact .next (.completeOp h)
  · exact .next h

end Sys2Proof.Machine
end

section
/-! SUPPORT. What every command keeps: the HBM stacks. -/
namespace Sys2Proof.Machine

variable {s₀ s : State} {stack : StackId} {pick : Fin 256} {bank : Fin 2048} {st : Nat} {temp : BitVec 32} {ok : Bool} (h : Keeps s₀ s)
include h

theorem Completes.execRequestAccept : Completes s₀ (execRequestAccept stack s) := by
  dsimp only [Machine.execRequestAccept]
  split
  · exact .next h
  split
  · exact .next h
  · exact .next (.takeReq h)

theorem Completes.execStackServe : Completes s₀ (execStackServe stack pick s) := by
  dsimp only [Machine.execStackServe]
  split
  · exact .next h
  · exact .ite (.next h) (.next (.serveReq (.setStack h)))

theorem Completes.execRfm : Completes s₀ (execRfm stack bank s) := by unfold Machine.execRfm; exact .ite (.next (.issueRfm h)) (.next h)

theorem Keeps.startRecal : Keeps s₀ (startRecal st s) := by unfold Machine.startRecal; exact .ite (.modStack h) h

theorem Keeps.recalibrate : Keeps s₀ (recalibrate st s).2 := by unfold Machine.recalibrate; exact .pair (.startRecal h)

theorem Completes.execRecalibrate : Completes s₀ (execRecalibrate stack s) := by
  unfold Machine.execRecalibrate
  exact .next (.command h .recalibrate)

theorem Completes.execTempRecalibration : Completes s₀ (execTempRecalibration stack temp s) := by
  unfold Machine.execTempRecalibration
  exact .next (.ite (.startRecal (.modStack h)) (.modStack h))

theorem Keeps.retrain : Keeps s₀ (retrain st s).2 := by unfold Machine.retrain; exact .iteSnd h (.iteSnd (.pair (.modStack h)) h)

theorem Completes.execRetrain : Completes s₀ (execRetrain stack s) := by unfold Machine.execRetrain; exact .next (.command h .retrain)

theorem Keeps.filterHbm {p : Nat × Byte → Bool} : Keeps s₀ { s with hbm := s.hbm.filter p } :=
  ⟨h.pending, fun c => tabWf_filter 0 p (h.hbm c), h.ownership⟩

theorem Keeps.failStack : Keeps s₀ (failStack st s) := by unfold Machine.failStack; exact .alert (.writeFaultRecord (.filterHbm (.modStack h)))

theorem Completes.execRetrainDone : Completes s₀ (execRetrainDone stack ok s) := by
  unfold Machine.execRetrainDone
  exact .ite (.next (.ite (.bump (.modStack h)) (.failStack h))) (.next h)

end Sys2Proof.Machine
end

section
/-! SUPPORT. What every command keeps: which physical core holds which logical core. -/
namespace Sys2Proof.Machine

variable {s₀ s : State} {n : Nat} {f : PhysCore → PhysCore} (h : Keeps s₀ s)
include h

theorem Keeps.modPhys : Keeps s₀ (s.modPhys n f) := by unfold State.modPhys; exact .update h

end Sys2Proof.Machine
end

section
/-! SUPPORT. What every command keeps: the step gate of a job. -/
namespace Sys2Proof.Machine

variable {s₀ s : State} {dst g₁ : Nat} {body : CtrlBody} {packs : List Nat} {g : Time} {step : Word} (h : Keeps s₀ s)
include h

theorem Keeps.sendCtrlTo : Keeps s₀ (sendCtrlTo dst body s) := by
  dsimp only [Machine.sendCtrlTo]
  split
  · exact .sendCtrl h
  · exact h

theorem Keeps.setGo : Keeps s₀ (setGo packs g s) := by unfold Machine.setGo; exact .foldl h .modPack

theorem Keeps.deviceGo : Keeps s₀ (deviceGo step g s) := by unfold Machine.deviceGo; exact .update (.setGo (.foldl h .sendCtrlTo))

theorem Keeps.deviceReady : Keeps s₀ (deviceReady s) := by
  unfold Machine.deviceReady
  exact .ite h (.ite (.deviceGo h) (.ite h (.update (.sendCtrlTo h))))

theorem Keeps.postUp : Keeps s₀ (postUp g₁ s) := by unfold Machine.postUp; exact .ite h (.ite (.deviceReady h) (.setGo h))

end Sys2Proof.Machine
end

section
/-! SUPPORT. What every command keeps: the launch of steps. -/
namespace Sys2Proof.Machine

variable {s₀ s : State} {p g bit sub n c margin fn : Nat} {core : CoreId} {step : Word} {d : Descriptor} {first gated ide : Bool} {pack : PackId}
  {r : Replace} {packs : List Nat} {target : ClockTarget} {launch time : Time} {f : State → State} {mode : Option Byte} {bytes : Fin 64}
  (h : Keeps s₀ s)
include h

theorem Keeps.freqBoundary : Keeps s₀ (freqBoundary p s) := by unfold Machine.freqBoundary; exact .ite (.foldl h .modPack) h

theorem Keeps.freqIdle : Keeps s₀ (freqIdle p s) := by unfold Machine.freqIdle; exact .ite (.modPack h) h

theorem Keeps.packPost : Keeps s₀ (packPost p s) := by
  dsimp only [Machine.packPost]
  split
  · exact h
  · exact .ite h (.postUp (.modPack h))

theorem Completes.execStepReadyPost : Completes s₀ (execStepReadyPost core s) := by
  unfold Machine.execStepReadyPost
  exact .ite (.next h) (.next (.packPost (.freqBoundary (.modCore h))))

theorem Keeps.countOnce : Keeps s₀ (countOnce g bit sub n step s) := by unfold Machine.countOnce; exact .ite h (.bump (.modProg h))

theorem Keeps.countLaunch : Keeps s₀ (countLaunch g p d s) := by
  unfold Machine.countLaunch
  exact .ite (.countOnce h) (.ite (.countOnce h) (.ite (.countOnce h) h))

theorem Keeps.takeSnapshot : Keeps s₀ (takeSnapshot c s) := by unfold Machine.takeSnapshot; exact .update h

theorem Keeps.launchCore : Keeps s₀ (launchCore first c s) := by unfold Machine.launchCore; exact .modCore (.takeSnapshot h)

theorem Keeps.openBowls : Keeps s₀ (openBowls g s) := by unfold Machine.openBowls; exact .foldl h .modCore

theorem Keeps.enterStep : Keeps s₀ (enterStep g p step gated s) := by
  unfold Machine.enterStep
  exact .iteOn .update id (.modProg (.modPack (.foldl (.ite h (.openBowls h)) .launchCore)))

theorem Keeps.launchPack : Keeps s₀ (launchPack g p d s) := by unfold Machine.launchPack; exact .enterStep (.modPack (.countLaunch h))

theorem Completes.execTimedLaunch : Completes s₀ (execTimedLaunch pack s) := by
  dsimp only [Machine.execTimedLaunch]
  split
  · exact .ite (.next h) (.ite (.next (.launchPack h)) (.next (.freqBoundary h)))
  · exact .next h

theorem Keeps.launchReplay : Keeps s₀ (launchReplay g p r s) := by
  unfold Machine.launchReplay
  exact .ite (.setSetting (.bump (.update (.restartWatch (.enterStep h))))) (.enterStep h)

theorem Completes.execGatedLaunch : Completes s₀ (execGatedLaunch pack s) := by
  dsimp only [Machine.execGatedLaunch]
  split
  · split
    · exact .next h
    split
    · exact .next (.launchReplay h)
    · exact .next (.launchPack h)
    · exact .next h
  · exact .next h

theorem Keeps.noteOverrun : Keeps s₀ (noteOverrun p s) := by
  dsimp only [Machine.noteOverrun]
  split
  · exact .ite h (.countOnce (.modPack (.bump h)))
  · exact h

theorem Completes.execOverrun : Completes s₀ (execOverrun pack s) := by unfold Machine.execOverrun; exact .next (.noteOverrun h)

theorem Completes.execRelockDone : Completes s₀ (execRelockDone pack s) := by
  dsimp only [Machine.execRelockDone]
  split
  · exact .next h
  · exact .next (.packPost (.modPack h))

theorem Keeps.seamRateFault : Keeps s₀ (seamRateFault g s) := by
  dsimp only [Machine.seamRateFault]
  split
  · exact h
  · exact .reportFault (.bump (.foldl (.modProg h) .stopPack))

theorem Keeps.restoreSlice : Keeps s₀ (restoreSlice p c s) := by
  unfold Machine.restoreSlice; exact .ite (.readWords (.modCore h)) (.modCore h)

theorem Keeps.abandonSlice : Keeps s₀ (abandonSlice p s) := by
  dsimp only [Machine.abandonSlice]
  split
  · exact h
  refine .bump ?_
  split
  · exact .restoreSlice (.update h)
  · exact .update h

theorem Keeps.clockDown : Keeps s₀ (clockDown packs s) := by
  unfold Machine.clockDown
  exact .foldl (.foldl (.foldl (.foldl (.update (.alert (.bump h))) .abandonSlice) .modPack) .packPost) .seamRateFault

theorem Keeps.launchBeat : Keeps s₀ (launchBeat s) := by
  unfold Machine.launchBeat
  exact .foldl (.foldl (.bump h) .bumpCore) fun k => .freqBoundary (.noteOverrun k)

theorem Completes.execEmergencyClockdown : Completes s₀ (execEmergencyClockdown target s) := by
  unfold Machine.execEmergencyClockdown
  exact .next (.ite (.clockDown h) h)

theorem Completes.execCycleStretch : Completes s₀ (execCycleStretch core s) := by unfold Machine.execCycleStretch; exact .next (.bumpCore h)

theorem Keeps.appendDescriptor : Keeps s₀ (appendDescriptor p launch gated margin s) := by unfold Machine.appendDescriptor; exact .setPack h

theorem Keeps.genStart : Keeps s₀ (genStart s).2 := by
  unfold Machine.genStart
  exact .iteSnd h (.iteSnd h (.iteSnd h (.iteSnd h (.pair (.update h)))))

theorem Completes.execGeneratorStart : Completes s₀ (execGeneratorStart s) := by
  unfold Machine.execGeneratorStart
  exact .next (.command h .genStart)

theorem Keeps.genStop : Keeps s₀ (genStop s).2 := by unfold Machine.genStop; exact .pair (.update h)

theorem Completes.execGeneratorStop : Completes s₀ (execGeneratorStop s) := by unfold Machine.execGeneratorStop; exact .next (.command h .genStop)

theorem Keeps.genHostFed : Keeps s₀ (genHostFed s).2 := by unfold Machine.genHostFed; exact .pair (.update h)

theorem Completes.execHostFed : Completes s₀ (execHostFed s) := by unfold Machine.execHostFed; exact .next (.command h .genHostFed)

theorem Completes.execGeneratorDescriptor : Completes s₀ (execGeneratorDescriptor s) := by
  dsimp only [Machine.execGeneratorDescriptor]
  split
  · exact .next h
  · exact .ite (.next h) (.next (.update (.foldl h .appendDescriptor)))

theorem Keeps.barWrite (keeps : ∀ {t}, Keeps s₀ t → Keeps s₀ (f t)) : Keeps s₀ (barWrite fn ide f s) := by
  unfold Machine.barWrite
  exact .ite h (.ite (.bump h) (keeps h))

theorem Keeps.lwDrop : Keeps s₀ (lwDrop p s) := by unfold Machine.lwDrop; exact .bump (.update h)

theorem Completes.execLwTimeWrite : Completes s₀ (execLwTimeWrite fn₁ pack mode time bytes ide s) := by
  unfold Machine.execLwTimeWrite
  refine .next (.barWrite h fun {t} k => ?_)
  extract_lets p u
  have gated : Keeps s₀ u := by
    unfold u
    split
    · exact .ite (.update k) k
    · exact k
  refine .ite k ?_
  split
  · exact .lwDrop gated
  · exact .ite (.lwDrop gated) (.appendDescriptor gated)

theorem Completes.execHowlRefLock : Completes s₀ (execHowlRefLock s) := by unfold Machine.execHowlRefLock; exact .next (.update h)

theorem Completes.execHoldover : Completes s₀ (execHoldover s) := by unfold Machine.execHoldover; exact .next (.update h)

theorem Completes.execHowlBroadcast : Completes s₀ (execHowlBroadcast s) := by
  unfold Machine.execHowlBroadcast
  exact .ite (.next h) (.next (.bump (.foldl h .modCore)))

theorem Completes.execHowlPpsCapture : Completes s₀ (execHowlPpsCapture s) := by
  unfold Machine.execHowlPpsCapture
  exact .ite (.next h) (.next (.update h))

end Sys2Proof.Machine
end

section
/-! SUPPORT. What every command keeps: descriptor rings. -/
namespace Sys2Proof.Machine

variable {s₀ s : State} {n bit fn₁ : Nat} {fn : Fin 17} {f : State → State} {ctx : CtxId} {value : BitVec 32} {ide : Bool} {bits : Byte}
  {kinds : Nat → Bool} (h : Keeps s₀ s)
include h

theorem Keeps.raiseCtx : Keeps s₀ (raiseCtx n s) := by unfold Machine.raiseCtx; exact .raiseMsix h

theorem Keeps.doorbellError : Keeps s₀ (doorbellError n bit s) := by unfold Machine.doorbellError; exact .bump (.modCtx h)

theorem Keeps.doorbell (keeps : ∀ {t}, Keeps s₀ t → Keeps s₀ (f t)) : Keeps s₀ (doorbell fn₁ n f s) := by
  dsimp only [Machine.doorbell]
  split
  · exact h
  split
  · exact .doorbellError h
  · exact keeps h

theorem Completes.execInTailWrite : Completes s₀ (execInTailWrite fn ctx value ide s) := by
  unfold Machine.execInTailWrite
  exact .next (.barWrite h fun k => .doorbell k fun m => .ite (.setCtx m) (.doorbellError m))

theorem Completes.execCplHeadWrite : Completes s₀ (execCplHeadWrite fn ctx value ide s) := by
  unfold Machine.execCplHeadWrite
  exact .next (.barWrite h fun k => .doorbell k fun m => .ite (.setCtx m) (.doorbellError m))

theorem Completes.execRingErrClear : Completes s₀ (execRingErrClear fn ctx bits ide s) := by
  unfold Machine.execRingErrClear
  exact .next (.barWrite h fun k => .ite (.modCtx k) k)

theorem Keeps.consumeEntry : Keeps s₀ (consumeEntry n s) := by unfold Machine.consumeEntry; exact .setCtx (.portWrite h)

theorem Keeps.ringRefuse : Keeps s₀ (ringRefuse n s) := by
  dsimp only [Machine.ringRefuse]
  split
  · exact .setCtx h
  split
  next e => exact .iteOn .raiseCtx id (.consumeEntry (.cplAccepted (.snd e (.ringWrite (.fresh h))) .portWrite))
  next e => exact .retrieverFault (.snd e (.ringWrite (.fresh h)))
  next e => exact .retrieverFault (.snd e (.ringWrite (.fresh h)))
  · exact .setCtx h

theorem Keeps.ringSettle : Keeps s₀ (ringSettle n s) := by unfold Machine.ringSettle; exact .ite (.setCtx h) h

theorem Keeps.postInput : Keeps s₀ (postInput n s) := by unfold Machine.postInput; exact .ite (.collarAdd h) (.staleCollarOp h)

theorem Keeps.inputEntry : Keeps s₀ (inputEntry n kinds s) := by
  dsimp only [Machine.inputEntry]
  split
  · exact .ringSettle h
  split
  · exact .ringSettle h
  split
  next e => exact .retrieverFault (.snd e (.ringRead (.ringSettle h)))
  next e => exact .retrieverFault (.snd e (.ringRead (.ringSettle h)))
  · exact .ringSettle h
  next e => exact .ite
              (.ringSettle h)
              (.iteOn .ringRefuse (fun k => .ite (.modCtx k) (.postInput (.modCtx k))) (.setCtx (.snd e (.ringRead (.ringSettle h)))))

theorem Completes.execInputTokens : Completes s₀ (execInputTokens ctx s) := by unfold Machine.execInputTokens; exact .next (.inputEntry h)

theorem Completes.execInputParams : Completes s₀ (execInputParams ctx s) := by unfold Machine.execInputParams; exact .next (.inputEntry h)

theorem Completes.execInputHandoff : Completes s₀ (execInputHandoff ctx s) := by unfold Machine.execInputHandoff; exact .next (.inputEntry h)

theorem Completes.execInputClose : Completes s₀ (execInputClose ctx s) := by unfold Machine.execInputClose; exact .next (.inputEntry h)

theorem Completes.execParamsAnswer : Completes s₀ (execParamsAnswer ctx s) := by
  dsimp only [Machine.execParamsAnswer]
  split
  · exact .next (.consumeEntry (.setCtx h))
  · exact .next (.ringRefuse h)
  all_goals exact .next h

end Sys2Proof.Machine
end

section
/-! SUPPORT. What every command keeps: the matrix engine. -/
namespace Sys2Proof.Machine

variable {s₀ s : State} {c port p line ncols row tail seq upto a : Nat} {l : List (Nat × Nat)} {x : Mma} {o : EngOp} {axis skip : Bool}
  {st : Word} {ch : List Word} {j : CvtCount} {r : List Byte × Option Byte × CvtCount} {core : CoreId} {stream : StreamId}
  {finding : Option (Bool × Nat)} {upsets : List Upset} (h : Keeps s₀ s)
include h

theorem Keeps.readMany : Keeps s₀ (readMany c port l s).2 := by
  dsimp only [Machine.readMany]
  refine .foldlSnd h fun k => ?_
  split
  · exact .pair (.readPort k)
  · exact .pair (.readPort k)

theorem Keeps.readOperands : Keeps s₀ (readOperands c x p s).2 := by
  dsimp only [Machine.readOperands]
  split
  · exact .pair (.readMany (.readMany h))
  · exact .pair (.readMany (.readMany h))

theorem Keeps.checkMismatch : Keeps s₀ (checkMismatch c o axis line s) := by
  unfold Machine.checkMismatch
  exact .ite (.bumpCore (.ite (.update (.modCore h)) (.modCore h))) (.reportFault (.stopPack (.bumpCore (.update (.modCore h)))))

theorem Keeps.stageVector : Keeps s₀ (stageVector c x st s).2 := by
  dsimp only [Machine.stageVector]
  split
  · exact h
  split
  · exact h
  split
  next e => exact .snd e (.readPort h)
  next e => exact .snd e (.readPort h)

theorem Keeps.stageVectors : Keeps s₀ (stageVectors c x ch s).2 := by
  dsimp only [Machine.stageVectors]
  refine .foldlSnd h fun k => ?_
  split
  · exact .pair (.stageVector k)
  · exact .pair (.stageVector k)

theorem Keeps.apply : Keeps s₀ (j.apply c s) := by unfold CvtCount.apply; exact .bumpCore (.bumpCore (.bumpCore h))

theorem Keeps.readResids : Keeps s₀ (readResids c x ch ncols p row s).2 := by
  dsimp only [Machine.readResids]
  refine .foldlSnd h fun k => ?_
  split
  · exact .pair (.readPort k)
  · exact .pair (.readPort k)

theorem Keeps.drainInputs : Keeps s₀ (drainInputs c x ch p s).2 := by
  dsimp only [Machine.drainInputs]
  split
  · exact .pair (.stageVectors (.readPort (.readPort h)))
  · exact .pair (.stageVectors (.readPort (.readPort h)))

theorem Keeps.writeRow : Keeps s₀ (writeRow c x tail p row r s) := by
  dsimp only [Machine.writeRow]
  refine .apply ?_
  split
  · exact .writePort (.writeArray h)
  · exact .writeArray h

theorem Keeps.drainProblem : Keeps s₀ (drainProblem c o p s).2 := by
  unfold Machine.drainProblem
  extract_lets x ch rows ncols tail
  split
  next e => exact .snd e (.drainInputs h)
  next e =>
  have drained := Keeps.snd e (.drainInputs h)
  split
  · extract_lets r
    have read : Keeps s₀ r.2 := .foldlSnd drained fun k => by
      dsimp only
      split
      · exact .readResids k
      · exact .readResids k
    clear_value r
    split
    · exact read
    · exact .foldl read .writeRow
  · refine .foldlSnd drained fun k => ?_
    split
    · exact k
    split
    next e' => exact .snd e' (.readResids k)
    next e' => exact .writeRow (.snd e' (.readResids k))

theorem Keeps.drainNext : Keeps s₀ (drainNext c o s) := by unfold Machine.drainNext; exact .modCore (.iteOn .advanceCore id (.drainProblem h))

theorem Keeps.drainUpTo : Keeps s₀ (drainUpTo c seq upto n s) := by
  induction n generalizing s with
  | zero => exact h
  | succ n ih =>
    dsimp only [Machine.drainUpTo]
    split
    · exact .ite (ih (.drainNext h)) h
    · exact h

theorem Keeps.drainBefore : Keeps s₀ (drainBefore c a s) := by
  dsimp only [Machine.drainBefore]
  refine .foldl h fun k => ?_
  split
  · split
    · exact .drainUpTo k
    · exact k
  · exact k

theorem Completes.execMma : Completes s₀ (execMma core stream s) := by
  unfold Machine.execMma
  exact .next (.issueOp h fun k => .ite (.modCore (.enqueueOp k)) (.enqueueOp k))

theorem Completes.execDcfg : Completes s₀ (execDcfg core stream s) := by unfold Machine.execDcfg; exact .next (.issueOp h .enqueueOp)

theorem Completes.execDcfgComplete : Completes s₀ (execDcfgComplete core s) := by
  dsimp only [Machine.execDcfgComplete]
  split
  · exact .next h
  split
  · exact .next h
  split
  next e => exact .next (.completeOp (.snd e (.readPort h)))
  next e => exact .ite
              (.next (.completeOp (.ite (.streamFaultAt (.snd e (.readPort h))) (.snd e (.readPort h)))))
              (.next (.completeOp (.modCore (.snd e (.readPort h)))))

theorem Keeps.afterCompute : Keeps s₀ (afterCompute c o skip finding s) := by
  dsimp only [Machine.afterCompute]
  split
  · exact .modCore h
  split
  · exact .bumpCore (.modCore h)
  split
  · exact .bumpCore (.modCore h)
  · exact .checkMismatch (.bumpCore (.modCore h))

theorem Completes.execMatrixProblemReady : Completes s₀ (execMatrixProblemReady core upsets s) := by
  dsimp only [Machine.execMatrixProblemReady]
  split
  · exact .next h
  split
  · exact .next h
  split
  next e => exact .next (.modCore (.snd e (.readOperands (.drainBefore h))))
  next e => exact .next (.afterCompute (.advanceCore (.bumpCore (.bumpCore (.modCore (.snd e (.readOperands (.drainBefore h))))))))

theorem Completes.execDrainComplete : Completes s₀ (execDrainComplete core s) := by
  dsimp only [Machine.execDrainComplete]
  split
  · exact .next h
  split
  · exact .next h
  split
  · exact .next (.ite (.drainUpTo h) (.completeOp (.drainUpTo h)))
  · exact .next (.drainUpTo h)

end Sys2Proof.Machine
end

section
/-! SUPPORT. What every command keeps: the vector engine. -/
namespace Sys2Proof.Machine

variable {s₀ s : State} {c port kind n : Nat} {reg : Word} {f : Fmt} {o : EngOp} {core : CoreId} {stream : StreamId} (h : Keeps s₀ s)
include h

theorem Keeps.readSource : Keeps s₀ (readSource c port reg kind f n s).2 := by
  dsimp only [Machine.readSource]
  split
  · exact h
  split
  · exact .pair (.iteSnd (.readPort (.readPort h)) (.iteSnd (.readPort (.readPort h)) (.pair (.readPort h))))
  · exact .pair (.iteSnd (.readPort (.readPort h)) (.iteSnd (.readPort (.readPort h)) (.pair (.readPort h))))

theorem Keeps.readMask : Keeps s₀ (readMask c port reg n s).2 := by
  dsimp only [Machine.readMask]
  split
  next e => exact .snd e (.readPort h)
  next e => exact .snd e (.readPort h)

theorem Keeps.runCmp : Keeps s₀ (runCmp c o s).2 := by
  dsimp only [Machine.runCmp]
  split
  · exact .pair (.readSource (.readSource h))
  · exact .pair (.readSource (.readSource h))

theorem Keeps.runReduce : Keeps s₀ (runReduce c o s).2 := by
  dsimp only [Machine.runReduce]
  split
  next e => exact .snd e (.readSource h)
  next e => exact .snd e (.readSource h)

theorem Keeps.runGather : Keeps s₀ (runGather c o s).2 := by
  dsimp only [Machine.runGather]
  split
  · exact .pair (.readPort (.readPort h))
  · exact .pair (.readPort (.readPort h))

theorem Keeps.runElementwise : Keeps s₀ (runElementwise c o s).2 := by
  unfold Machine.runElementwise
  extract_lets f op l fa fb two inPlace ra rb rm rd
  have ofA : Keeps s₀ ra.2 := .readSource h
  have ofB : Keeps s₀ rb.2 := .iteSnd (.readSource ofA) ofA
  have ofMask : Keeps s₀ rm.2 := .iteSnd (.readMask ofB) ofB
  have ofD : Keeps s₀ rd.2 := .iteSnd (.readSource ofMask) ofMask
  clear_value rd
  split
  · exact ofD
  · exact ofD

theorem Keeps.runVector : Keeps s₀ (runVector c o s).2 := by
  dsimp only [Machine.runVector]
  split
  · exact .runCmp h
  · exact .runReduce h
  · exact .runGather h
  · exact .runElementwise h

theorem Completes.execVectorComplete : Completes s₀ (execVectorComplete core s) := by
  dsimp only [Machine.execVectorComplete]
  split
  · exact .next h
  split
  · exact .next h
  split
  next e => exact .next (.modCore (.snd e (.runVector h)))
  next e => exact .next (.completeOp (.advanceCore (.bumpCore (.bumpCore (.apply (.foldl (.snd e (.runVector h)) .writeArray))))))

theorem Completes.execAdd : Completes s₀ (execAdd core stream s) := by unfold Machine.execAdd; exact .next (.issueOp h .enqueueOp)

theorem Completes.execSub : Completes s₀ (execSub core stream s) := by unfold Machine.execSub; exact .next (.issueOp h .enqueueOp)

theorem Completes.execMul : Completes s₀ (execMul core stream s) := by unfold Machine.execMul; exact .next (.issueOp h .enqueueOp)

theorem Completes.execFma : Completes s₀ (execFma core stream s) := by unfold Machine.execFma; exact .next (.issueOp h .enqueueOp)

theorem Completes.execMin : Completes s₀ (execMin core stream s) := by unfold Machine.execMin; exact .next (.issueOp h .enqueueOp)

theorem Completes.execMax : Completes s₀ (execMax core stream s) := by unfold Machine.execMax; exact .next (.issueOp h .enqueueOp)

theorem Completes.execAbs : Completes s₀ (execAbs core stream s) := by unfold Machine.execAbs; exact .next (.issueOp h .enqueueOp)

theorem Completes.execNeg : Completes s₀ (execNeg core stream s) := by unfold Machine.execNeg; exact .next (.issueOp h .enqueueOp)

theorem Completes.execCmp : Completes s₀ (execCmp core stream s) := by unfold Machine.execCmp; exact .next (.issueOp h .enqueueOp)

theorem Completes.execSel : Completes s₀ (execSel core stream s) := by unfold Machine.execSel; exact .next (.issueOp h .enqueueOp)

theorem Completes.execCvt : Completes s₀ (execCvt core stream s) := by unfold Machine.execCvt; exact .next (.issueOp h .enqueueOp)

theorem Completes.execFunc : Completes s₀ (execFunc core stream s) := by unfold Machine.execFunc; exact .next (.issueOp h .enqueueOp)

theorem Completes.execReduce : Completes s₀ (execReduce core stream s) := by unfold Machine.execReduce; exact .next (.issueOp h .enqueueOp)

theorem Completes.execGather : Completes s₀ (execGather core stream s) := by unfold Machine.execGather; exact .next (.issueOp h .enqueueOp)

theorem Completes.execFill : Completes s₀ (execFill core stream s) := by unfold Machine.execFill; exact .next (.issueOp h .enqueueOp)

end Sys2Proof.Machine
end

section
/-! SUPPORT. What every command keeps: the Retrievers. -/
namespace Sys2Proof.Machine

variable {s₀ s : State} {p n seq : Nat} {f : Retriever → Retriever} {x : Sample} {pack : PackId} {cancel : Bool} {ctx : CtxId} (h : Keeps s₀ s)
include h

theorem Keeps.modRetr : Keeps s₀ (s.modRetr p f) := by unfold State.modRetr; exact .modPack h

theorem Keeps.sendFeedback : Keeps s₀ (sendFeedback p x s) := by unfold Machine.sendFeedback; exact .sendFromL h

theorem Keeps.finishCancel : Keeps s₀ (finishCancel p n seq s) := by unfold Machine.finishCancel; exact .sendFeedback (.bump (.modRetr h))

theorem Keeps.cancelIfWhole : Keeps s₀ (cancelIfWhole p n seq s) := by
  dsimp only [Machine.cancelIfWhole]
  split
  · exact .ite (.finishCancel h) h
  · exact h

theorem Completes.execRetrieverLogits : Completes s₀ (execRetrieverLogits pack s) := by
  dsimp only [Machine.execRetrieverLogits]
  split
  · exact .next h
  · exact .ite (.next h)
      (.ite
        (.next (.retrieverFault (.lqPop h)))
        (.ite (.next (.retrieverFault (.lqPop h))) (.ite (.next h) (.next (.cancelIfWhole (.modRetr (.lqPop h)))))))

theorem Keeps.retrCommand : Keeps s₀ (retrCommand p cancel s) := by
  dsimp only [Machine.retrCommand]
  split
  · exact h
  · exact .ite h (.ite (.retrieverFault (.lqPop h)) (.ite (.lqPop h) (.ite (.retrieverFault (.lqPop h)) (.cancelIfWhole (.modRetr (.lqPop h))))))

theorem Completes.execRetrieverSampleCmd : Completes s₀ (execRetrieverSampleCmd pack s) := by
  unfold Machine.execRetrieverSampleCmd
  exact .next (.retrCommand h)

theorem Completes.execRetrieverCancelCmd : Completes s₀ (execRetrieverCancelCmd pack s) := by
  unfold Machine.execRetrieverCancelCmd
  exact .next (.retrCommand h)

theorem Completes.execSampleStart : Completes s₀ (execSampleStart pack s) := by
  dsimp only [Machine.execSampleStart]
  split
  · exact .next h
  split
  · exact .next h
  · exact .next (.ite (.retrieverFault h) (.bump (.modRetr h)))

omit h in
theorem Keeps.issueCpl {u : State} (e : issueCpl p x s = some u) (h : Keeps s₀ s) : Keeps s₀ u := by
  dsimp only [Machine.issueCpl] at e
  split at e
  · cases e
  split at e
  · cases e
  · cases e
    exact .sendFeedback (.update (.modRetr (.enterL h)))

theorem Completes.execSampleReady : Completes s₀ (execSampleReady pack s) := by
  dsimp only [Machine.execSampleReady]
  split
  · exact .next h
  split
  · exact .next h
  split
  · exact .next (.bump (.sendFeedback (.advancePack (.modRetr h))))
  split
  · exact .next (.modRetr (.advancePack (.modRetr h)))
  split
  next e => exact .next (.issueCpl e (.advancePack (.modRetr h)))
  · exact .next (.modRetr (.advancePack (.modRetr h)))

theorem Completes.execCompletionWrite : Completes s₀ (execCompletionWrite ctx s) := by
  dsimp only [Machine.execCompletionWrite]
  split
  · exact .next h
  split
  · exact .next (.ringRefuse h)
  split
  · exact .next h
  split
  · exact .next h
  next e => exact .next (.issueCpl e (.modRetr h))

theorem Completes.execCompletionAccepted : Completes s₀ (execCompletionAccepted pack s) := by
  dsimp only [Machine.execCompletionAccepted]
  split
  · exact .next h
  split
  · exact .next h
  split
  · exact .next (.bumpCore (.lqPop h))
  split
  · exact .next (.lqPop h)
  · exact .ite
      (.next (.iteOn id .retrieverFault (.modRetr (.lqPop h))))
      (.next (.iteOn .raiseCtx id (.bump (.cplAccepted (.modRetr (.lqPop h)) .portWrite))))

end Sys2Proof.Machine
end

section
/-! SUPPORT. What every command keeps: the end of a beat. -/
namespace Sys2Proof.Machine

variable {s₀ s : State} {p : Nat} (h : Keeps s₀ s)
include h

theorem Keeps.retrBeat : Keeps s₀ (retrBeat s p) := by unfold Machine.retrBeat; exact .ite h (.bump (.bump h))

theorem Keeps.beatEnds : Keeps s₀ (beatEnds s) := by unfold Machine.beatEnds; exact .foldl (.launchBeat h) .retrBeat

end Sys2Proof.Machine
end

section
/-! SUPPORT. What every command keeps: the mesh instructions. -/
namespace Sys2Proof.Machine

variable {s₀ s : State} {per c route bowl : Nat} {p : Pkt} {x : Issued} {src : Option (Nat × Nat)} {core : CoreId} {stream : StreamId} {b : Bowl}
  {cancel : Bool} (h : Keeps s₀ s)
include h

theorem Keeps.scheduleIn : Keeps s₀ (scheduleIn per c route p s).2.2 := by
  dsimp only [Machine.scheduleIn]
  exact .modCore h

theorem Keeps.schedulePkt : Keeps s₀ (schedulePkt c route p s).2.2 := by
  dsimp only [Machine.schedulePkt]
  exact .scheduleIn h

theorem Keeps.sendScheduled : Keeps s₀ (sendScheduled x route p src s) := by
  dsimp only [Machine.sendScheduled]
  split
  · exact .meshFault (.setCore (.schedulePkt h))
  split
  · split
    · exact .setCore (.schedulePkt h)
    · exact .meshFault (.setCore (.schedulePkt h))
  · exact .promote (.setCore (.schedulePkt h))

theorem Completes.execSend : Completes s₀ (execSend core stream s) := by unfold Machine.execSend; exact .next (.issueOp h .sendScheduled)

theorem Completes.execSendt : Completes s₀ (execSendt core stream s) := by
  unfold Machine.execSendt
  exact .next (.issueOp h fun k => .ite (.promote (.modCore k)) (.sendScheduled k))

theorem Keeps.takeFind {p : BitVec 15} : Keeps s₀ (takeFind c b n p s).2 := by
  induction n generalizing s p with
  | zero => exact h
  | succ n ih =>
    dsimp only [Machine.takeFind]
    split
    · exact h
    split
    next e => exact .snd e (.readPort h)
    next e => exact .iteSnd (ih (.snd e (.readPort h))) (.snd e (.readPort h))

theorem Keeps.parkOnBowl : Keeps s₀ (parkOnBowl x bowl s) := by unfold Machine.parkOnBowl; exact .modCore h

theorem Completes.execTake : Completes s₀ (execTake core stream s) := by
  dsimp only [Machine.execTake]
  refine .next ?_
  refine .issueOp h fun k => ?_
  split
  next e => exact .parkOnBowl (.snd e (.takeFind k))
  next e => exact .modCore (.snd e (.takeFind k))
  next e =>
    split
    · exact .streamFaultAt (.snd e (.takeFind k))
    split
    next e' => exact .modCore (.snd e' (.readPort (.snd e (.takeFind k))))
    next e' => exact .modCore (.snd e' (.readPort (.snd e (.takeFind k))))

theorem Keeps.retrieverCmd : Keeps s₀ (retrieverCmd x cancel s) := by unfold Machine.retrieverCmd; exact .sendScheduled h

theorem Completes.execRsample : Completes s₀ (execRsample core stream s) := by unfold Machine.execRsample; exact .next (.issueOp h .retrieverCmd)

theorem Completes.execRcancel : Completes s₀ (execRcancel core stream s) := by unfold Machine.execRcancel; exact .next (.issueOp h .retrieverCmd)

end Sys2Proof.Machine
end

section
/-! SUPPORT. What every command keeps: the Collar instructions. -/
namespace Sys2Proof.Machine

variable {s₀ s : State} {x : Issued} {isLocal : Bool} {collar r route per : Nat} {op : CollarOp} {p : Option Pkt} {core : CoreId}
  {stream : StreamId} {p₁ : Pkt} (h : Keeps s₀ s)
include h

theorem Keeps.deferOp : Keeps s₀ (deferOp x isLocal collar op p s) := by unfold Machine.deferOp; exact .runDeferred (.modCore h)

theorem Keeps.deferRemote : Keeps s₀ (deferRemote x op p₁ s) := by
  unfold Machine.deferRemote
  exact .ite (.sendScheduled h) (.deferOp (.schedulePkt h))

theorem Completes.execPost : Completes s₀ (execPost core stream s) := by
  unfold Machine.execPost
  exact .next (.issueOp h fun k => .ite (.deferRemote k) (.deferOp k))

theorem Completes.execWait : Completes s₀ (execWait core stream s) := by
  unfold Machine.execWait
  exact .next (.issueOp h fun k => .ite k (.modCore k))

theorem Keeps.setPending : Keeps s₀ (setPending x r s) := by unfold Machine.setPending; exact .modCore h

theorem Completes.execFadd : Completes s₀ (execFadd core stream s) := by
  unfold Machine.execFadd
  exact .next (.issueOp h fun k => .ite (.sendScheduled (.setPending k)) (.writeReg (.collarAdd k)))

theorem Completes.execReset : Completes s₀ (execReset core stream s) := by unfold Machine.execReset; exact .next (.issueOp h .modCore)

theorem Keeps.parkOnClaim : Keeps s₀ (parkOnClaim x r s) := by unfold Machine.parkOnClaim; exact .modCore h

theorem Completes.execClaim : Completes s₀ (execClaim core stream s) := by
  unfold Machine.execClaim
  exact .next (.issueOp h
    fun k => .iteOn (fun m => .sendScheduled (.modCore m)) (fun m => .claimAnswered (.onClaim m)) (.parkOnClaim (.setPending k)))

theorem Completes.execComplete : Completes s₀ (execComplete core stream s) := by
  unfold Machine.execComplete
  exact .next (.issueOp h fun k => .ite (.deferRemote k) (.deferOp k))

theorem Keeps.nullClaim : Keeps s₀ (nullClaim x route per s) := by unfold Machine.nullClaim; exact .modCore (.scheduleIn h)

theorem Keeps.nullClaims : Keeps s₀ (nullClaims x s) := by
  unfold Machine.nullClaims
  exact .promote (.foldl h fun k => .ite k (.foldl k fun m => .foldN m .nullClaim))

theorem Completes.execStepdone : Completes s₀ (execStepdone core stream s) := by
  unfold Machine.execStepdone
  exact .next (.issueOp h fun k => .modCore (.nullClaims k))

end Sys2Proof.Machine
end

section
/-! SUPPORT. What every command keeps: the forming of jobs. -/
namespace Sys2Proof.Machine

variable {s₀ s : State} {f code via d subject reporter state : Nat} {body : CtrlBody} {epoch : BitVec 32} {port : PortId} {heard : BitVec 8}
  {except : Option Nat} {device : Fin 65536} {o : ℤ} {value : Bool} {f₁ : Neighbour → Neighbour} (h : Keeps s₀ s)
include h

omit h in
theorem Keeps.takeCtrl {u : State} {x : CtrlHead} {y : CtrlBody} {w : Word} (e : takeCtrl f n s = some (x, y, w, u)) (h : Keeps s₀ s) :
    Keeps s₀ u := by
  dsimp only [Machine.takeCtrl] at e
  split at e
  · cases e
  split at e
  · cases e
  · cases e
    exact .setPort h

theorem Keeps.jobFault : Keeps s₀ (jobFault code via s) := by unfold Machine.jobFault; exact .iteOn .setBarked id (.jobBark (.writeFaultRecord h))

theorem Keeps.sendHello : Keeps s₀ (sendHello f s) := by unfold Machine.sendHello; exact .sendCtrl (.setPort h)

theorem Keeps.sendChildren : Keeps s₀ (sendChildren body s) := by unfold Machine.sendChildren; exact .foldl h .sendCtrlTo

theorem Keeps.enterJob : Keeps s₀ (enterJob epoch s) := by
  unfold Machine.enterJob
  exact .sendChildren (.update (.foldl (.foldl h fun k => .ite k (.modPack k)) .modPort))

theorem Keeps.fixLists : Keeps s₀ (fixLists s) := by unfold Machine.fixLists; exact .update h

theorem Keeps.jobAdvance : Keeps s₀ (jobAdvance s) := by
  unfold Machine.jobAdvance
  exact .ite h (.iteOn id (fun k => .ite (.ite (.enterJob k) k) (.update (.sendCtrlTo k))) (.ite (.fixLists h) h))

theorem Keeps.jobStart : Keeps s₀ (jobStart s).2 := by
  unfold Machine.jobStart
  exact .iteSnd h
    (.iteSnd h (.iteSnd h (.pair (.jobAdvance (.foldl (.foldl (.update (.foldl h .owePkt)) .modPort) fun k => .ite (.sendHello k) k)))))

theorem Completes.execJobStart : Completes s₀ (execJobStart s) := by unfold Machine.execJobStart; exact .next (.command h .jobStart)

theorem Keeps.jobLeave : Keeps s₀ (jobLeave s).2 := by unfold Machine.jobLeave; exact .pair (.update (.foldl h .modPort))

theorem Completes.execJobLeave : Completes s₀ (execJobLeave s) := by unfold Machine.execJobLeave; exact .next (.command h .jobLeave)

theorem Completes.execJobStartTimeout : Completes s₀ (execJobStartTimeout s) := by
  unfold Machine.execJobStartTimeout
  exact .ite (.next (.update h)) (.next h)

theorem Keeps.excludePort : Keeps s₀ (excludePort f code s) := by unfold Machine.excludePort; exact .update (.modPort h)

theorem Completes.execHello : Completes s₀ (execHello port s) := by
  unfold Machine.execHello
  extract_lets f
  split
  next e =>
    extract_lets _ p echoed _ u
    have heard : Keeps s₀ u := .setPort (.takeCtrl e h)
    exact .ite (.next heard) (.ite (.next (.jobAdvance (.excludePort heard))) (.ite (.next (.jobAdvance (.excludePort heard)))
      (.next (.jobAdvance (.iteOn .sendHello id heard)))))
  · exact .next h

theorem Completes.execJoin : Completes s₀ (execJoin port s) := by
  dsimp only [Machine.execJoin]
  split
  next e => exact .ite (.next (.takeCtrl e h)) (.next (.jobAdvance (.update (.takeCtrl e h))))
  · exact .next h

theorem Completes.execStart : Completes s₀ (execStart port s) := by
  dsimp only [Machine.execStart]
  split
  next e => exact .ite (.next (.takeCtrl e h)) (.next (.enterJob (.update (.takeCtrl e h))))
  · exact .next h

theorem Keeps.sendBeacon : Keeps s₀ (sendBeacon heard f s) := by unfold Machine.sendBeacon; exact .modPort (.sendCtrl h)

theorem Keeps.modNb : Keeps s₀ (s.modNb d f₁) := by unfold State.modNb; exact .update h

theorem Keeps.endPeriod : Keeps s₀ (endPeriod s) := by
  unfold Machine.endPeriod
  exact .update (.foldl (.foldl h .modNb) fun k => .modPort (.ite k (.bump k)))

theorem Completes.execBeaconSend : Completes s₀ (execBeaconSend s) := by
  unfold Machine.execBeaconSend
  exact .ite (.next h) (.next (.foldl (.update (.ite h (.endPeriod h))) .sendBeacon))

theorem Keeps.declareDead : Keeps s₀ (declareDead subject s) := by
  unfold Machine.declareDead
  exact .ite h (.ite (.update h) (.jobFault (.update h)))

theorem Keeps.weighReports : Keeps s₀ (weighReports subject s) := by
  unfold Machine.weighReports
  exact .iteOn .declareDead id (.ite (.jobFault h) h)

theorem Keeps.holdReport : Keeps s₀ (holdReport except subject reporter state s) := by
  unfold Machine.holdReport
  exact .ite h (.weighReports (.floodCtrl (.update h)))

theorem Keeps.raiseSuspect : Keeps s₀ (raiseSuspect subject state s) := by unfold Machine.raiseSuspect; exact .ite h (.holdReport (.bump h))

theorem Completes.execNeighbourSuspect : Completes s₀ (execNeighbourSuspect device s) := by
  unfold Machine.execNeighbourSuspect
  exact .ite (.next (.raiseSuspect (.modNb h))) (.next h)

theorem Completes.execNeighbourSilent : Completes s₀ (execNeighbourSilent device s) := by
  unfold Machine.execNeighbourSilent
  exact .ite (.next (.raiseSuspect (.modNb h))) (.next h)

theorem Completes.execSuspect : Completes s₀ (execSuspect port s) := by
  dsimp only [Machine.execSuspect]
  split
  next e => exact .ite (.next (.takeCtrl e h)) (.next (.holdReport (.takeCtrl e h)))
  · exact .next h

theorem Keeps.measureOffset : Keeps s₀ (measureOffset o s) := by unfold Machine.measureOffset; exact .ite (.jobFault (.update h)) (.update h)

theorem Completes.execBeacon : Completes s₀ (execBeacon port s) := by
  dsimp only [Machine.execBeacon]
  split
  next e => exact .ite
              (.next (.takeCtrl e h))
              (.iteOn (fun k => .next (.measureOffset k)) .next (.iteOn .raiseSuspect id (.modNb (.setPort (.takeCtrl e h)))))
  · exact .next h

theorem Completes.execSelfMuzzle : Completes s₀ (execSelfMuzzle s) := by
  unfold Machine.execSelfMuzzle
  exact .ite (.next h)
    (.next (.alert (.foldl (.foldl (.update (.foldl (.ite (.writeFaultRecord h) (.jobFault h)) fun k => .foldl k .stopPack)) .modPort) .sendBeacon)))

theorem Completes.execReady : Completes s₀ (execReady port s) := by
  dsimp only [Machine.execReady]
  split
  next e => exact .ite (.next (.takeCtrl e h)) (.ite (.next (.jobFault (.takeCtrl e h))) (.next (.deviceReady (.update (.takeCtrl e h)))))
  · exact .next h

theorem Completes.execGo : Completes s₀ (execGo port s) := by
  dsimp only [Machine.execGo]
  split
  next e => exact .ite (.next (.takeCtrl e h)) (.ite (.next (.jobFault (.takeCtrl e h))) (.next (.deviceGo (.takeCtrl e h))))
  · exact .next h

theorem Completes.execBark : Completes s₀ (execBark port s) := by
  dsimp only [Machine.execBark]
  split
  next e => exact .ite (.next (.takeCtrl e h)) (.next (.jobBark (.takeCtrl e h)))
  · exact .next h

theorem Keeps.barkCommand : Keeps s₀ (barkCommand s).2 := by
  unfold Machine.barkCommand
  exact .iteSnd (.pair (.jobFault h)) (.pair (.iteOn .setBarked id (.localBark (.writeFaultRecord h))))

theorem Completes.execBarkCommand : Completes s₀ (execBarkCommand value s) := by
  dsimp only [Machine.execBarkCommand]
  exact .next (.command h fun k => .iteSnd (.barkCommand k) k)

theorem Completes.execBarkLineRelease : Completes s₀ (execBarkLineRelease s) := by
  dsimp only [Machine.execBarkLineRelease]
  split
  · exact .next h
  · exact .next (.ite (.update h) h)

theorem Completes.execBarkLineSense : Completes s₀ (execBarkLineSense s) := by
  unfold Machine.execBarkLineSense
  exact .ite (.next (.jobFault h)) (.next h)

end Sys2Proof.Machine
end

section
/-! SUPPORT. What every command keeps: the fabric ports. -/
namespace Sys2Proof.Machine

variable {s₀ s : State} {f vc fromPort fn token dev reason : Nat} {port : PortId} {on ok flash : Bool} {flit : List Byte} {arrival w0 : Word}
  {fr frame : Frame} {frac : Byte} {r : RingPkt} {p : Pkt} {x : SvcSend} {q : RingReq} (h : Keeps s₀ s)
include h

theorem Keeps.portDown : Keeps s₀ (portDown f s) := by unfold Machine.portDown; exact .jobAdvance (.iteOn .jobFault id (.bump (.setPort h)))

theorem Completes.execPortDown : Completes s₀ (execPortDown port s) := by unfold Machine.execPortDown; exact .next (.ite (.portDown h) h)

theorem Keeps.portEnable : Keeps s₀ (portEnable f on ok s).2 := by
  unfold Machine.portEnable
  exact .commitFlash h fun k => .setPort (.setSetting k)

theorem Completes.execPortDisable : Completes s₀ (execPortDisable port flash s) := by
  unfold Machine.execPortDisable
  exact .next (.command h .portEnable)

theorem Completes.execPortTrain : Completes s₀ (execPortTrain port flash s) := by unfold Machine.execPortTrain; exact .next (.command h .portEnable)

theorem Completes.execPortUp : Completes s₀ (execPortUp port s) := by
  unfold Machine.execPortUp
  exact .ite (.next h) (.next (.ite (.sendHello (.modPort h)) (.modPort h)))

theorem Keeps.keepCtrl : Keeps s₀ (keepCtrl f vc flit arrival s) := by unfold Machine.keepCtrl; exact .modPort h

theorem Keeps.acceptFlit : Keeps s₀ (acceptFlit f fr arrival s) := by
  unfold Machine.acceptFlit
  exact .ite (.keepCtrl h) (.ite (.modPort h) (.ite (.update (.setPort h)) (.setPort h)))

theorem Completes.execFrameReceive {bad fixed : Nat} : Completes s₀ (execFrameReceive port frame bad fixed frac s) := by
  unfold Machine.execFrameReceive
  extract_lets f _ counted acked credited taken
  have isCounted : Keeps s₀ counted := .bump (.bump h)
  have isAcked : Keeps s₀ acked := .modPort isCounted
  have isCredited : Keeps s₀ credited := .modPort isAcked
  exact .ite (.next h) (.ite (.next (.bump (.modPort isCounted))) (.ite (.next isCounted) (.ite (.next (.modPort isAcked))
    (.ite (.next isCredited) (.next (.acceptFlit (.bump (.modPort isCredited))))))))

theorem Completes.execRetryRequest : Completes s₀ (execRetryRequest port frame s) := by
  unfold Machine.execRetryRequest
  exact .ite (.next h) (.next (.modPort h))

theorem Keeps.depart : Keeps s₀ (depart r s) := by
  dsimp only [Machine.depart]
  split
  · exact h
  · exact .modPort h

theorem Keeps.toMesh : Keeps s₀ (toMesh fromPort p s) := by unfold Machine.toMesh; exact .modCore h

omit h in
theorem Keeps.sendReq {u : State} (e : sendReq x s = some u) (h : Keeps s₀ s) : Keeps s₀ u := by
  dsimp only [Machine.sendReq] at e
  split at e <;> split at e <;> cases e
  · exact .update (.toMesh h)
  · exact .update (.depart h)

theorem Keeps.drainSends : Keeps s₀ (drainSends n s) := by
  induction n generalizing s with
  | zero => exact h
  | succ n ih =>
    dsimp only [Machine.drainSends]
    split
    · exact h
    split
    next e => exact ih (.update (.sendReq e h))
    next => exact h

theorem Keeps.drainRequests : Keeps s₀ (drainRequests n s) := by
  induction n generalizing s with
  | zero => exact h
  | succ n ih =>
    dsimp only [Machine.drainRequests]
    split
    · exact h
    · exact .ite (ih (.update (.depart h))) h

omit h in
theorem Keeps.moveOn {u : State} (e : moveOn r s = some u) (h : Keeps s₀ s) : Keeps s₀ u := by
  dsimp only [Machine.moveOn] at e
  split at e
  · split at e
    · cases e
      exact .update h
    split at e <;> cases e
    exact .toMesh h
  · split at e <;> cases e
    exact .depart h

theorem Keeps.moveList {l : List RingPkt} : Keeps s₀ (moveList l s).2 := by
  induction l generalizing s with
  | nil => exact h
  | cons r l ih =>
    dsimp only [Machine.moveList]
    split
    next e => exact ih (.moveOn e h)
    next => exact ih h

theorem Keeps.drainRing : Keeps s₀ (drainRing s) := by
  unfold Machine.drainRing
  exact .drainSends (.drainRequests (.update (.moveList (.update (.moveList (.update (.moveList h)))))))

theorem Completes.execFabricPacketArrival : Completes s₀ (execFabricPacketArrival port s) := by
  unfold Machine.execFabricPacketArrival
  extract_lets f u
  have drained : Keeps s₀ u := .drainRing h
  split
  · exact .next drained
  extract_lets act v
  have owed : Keeps s₀ v := .owePkt (.update drained)
  clear_value act
  split
  · exact .next (.bump (.bump owed))
  · exact .next owed
  · exact .next (.update owed)
  · exact .next (.toMesh owed)
  · exact .next (.depart owed)
  · exact .next owed

theorem Keeps.hostNack : Keeps s₀ (hostNack fn token w0 dev s) := by unfold Machine.hostNack; exact .raiseMsix (.modFn h)

theorem Keeps.nackSender : Keeps s₀ (nackSender q reason s) := by
  unfold Machine.nackSender
  exact .ite (.update h) (.ite (.notify h) (.hostNack h))

theorem Completes.execDeliveryAnswer : Completes s₀ (execDeliveryAnswer s) := by
  dsimp only [Machine.execDeliveryAnswer]
  split
  · exact .next (.drainRing h)
  split
  · exact .next (.update (.drainRing h))
  · exact .next (.iteOn id (fun k => .drainRing (.nackSender k)) (.update (.update (.drainRing h))))

theorem Completes.execReplyTimeout : Completes s₀ (execReplyTimeout s) := by
  dsimp only [Machine.execReplyTimeout]
  split
  · exact .next h
  · exact .ite (.next (.update (.bump (.update h)))) (.next (.drainRing (.nackSender (.bump (.update h)))))

theorem Completes.execAgedDiscard : Completes s₀ (execAgedDiscard s) := by
  unfold Machine.execAgedDiscard
  exact .next (.bump (.update (.foldl (.drainRing h) .owePkt)))

theorem Completes.execEpochPurge : Completes s₀ (execEpochPurge s) := by
  dsimp only [Machine.execEpochPurge]
  split
  · exact .next h
  · exact .next (.bump (.update (.foldl (.foldl h .owePkt) .modPort)))

theorem Keeps.sendFlit : Keeps s₀ (sendFlit f vc s).2 := by
  dsimp only [Machine.sendFlit]
  split
  · exact h
  · exact .pair (.setPort h)

theorem Completes.execFrameSend : Completes s₀ (execFrameSend port s) := by
  dsimp only [Machine.execFrameSend]
  split
  · exact .next (.drainRing h)
  split
  · exact .next (.iteOn .portDown id (.bump (.setPort (.update (.drainRing h)))))
  split
  · exact .next (.setPort (.update (.drainRing h)))
  split
  · exact .next (.setPort (.update (.drainRing h)))
  split
  · exact .next (.setPort (.update (.drainRing h)))
  · exact .next (.advanceKey (.update (.sendFlit (.drainRing h))))

end Sys2Proof.Machine
end

section
/-! SUPPORT. What every command keeps: the groomer. -/
namespace Sys2Proof.Machine

variable {s₀ s : State} {core : CoreId} {c w bits : Nat} (h : Keeps s₀ s)
include h

theorem Completes.execGroomerPassStart : Completes s₀ (execGroomerPassStart core s) := by
  unfold Machine.execGroomerPassStart
  exact .ite (.next h) (.next (.modCore (.ite (.bump h) h)))

theorem Keeps.groomFix : Keeps s₀ (groomFix c w s) := by unfold Machine.groomFix; exact .bumpCore (.modCore h)

theorem Keeps.groomCorrected : Keeps s₀ (groomCorrected c w bits s) := by unfold Machine.groomCorrected; exact .groomFix (.recordEcc (.bumpCore h))

theorem Keeps.groomBad : Keeps s₀ (groomBad c w s) := by unfold Machine.groomBad; exact .iteOn .modCore id (.eccUncorrectable (.drawn h))

theorem Keeps.groomWord : Keeps s₀ (groomWord c w s) := by
  dsimp only [Machine.groomWord]
  split
  · exact h
  · exact .groomCorrected h
  · exact .groomBad h
  · exact .groomCorrected (.modCore (.fresh h))
  · exact .update h

theorem Completes.execGroomerVisit : Completes s₀ (execGroomerVisit core s) := by
  unfold Machine.execGroomerVisit
  exact .ite (.next h) (.iteOn (fun k => .next (.modCore k)) (fun k => .next (.modCore (.bumpCore k))) (.advanceKey (.groomWord h)))

theorem Completes.execGroomerRewrite : Completes s₀ (execGroomerRewrite core s) := by
  dsimp only [Machine.execGroomerRewrite]
  split
  · exact .next h
  split
  · exact .next h
  · exact .next (.groomWord (.modCore h))

end Sys2Proof.Machine
end

section
/-! SUPPORT. What every command keeps: loading. -/
namespace Sys2Proof.Machine

variable {s₀ s : State} {only : Bool} {w : Word} {st : LoadState} {base c a n : Nat} {x : CoreImg} {weights : List Byte} {x₁ : Ctx}
  (h : Keeps s₀ s)
include h

theorem Keeps.tapReset : Keeps s₀ (tapReset s) := by unfold Machine.tapReset; exact .update h

theorem Keeps.tapYield : Keeps s₀ (tapYield s) := by unfold Machine.tapYield; exact .ite (.tapReset h) h

theorem Keeps.refreshDev : Keeps s₀ (refreshDev s) := by unfold Machine.refreshDev; exact .ite (.update h) (.ite (.update h) h)

theorem Keeps.startCheck : Keeps s₀ (startCheck only s).2 := by
  unfold Machine.startCheck
  exact .iteSnd h (.iteSnd h (.pair (.update (.tapYield h))))

theorem Completes.execCheckAndInstall : Completes s₀ (execCheckAndInstall s) := by
  unfold Machine.execCheckAndInstall
  exact .next (.command h .startCheck)

theorem Completes.execCheckOnly : Completes s₀ (execCheckOnly s) := by unfold Machine.execCheckOnly; exact .next (.command h .startCheck)

theorem Keeps.loadAbort : Keeps s₀ (loadAbort s).2 := by
  dsimp only [Machine.loadAbort]
  split
  · exact .update h
  · exact .refreshDev (.update (.startTeardown h))
  · exact .refreshDev (.update (.startTeardown h))
  all_goals exact h

theorem Completes.execLoadAbort : Completes s₀ (execLoadAbort s) := by unfold Machine.execLoadAbort; exact .next (.command h .loadAbort)

theorem Keeps.setLoadResult : Keeps s₀ (setLoadResult w st s) := by unfold Machine.setLoadResult; exact .update h

theorem Keeps.loadFails : Keeps s₀ (loadFails w s) := by unfold Machine.loadFails; exact .bump (.setLoadResult h)

theorem Keeps.readImage : Keeps s₀ (readImage base s) := by unfold Machine.readImage; exact .portRead h

theorem Completes.execPedigreeCheckDone : Completes s₀ (execPedigreeCheckDone s) := by
  dsimp only [Machine.execPedigreeCheckDone]
  split
  · exact .next h
  split
  · exact .next (.loadFails (.readImage h))
  · exact .ite
      (.next (.setLoadResult (.bump (.readImage h))))
      (.next (.update (.foldl (.setProg (.setLoadResult (.bump (.readImage h)))) .modPack)))

theorem Keeps.zeroRange : Keeps s₀ (zeroRange c a n s) := by unfold Machine.zeroRange; exact .writePort (.modCore h)

theorem Keeps.installSpad : Keeps s₀ (installSpad x weights s) := by
  unfold Machine.installSpad
  exact .foldl (.foldl (.modCore h) fun k => .ite (.zeroRange k) k) .zeroRange

theorem Keeps.installCtx : Keeps s₀ (installCtx n x₁ s) := by unfold Machine.installCtx; exact .portWrite (.portWrite (.update (.setCtx h)))

theorem Keeps.readWeights : Keeps s₀ (readWeights base x s).2 := by
  dsimp only [Machine.readWeights]
  split
  · exact .portRead h
  · exact h

theorem Completes.execInstallDone : Completes s₀ (execInstallDone s) := by
  unfold Machine.execInstallDone
  exact .ite (.next h)
    (.next (.refreshDev (.update (.foldl
      (.foldl
        (.foldl (.foldl (.foldl h fun k => .foldl k fun m => .ite m (.modCore m)) fun k => .modCore (.installSpad (.readWeights k))) .installCtx)
        .modPack)
      fun k => .ite (.update k) k))))

end Sys2Proof.Machine
end

section
/-! SUPPORT. What every command keeps: vetting and replacement. -/
namespace Sys2Proof.Machine

variable {s₀ s : State} {p c port w bank row code g j core n slice v action : Nat} {f finding : Finding} {pack : PackId}
  {condOk stopped first ok : Bool} {a : Slice} {step : Word} {old : State} {ph : ReplacePhase} {r : Replace} {moved : List Nat}
  {passed : List (Fin 1088)} {held c₁ : Option Nat} {was old₁ : Tab Nat} {f₁ : VetPack → VetPack} {port₁ : PortId} (h : Keeps s₀ s)
include h

theorem Keeps.modVet : Keeps s₀ (s.modVet p f₁) := by unfold State.modVet; exact .update h

theorem Completes.execVetSliceStart : Completes s₀ (execVetSliceStart pack condOk s) := by
  dsimp only [Machine.execVetSliceStart]
  split
  · exact .next h
  split
  · exact .next h
  split
  · exact .next (.modVet h)
  split
  · exact .next (.iteOn .modCore id (.modCore (.modVet h)))
  · exact .next (.modVet h)

theorem Keeps.endSlice : Keeps s₀ (endSlice p a s) := by
  dsimp only [Machine.endSlice]
  split
  · exact .restoreSlice (.modVet h)
  · exact .modVet h

theorem Keeps.marchWord : Keeps s₀ (marchWord c port w s) := by
  dsimp only [Machine.marchWord]
  split
  · exact h
  · exact .modCore (.eccCorrected h)
  · exact .eccUncorrectable (.drawn h)
  · exact .modCore (.eccCorrected (.modCore (.fresh h)))
  · exact .modCore (.modCore (.fresh h))

omit h in
theorem Keeps.emptyMarchWord {x : List Nat × State} (k : Keeps s₀ x.2) : Keeps s₀ (emptyMarchWord c x w).2 := by
  dsimp only [Machine.emptyMarchWord]
  split
  · exact .bumpCore (.drawn k)
  · exact .marchWord k

theorem Keeps.marchBank : Keeps s₀ (marchBank p c₁ bank s).2 := by
  dsimp only [Machine.marchBank]
  split
  · exact h
  · exact .iteSnd (.pair (.modCore (.foldlSnd h .emptyMarchWord))) (.pair (.foldl h .marchWord))

theorem Keeps.copyRow : Keeps s₀ (copyRow c bank row s) := by
  dsimp only [Machine.copyRow]
  refine .foldl h fun k => ?_
  split
  · exact .groomBad k
  · exact .marchWord k

theorem Keeps.stopProgram : Keeps s₀ (stopProgram code g s).2 := by
  unfold Machine.stopProgram
  exact .pair (.originateBark (.update (.foldl h .stopPack)))

theorem Keeps.reissueAll : Keeps s₀ (reissueAll c j s) := by unfold Machine.reissueAll; exact .foldl h fun k => .ite (.bumpCore (.modCore k)) k

theorem Keeps.reissueProg : Keeps s₀ (reissueProg g s) := by unfold Machine.reissueProg; exact .foldl h fun k => .foldl k .reissueAll

theorem Keeps.replaceHold : Keeps s₀ (replaceHold g code step was s) := by
  unfold Machine.replaceHold
  extract_lets held bumped reissued u
  have isHeld : Keeps s₀ u := .foldl (.reissueProg (.foldl (.modProg h) fun k => .foldl k .modCore)) .modPack
  split
  · exact .update isHeld
  · exact .update isHeld

theorem Keeps.startReplace : Keeps s₀ (startReplace g code old₁ s) := by unfold Machine.startReplace; exact .iteOn .floodCtrl id (.replaceHold h)

theorem Keeps.reissueOwned : Keeps s₀ (reissueOwned g core s) := by unfold Machine.reissueOwned; exact .foldl h fun k => .foldl k .reissueClaims

theorem Keeps.endLoadBy : Keeps s₀ (endLoadBy p old s) := by
  unfold Machine.endLoadBy
  exact .ite (.ite (.loadFails (.fresh h)) (.fresh h)) (.ite (.loadFails (.startTeardown h)) h)

theorem Keeps.vetRecord : Keeps s₀ (vetRecord code p core stopped first s) := by
  unfold Machine.vetRecord
  exact .iteOn .setBarked id (.writeFaultRecord h)

theorem Keeps.noteDegraded : Keeps s₀ (noteDegraded n s) := by unfold Machine.noteDegraded; exact .ite (.modVet h) h

theorem Keeps.recordMuzzle : Keeps s₀ (recordMuzzle n code slice s) := by
  unfold Machine.recordMuzzle
  exact .alert (.bump (.noteDegraded (.update (.modPhys h))))

omit h in
theorem Keeps.judgeProgram {x : Judged} (k : Keeps s₀ x.st) : Keeps s₀ (judgeProgram old code held x g).st := by
  unfold Machine.judgeProgram
  extract_lets t
  split
  · exact k
  split
  · exact .startTeardown k
  split
  · dsimp only
    exact .startReplace k
  dsimp only
  refine .stopProgram ?_
  split
  · exact .reissueOwned k
  · exact k

theorem Keeps.muzzleCore : Keeps s₀ (muzzleCore n code slice old s) := by
  unfold Machine.muzzleCore
  extract_lets _ muzzled ended _ _ _ _ recorded j barked _
  have isRecorded : Keeps s₀ recorded := .vetRecord (.endLoadBy (.recordMuzzle h))
  clear_value recorded
  have judged : Keeps s₀ j.st := .foldlBy Judged.st isRecorded .judgeProgram
  have isBarked : Keeps s₀ barked := .ite (.setBarked judged) judged
  exact .update isBarked

theorem Keeps.holdSafe : Keeps s₀ (holdSafe p code s) := by
  unfold Machine.holdSafe
  extract_lets g stops held _ recorded stopped inReset idle
  have isRecorded : Keeps s₀ recorded := .vetRecord (.modVet h)
  clear_value recorded stops g
  have isStopped : Keeps s₀ stopped := by
    unfold stopped
    split
    · exact .ite (.iteOn .setBarked id (.stopProgram isRecorded)) isRecorded
    · exact isRecorded
  have isHeld : Keeps s₀ idle := .modPack (.foldl isStopped .modCore)
  exact .ite (.refreshDev (.modPack isHeld)) isHeld

theorem Keeps.applyFinding : Keeps s₀ (applyFinding p n slice f s) := by
  dsimp only [Machine.applyFinding]
  split
  · exact h
  · split
    · refine .bump ?_
      refine .modPhys ?_
      split
      · exact .copyRow h
      · exact h
    · exact .muzzleCore h
  · exact .ite (.holdSafe h) (.muzzleCore h)

theorem Keeps.noteSlice : Keeps s₀ (noteSlice p a s) := by
  unfold Machine.noteSlice
  exact .ite (.ite (.modVet (.foldl (.modPhys h) .modPhys)) (.modPhys h)) (.modVet h)

theorem Keeps.sliceResult : Keeps s₀ (sliceResult p a f s) := by
  unfold Machine.sliceResult
  exact .iteOn id .applyFinding (.foldl (.iteOn id .bump (.noteSlice (.bump (.marchBank (.endSlice h))))) fun k => .ite k (.applyFinding k))

theorem Completes.execVetSliceResult : Completes s₀ (execVetSliceResult pack finding s) := by
  dsimp only [Machine.execVetSliceResult]
  split
  · exact .next h
  · exact .ite (.next h) (.next (.sliceResult h))

theorem Completes.execVetSliceAbandon : Completes s₀ (execVetSliceAbandon pack s) := by
  unfold Machine.execVetSliceAbandon
  exact .next (.abandonSlice h)

theorem Keeps.setPhase : Keeps s₀ (setPhase g ph s) := by unfold Machine.setPhase; exact .update h

theorem Keeps.replaceReady : Keeps s₀ (replaceReady g s) := by unfold Machine.replaceReady; exact .modProg (.update (.setPhase h))

theorem Completes.execReplacementDrainEnd : Completes s₀ (execReplacementDrainEnd pack s) := by
  dsimp only [Machine.execReplacementDrainEnd]
  split
  · exact .next h
  · exact .ite (.next h) (.next (.iteOn .replaceReady .setPhase (.foldl (.foldl (.foldl h .modCore) .modCore) .modPack)))

theorem Keeps.readLedgers : Keeps s₀ (readLedgers c s).2.2 :=
  .foldlBy (fun (y : List (Nat × List Byte) × Bool × State) => y.2.2) h .readWords

theorem Keeps.abandonReplace : Keeps s₀ (abandonReplace r p s) := by
  unfold Machine.abandonReplace
  exact .ite h (.iteOn .setBarked id (.stopProgram (.vetRecord h)))

theorem Keeps.readMoved : Keeps s₀ (readMoved moved s).2.2 :=
  .foldlBy (fun (y : List (Nat × List (Nat × List Byte)) × Bool × State) => y.2.2) h .readLedgers

theorem Completes.execReplacementShiftDone : Completes s₀ (execReplacementShiftDone pack ok s) := by
  dsimp only [Machine.execReplacementShiftDone]
  split
  · exact .next h
  · exact .ite (.next h)
      (.ite (.next (.abandonReplace h)) (.ite (.next (.abandonReplace (.readMoved h))) (.next (.update (.foldl (.readMoved h) .setCore)))))

theorem Completes.execReplacementReloadDone : Completes s₀ (execReplacementReloadDone pack s) := by
  dsimp only [Machine.execReplacementReloadDone]
  split
  · exact .next h
  · exact .ite (.next h) (.next (.replaceReady (.foldl h fun k => .modCore (.readWeights k))))

theorem Completes.execRewind : Completes s₀ (execRewind port₁ s) := by
  dsimp only [Machine.execRewind]
  split
  next e => exact .ite (.next (.takeCtrl e h)) (.ite (.next (.takeCtrl e h)) (.next (.foldl (.floodCtrl (.update (.takeCtrl e h))) .replaceHold)))
  · exact .next h

theorem Keeps.setMaint : Keeps s₀ (setMaint v s) := by unfold Machine.setMaint; exact .update h

theorem Keeps.maintCommand : Keeps s₀ (maintCommand action s).2 := by
  unfold Machine.maintCommand
  exact .iteSnd (.pair (.ite h (.setMaint h))) (.iteSnd (.pair (.setMaint h)) (.pair (.update h)))

theorem Completes.execFuseRepairs : Completes s₀ (execFuseRepairs s) := by unfold Machine.execFuseRepairs; exact .next (.command h .maintCommand)

theorem Completes.execRetestMuzzled : Completes s₀ (execRetestMuzzled s) := by
  unfold Machine.execRetestMuzzled
  exact .next (.command h .maintCommand)

theorem Completes.execRetestSafePacks : Completes s₀ (execRetestSafePacks s) := by
  unfold Machine.execRetestSafePacks
  exact .next (.command h .maintCommand)

theorem Keeps.clearMuzzle : Keeps s₀ (clearMuzzle s n) := by unfold Machine.clearMuzzle; exact .modVet (.modPhys h)

theorem Keeps.releasePack : Keeps s₀ (releasePack s p) := by unfold Machine.releasePack; exact .modPack (.modVet (.foldl h .modCore))

theorem Completes.execMaintDone : Completes s₀ (execMaintDone ok passed s) := by
  unfold Machine.execMaintDone
  split
  · exact .next h
  split
  · exact .next (.setMaint h)
  extract_lets u done
  have ready : Keeps s₀ u := .setMaint h
  have counted {n : Nat} {t : State} (k : Keeps s₀ t) : Keeps s₀ (done n t) := .update k
  split
  · exact .next (.update ready)
  · exact .ite (.next (counted (.foldl ready .clearMuzzle))) (.next (.alert (.update (counted (.foldl ready .clearMuzzle)))))
  · exact .next (counted (.foldl ready .releasePack))

end Sys2Proof.Machine
end

section
/-! SUPPORT. What every command keeps: what resets share. -/
namespace Sys2Proof.Machine

variable {s₀ s : State} {rung cause target reason record c st p g n v packs₁ : Nat} {esc device record₁ : Bool} {packs cores written l : List Nat}
  {e : Engine} {d : Dump} {f : Teardown → Teardown} (h : Keeps s₀ s)
include h

theorem Keeps.setLastReset : Keeps s₀ (setLastReset rung esc cause target s) := by unfold Machine.setLastReset; exact .update h

theorem Keeps.commandStop : Keeps s₀ (commandStop packs s) := by
  dsimp only [Machine.commandStop]
  refine .foldl h fun k => ?_
  split
  · exact k
  · exact .iteOn .setBarked id (.originateBark (.writeFaultRecord k))

theorem Keeps.barkAll : Keeps s₀ (barkAll reason record₁ s) := by
  unfold Machine.barkAll
  exact .foldl h fun k => .ite (.iteOn .setBarked id (.originateBark (.ite (.writeFaultRecord k) k))) k

theorem Keeps.startEngineReset : Keeps s₀ (startEngineReset c e cause record s) := by
  dsimp only [Machine.startEngineReset]
  refine .raiseRung ?_
  refine .foldl (.iteOn .scrambleAcc id (.foldl (.modCore h) fun k => .foldl k .scrambleRange)) fun k => ?_
  split
  · exact .streamFaultAt k
  · exact k

theorem Keeps.slotOf : Keeps s₀ (slotOf c s).2 := by
  refine .readWords (.foldlBy (fun (y : List Byte × Nat × State) => y.2.2) h fun k => ?_)
  dsimp only
  split
  · exact .readWords k
  · exact k

theorem Keeps.writeSlots : Keeps s₀ (writeSlots cores s) := by unfold Machine.writeSlots; exact .foldl h fun k => .dumpWrite (.slotOf k)

theorem Keeps.writePackRecord : Keeps s₀ (writePackRecord d st written p s) := by unfold Machine.writePackRecord; exact .dumpWrite h

theorem Keeps.takeDump : Keeps s₀ (takeDump packs₁ device reason s).2 := by
  unfold Machine.takeDump
  exact .iteSnd (.pair (.ite (.update h) h)) (.pair (.update h))

theorem Keeps.startPackReset : Keeps s₀ (startPackReset p cause record esc s) := by
  unfold Machine.startPackReset
  exact .refreshDev (.raiseRung (.modPack (.foldl (.abandonSlice h) .modCore)))

theorem Keeps.orderReset : Keeps s₀ (orderReset cause record p s) := by
  dsimp only [Machine.orderReset]
  split
  · exact .ite h (.markReset h)
  · exact .ite h (.startPackReset h)

theorem Keeps.dropCtxs : Keeps s₀ (dropCtxs l s) := by unfold Machine.dropCtxs; exact .update h

theorem Keeps.endProgram : Keeps s₀ (endProgram g s) := by unfold Machine.endProgram; exact .ite h (.bump (.setProg (.dropCtxs h)))

theorem Keeps.finishTeardown : Keeps s₀ (finishTeardown p s) := by
  dsimp only [Machine.finishTeardown]
  split
  · exact h
  · exact .ite h (.refreshDev (.endProgram (.modPack (.foldl h fun k => .ite k (.modCore k)))))

theorem Keeps.modTeardown : Keeps s₀ (modTeardown p f s) := by unfold Machine.modTeardown; exact .modPack h

theorem Keeps.zeroCtx : Keeps s₀ (zeroCtx s n) := by unfold Machine.zeroCtx; exact .foldl (.foldl h .zeroiseHbm) .zeroiseHbm

theorem Keeps.endTransfers : Keeps s₀ (endTransfers s) := by
  unfold Machine.endTransfers
  exact .foldl h fun k => .ite k (.notify (.update (.fresh k)))

theorem Keeps.drawKeys : Keeps s₀ (drawKeys s) := by unfold Machine.drawKeys; exact .update h

theorem Keeps.dropProgram : Keeps s₀ (dropProgram s g) := by unfold Machine.dropProgram; exact .ite h (.bump (.setProg (.foldl h .zeroCtx)))

theorem Keeps.resetPacks : Keeps s₀ (resetPacks s) := by unfold Machine.resetPacks; exact .update h

theorem Keeps.resetUnits : Keeps s₀ (resetUnits s) := by unfold Machine.resetUnits; exact .resetPacks (.update h)

theorem Keeps.trainPorts : Keeps s₀ (trainPorts s) := by unfold Machine.trainPorts; exact .update h

theorem Keeps.warmUnits : Keeps s₀ (warmUnits s) := by
  unfold Machine.warmUnits
  exact .bump (.setLastReset (.update (.drawKeys (.trainPorts (.resetUnits (.foldl h .dropProgram))))))

theorem Keeps.startWarm : Keeps s₀ (startWarm cause record esc s) := by
  unfold Machine.startWarm
  exact .iteOn
    (fun k => .ite (.takeDump k) (.warmUnits (.takeDump k)))
    .warmUnits
    (.setLastReset (.update (.raiseRung (.endTransfers (.barkAll h)))))

theorem Keeps.railsOff : Keeps s₀ (railsOff s) := by
  have reset : Keeps s₀ (Machine.resetUnits s) := .resetUnits h
  exact ⟨reset.pending, fun _ => rfl, reset.ownership⟩

theorem Keeps.dropRw : Keeps s₀ (dropRw s) := by unfold Machine.dropRw; exact .update h

theorem Keeps.clearStats : Keeps s₀ (clearStats s) := by unfold Machine.clearStats; exact .update h

theorem Keeps.clearCounters : Keeps s₀ (clearCounters s) := by
  unfold Machine.clearCounters
  exact .clearStats (.foldl h fun k => .ite (.portWrite k) k)

theorem Keeps.startCold : Keeps s₀ (startCold cause record esc s) := by
  unfold Machine.startCold
  exact .bump (.setLastReset (.resetPacks (.update (.dropRw (.clearStats (.railsOff (.raiseRung (.endTransfers h))))))))

theorem Keeps.deviceReset : Keeps s₀ (deviceReset v s).2 := by
  unfold Machine.deviceReset
  exact .iteSnd h (.iteSnd h (.iteSnd (.iteSnd h (.pair (.startWarm h))) (.pair (.startCold h))))

theorem Keeps.enterSafe : Keeps s₀ (enterSafe cause s) := by
  unfold Machine.enterSafe
  exact .iteOn .railsOff id (.update (.foldl (.barkAll (.ite (.alert (.update h)) (.update h))) fun k => .ite (.stopPack k) k))

end Sys2Proof.Machine
end

section
/-! SUPPORT. What every command keeps: watchdogs and resets under way. -/
namespace Sys2Proof.Machine

variable {s₀ s : State} {code stream c record old next p st mask core₁ pack₁ : Nat} {packs written : List Nat} {core : CoreId} {dir : Dir}
  {pack : PackId} {target : ResetTarget} {engine : Engine} {g : Teardown} {hbm value : Bool} {d : Dump} {seq : BitVec 32}
  {l found : List VetFinding} {failed hbmStacks : BitVec 8} {ports failed₁ : BitVec 18} {stream₁ : StreamId} {written₁ : List CoreId}
  {mask₁ : BitVec 16} (h : Keeps s₀ s)
include h

theorem Keeps.hang : Keeps s₀ (hang code packs core₁ stream s) := by unfold Machine.hang; exact .reportFault (.bump h)

theorem Completes.execStreamHang : Completes s₀ (execStreamHang core stream₁ s) := by
  unfold Machine.execStreamHang
  exact .ite (.next (.hang h)) (.next h)

theorem Completes.execCoreHang : Completes s₀ (execCoreHang core s) := by
  unfold Machine.execCoreHang
  exact .ite (.next (.foldl (.hang h) fun k => .ite (.startEngineReset k) k)) (.next h)

theorem Completes.execLinkHang : Completes s₀ (execLinkHang core dir s) := by
  dsimp only [Machine.execLinkHang]
  split
  · exact .next h
  · exact .ite (.next (.foldl (.hang h) .orderReset)) (.next h)

theorem Completes.execPackHang : Completes s₀ (execPackHang pack s) := by unfold Machine.execPackHang; exact .ite (.next (.hang h)) (.next h)

theorem Keeps.startCoreReset : Keeps s₀ (startCoreReset c record s) := by unfold Machine.startCoreReset; exact .raiseRung (.modCore h)

theorem Keeps.escalate : Keeps s₀ (escalate old next pack₁ core₁ s) := by
  unfold Machine.escalate
  exact .raiseRung (.raiseRung (.bump (.writeFaultRecord h)))

theorem Keeps.rungTimeout : Keeps s₀ (rungTimeout target s) := by
  dsimp only [Machine.rungTimeout]
  split
  · exact .ite (.startCoreReset (.escalate h)) h
  · split
    · exact .ite (.startPackReset (.modTeardown (.modCore (.escalate h)))) h
    · exact h
  · split
    · exact .ite (.startWarm (.escalate h)) h
    · exact h
  · exact .ite (.startCold (.escalate h)) h
  · exact .ite (.enterSafe (.escalate h)) h

theorem Completes.execRungTimeout : Completes s₀ (execRungTimeout target s) := by unfold Machine.execRungTimeout; exact .next (.rungTimeout h)

theorem Completes.execEngineResetDone : Completes s₀ (execEngineResetDone core engine s) := by
  unfold Machine.execEngineResetDone
  exact .ite (.next (.setLastReset (.bumpCore (.modCore h)))) (.next h)

theorem Completes.execCoreResetDone : Completes s₀ (execCoreResetDone core s) := by
  dsimp only [Machine.execCoreResetDone]
  split
  · exact .next h
  · exact .next (.setLastReset (.bump (.scrambleAcc (.modCore h))))

theorem Keeps.drainPack : Keeps s₀ (drainPack g p s) := by
  unfold Machine.drainPack
  exact .modTeardown (.modPack (.foldl (.foldl h .modCore) fun k => .foldl (.modCore k) fun m => .ite (.startEngineReset m) m))

theorem Completes.execTeardownDrainEnd : Completes s₀ (execTeardownDrainEnd pack s) := by
  unfold Machine.execTeardownDrainEnd
  split
  · exact .next h
  extract_lets packs _ _ u due why r
  have drained : Keeps s₀ u := .foldl h fun k => by
    split
    · exact .drainPack k
    · exact k
  have dumped : Keeps s₀ r.2 := .iteSnd (.takeDump drained) drained
  refine .ite (.next h) (.ite (.next drained) (.next (.foldl dumped fun k => .ite (.modTeardown k) ?_)))
  split
  · exact .startPackReset k
  · exact k

theorem Completes.execZeroiseDone : Completes s₀ (execZeroiseDone pack hbm s) := by
  dsimp only [Machine.execZeroiseDone]
  split
  · exact .next h
  · exact .ite (.next h)
      (.ite
        (.ite (.next h) (.next (.foldl (.foldl (.foldl h .zeroCtx) .modTeardown) .finishTeardown)))
        (.ite (.next h) (.next (.finishTeardown (.modTeardown (.foldl h .modCore))))))

theorem Completes.execQuarantineEnd : Completes s₀ (execQuarantineEnd pack s) := by
  dsimp only [Machine.execQuarantineEnd]
  split
  · exact .next h
  · exact .ite (.next h) (.next (.finishTeardown (.modTeardown h)))

theorem Keeps.endDump : Keeps s₀ (endDump d st written s) := by
  dsimp only [Machine.endDump]
  split
  · exact .warmUnits (.alert (.bump (.update (.dumpWrite (.foldl (.writeSlots h) .writePackRecord)))))
  refine .foldl (.alert (.bump (.update (.foldl (.writeSlots h) .writePackRecord)))) fun k => ?_
  split
  · exact .ite (.startPackReset (.modTeardown k)) k
  · exact k

theorem Completes.execSniffDumpDone : Completes s₀ (execSniffDumpDone seq s) := by
  dsimp only [Machine.execSniffDumpDone]
  split
  · exact .next h
  · exact .next (.endDump h)

theorem Completes.execSniffDumpTimeout : Completes s₀ (execSniffDumpTimeout seq written₁ s) := by
  dsimp only [Machine.execSniffDumpTimeout]
  split
  · exact .next h
  · exact .ite (.next h) (.next (.endDump h))

theorem Keeps.packReset : Keeps s₀ (packReset mask s).2 := by
  dsimp only [Machine.packReset]
  refine .foldl (.commandStop h) fun k => ?_
  split
  · exact .ite k (.iteOn .startPackReset id (.modTeardown k))
  · exact .ite k (.startPackReset k)

theorem Completes.execPackReset : Completes s₀ (execPackReset mask₁ s) := by unfold Machine.execPackReset; exact .next (.command h .packReset)

theorem Completes.execPackResetDone : Completes s₀ (execPackResetDone pack s) := by
  dsimp only [Machine.execPackResetDone]
  split
  · exact .next h
  refine .next ?_
  refine .refreshDev ?_
  refine .finishTeardown ?_
  refine .modTeardown ?_
  refine .bump ?_
  refine .setLastReset ?_
  refine .modPack ?_
  split
  · exact .foldl (.foldl h .modCore) .setCtxState
  · exact .foldl h .modCore

theorem Completes.execWarmReset : Completes s₀ (execWarmReset s) := by unfold Machine.execWarmReset; exact .next (.command h .deviceReset)

theorem Completes.execColdReset : Completes s₀ (execColdReset s) := by unfold Machine.execColdReset; exact .next (.command h .deviceReset)

theorem Keeps.fullVet : Keeps s₀ (fullVet l s) := by
  unfold Machine.fullVet
  exact .foldl (.foldl h fun k => .ite k (.applyFinding (.bump k))) fun k => .modVet (.bump k)

theorem Keeps.trainStacks : Keeps s₀ (trainStacks failed s) := by
  unfold Machine.trainStacks
  exact .foldl h fun k => .ite (.failStack k) (.modStack k)

theorem Keeps.failPorts : Keeps s₀ (failPorts failed₁ s) := by unfold Machine.failPorts; exact .foldl h fun k => .ite (.modPort k) k

theorem Keeps.reportIdle : Keeps s₀ (reportIdle s) := by unfold Machine.reportIdle; exact .update h

theorem Completes.execWarmRecoveryDone : Completes s₀ (execWarmRecoveryDone hbmStacks ports found s) := by
  unfold Machine.execWarmRecoveryDone
  exact .ite (.next h) (.next (.reportIdle (.update (.resetPacks (.fullVet (.failPorts (.trainStacks h)))))))

theorem Keeps.unloadPacks : Keeps s₀ (unloadPacks mask s).2 := by unfold Machine.unloadPacks; exact .iteSnd h (.pair (.commandStop h))

theorem Completes.execUnloadPacks : Completes s₀ (execUnloadPacks mask₁ s) := by
  unfold Machine.execUnloadPacks
  exact .next (.command h .unloadPacks)

theorem Keeps.alertAck : Keeps s₀ (alertAck mask s).2 := by unfold Machine.alertAck; exact .pair (.ite h (.notify (.update h)))

theorem Completes.execAlertAck : Completes s₀ (execAlertAck mask₁ s) := by unfold Machine.execAlertAck; exact .next (.command h .alertAck)

theorem Keeps.statsClear : Keeps s₀ (statsClear s).2 := by unfold Machine.statsClear; exact .pair (.clearCounters h)

theorem Completes.execStatsClear : Completes s₀ (execStatsClear value s) := by
  dsimp only [Machine.execStatsClear]
  exact .next (.command h fun k => .iteSnd (.statsClear k) k)

theorem Keeps.sniffCommand : Keeps s₀ (sniffCommand mask s).2 := by unfold Machine.sniffCommand; exact .iteSnd h (.iteSnd h (.pair (.takeDump h)))

theorem Completes.execSniffCommand : Completes s₀ (execSniffCommand mask₁ s) := by
  unfold Machine.execSniffCommand
  exact .next (.command h .sniffCommand)

end Sys2Proof.Machine
end

section
/-! SUPPORT. What every command keeps: the host port. -/
namespace Sys2Proof.Machine

variable {s₀ s : State} {p fn v status a n : Nat} {vf : VfId} {vector : Fin 528} {enable ide value flit : Bool} {addr d desc : Word}
  {data payload d₁ : List Byte} {rate : Fin 8} {width fn₁ : Fin 17} {offset : BitVec 40} {len : Fin 4097} {w words : List Word} {i : Instr}
  {stack : StackId} {data₁ : BitVec 32} (h : Keeps s₀ s)
include h

theorem Keeps.clearPackRegs : Keeps s₀ (clearPackRegs s p) := by unfold Machine.clearPackRegs; exact .foldl (.update h) .modCtx

theorem Keeps.clearFn : Keeps s₀ (clearFn s fn) := by unfold Machine.clearFn; exact .update h

theorem Completes.execVfFlr : Completes s₀ (execVfFlr vf s) := by
  unfold Machine.execVfFlr
  exact .ite (.next h) (.next (.clearPackRegs (.clearFn (.commandStop h))))

theorem Completes.execPfReset : Completes s₀ (execPfReset s) := by
  unfold Machine.execPfReset
  exact .ite (.next h) (.next (.update (.foldl (.foldl (.commandStop h) .clearPackRegs) .clearFn)))

theorem Completes.execD3hotEntry : Completes s₀ (execD3hotEntry fn₁ s) := by unfold Machine.execD3hotEntry; exact .next (.ite (.modFn h) h)

theorem Keeps.sendPending : Keeps s₀ (sendPending fn s v) := by unfold Machine.sendPending; exact .ite (.update (.modFn h)) h

theorem Completes.execD0Return : Completes s₀ (execD0Return fn₁ s) := by
  unfold Machine.execD0Return
  exact .ite (.next h) (.next (.foldl (.modFn h) .sendPending))

theorem Completes.execMsixVectorUnmask : Completes s₀ (execMsixVectorUnmask fn₁ vector enable addr data₁ ide s) := by
  unfold Machine.execMsixVectorUnmask
  exact .ite (.next h) (.next (.barWrite h fun k => .sendPending (.modFn k)))

theorem Completes.execVfEnableWrite : Completes s₀ (execVfEnableWrite value s) := by
  unfold Machine.execVfEnableWrite
  exact .next (.ite (.update h) h)

theorem Completes.execLinkRecovery : Completes s₀ (execLinkRecovery rate width flit s) := by
  unfold Machine.execLinkRecovery
  exact .ite (.next h) (.next (.bump (.update h)))

theorem Keeps.cplStatus : Keeps s₀ (cplStatus status data s) := by unfold Machine.cplStatus; exact .update h

theorem Keeps.bar2Read : Keeps s₀ (bar2Read fn a n s).2 := by unfold Machine.bar2Read; exact .iteSnd h (.pair (.ringRead h))

theorem Keeps.bar2Write : Keeps s₀ (bar2Write fn a d₁ s).2 := by unfold Machine.bar2Write; exact .iteSnd h (.iteSnd h (.pair (.ringWrite h)))

theorem Completes.execBar2Read : Completes s₀ (execBar2Read fn₁ offset len ide s) := by
  dsimp only [Machine.execBar2Read]
  split
  · exact .next h
  split
  · exact .next (.cplStatus (.bump h))
  split
  next e => exact .next (.cplStatus (.snd e (.bar2Read h)))
  next e => exact .next (.cplStatus (.bump (.snd e (.bar2Read h))))
  next e => exact .next (.update (.snd e (.bar2Read h)))

theorem Completes.execBar2Write : Completes s₀ (execBar2Write fn₁ offset data ide s) := by
  dsimp only [Machine.execBar2Write]
  split
  · exact .next h
  split
  · exact .next (.bump h)
  split
  next e => exact .next (.snd e (.bar2Write h))
  next e => exact .next (.bump (.snd e (.bar2Write h)))
  next e => exact .next (.update (.snd e (.bar2Write h)))

theorem Keeps.refuseSend : Keeps s₀ (refuseSend fn w d s) := by unfold Machine.refuseSend; exact .nackSender h

theorem Keeps.queueSend : Keeps s₀ (queueSend fn w d payload s) := by unfold Machine.queueSend; exact .drainRing (.bump (.update h))

theorem Keeps.serviceSend : Keeps s₀ (serviceSend fn w d s).2 := by
  dsimp only [Machine.serviceSend]
  split
  · exact h
  split
  · exact .pair (.refuseSend h)
  split
  · exact .pair (.queueSend h)
  split
  · exact .pair (.refuseSend h)
  split
  next e => exact .pair (.queueSend (.snd e (.ringRead h)))
  next e => exact .pair (.refuseSend (.snd e (.ringRead h)))
  next e => exact .pair (.refuseSend (.snd e (.ringRead h)))
  · exact h

theorem Completes.execServiceSendDesc : Completes s₀ (execServiceSendDesc fn₁ words desc ide s) := by
  dsimp only [Machine.execServiceSendDesc]
  refine .next ?_
  refine .barWrite h fun k => ?_
  split
  · exact k
  split
  next e => exact .bump (.modFn (.snd e (.serviceSend (.modFn k))))
  next e => exact .snd e (.serviceSend (.modFn k))
  next e => exact .update (.snd e (.serviceSend (.modFn k)))
  next e => exact .snd e (.serviceSend (.modFn k))

theorem Keeps.resumeAccess : Keeps s₀ (resumeAccess s i) := by
  unfold Machine.resumeAccess
  extract_lets run u
  have emptied : Keeps s₀ u := .update h
  have ran {o : Host.Outcome State Fault Refusal} (k : Completes s₀ o) : Keeps s₀ (run o) := by
    obtain ⟨t, rfl, k⟩ := k
    exact .update k
  split
  · exact ran (.execBar2Read emptied)
  · exact ran (.execBar2Write emptied)
  · exact ran (.execServiceSendDesc emptied)
  · exact h

theorem Completes.execRecalibrationDone : Completes s₀ (execRecalibrationDone stack s) := by
  unfold Machine.execRecalibrationDone
  exact .ite (.next (.foldl (.update (.bump (.modStack h))) .resumeAccess)) (.next h)

end Sys2Proof.Machine
end

section
/-! SUPPORT. What every command keeps: the mirror engine. -/
namespace Sys2Proof.Machine

variable {s₀ s : State} {p : Pkt} {r : RingPkt} {status a op : Nat} {d : List Byte} {f : State → State} {ok : RingPkt → Bool}
  {run : RingPkt → State → State} (h : Keeps s₀ s)
include h

theorem Keeps.sendMirror : Keeps s₀ (sendMirror p s) := by unfold Machine.sendMirror; exact .ite (.update h) (.drainRing (.update h))

theorem Keeps.mirrorStart : Keeps s₀ (mirrorStart s).2 := by
  unfold Machine.mirrorStart
  exact .iteSnd h (.iteSnd h (.pair (.sendMirror (.update h))))

theorem Completes.execMirrorStart : Completes s₀ (execMirrorStart s) := by unfold Machine.execMirrorStart; exact .next (.command h .mirrorStart)

theorem Keeps.mirrorFails : Keeps s₀ (mirrorFails s) := by unfold Machine.mirrorFails; exact .update h

theorem Keeps.mirrorAbort : Keeps s₀ (mirrorAbort s).2 := by unfold Machine.mirrorAbort; exact .pair (.mirrorFails h)

theorem Completes.execMirrorAbort : Completes s₀ (execMirrorAbort s) := by unfold Machine.execMirrorAbort; exact .next (.command h .mirrorAbort)

omit h in
theorem Keeps.mirrorNext {u : State} (e : mirrorNext s = some u) (h : Keeps s₀ s) : Keeps s₀ u := by
  dsimp only [Machine.mirrorNext] at e
  split at e
  · cases e
    exact .sendMirror (.update h)
  split at e <;> cases e
  next read => exact .sendMirror (.bump (.update (.snd read (.ringRead h))))
  next read => exact .mirrorFails (.snd read (.ringRead h))
  next read => exact .mirrorFails (.snd read (.ringRead h))

theorem Completes.execMirrorAnswer : Completes s₀ (execMirrorAnswer s) := by
  dsimp only [Machine.execMirrorAnswer]
  split
  · exact .next h
  split
  · exact .next (.update h)
  split
  · exact .next (.mirrorFails (.update h))
  split
  · exact .next (.update (.update h))
  split
  next e => exact .next (.mirrorNext e (.update h))
  · exact .next h

theorem Keeps.answerMirror : Keeps s₀ (answerMirror r status s) := by unfold Machine.answerMirror; exact .drainRing (.update h)

theorem Keeps.mirrorStore (keeps : ∀ {t}, Keeps s₀ t → Keeps s₀ (f t)) : Keeps s₀ (mirrorStore r a d f s) := by
  dsimp only [Machine.mirrorStore]
  split
  · exact .answerMirror (.update h)
  split
  next e => exact .answerMirror (keeps (.snd e (.ringWrite (.update h))))
  next e => exact .answerMirror (.snd e (.ringWrite (.update h)))
  next e => exact .answerMirror (.snd e (.ringWrite (.update h)))
  · exact h

theorem Keeps.mirrorServe (keeps : ∀ {x t}, Keeps s₀ t → Keeps s₀ (run x t)) : Keeps s₀ (mirrorServe op ok run s) := by
  dsimp only [Machine.mirrorServe]
  split
  · exact h
  · exact .ite (keeps h) (.answerMirror (.update h))

theorem Completes.execMirrorOpen : Completes s₀ (execMirrorOpen s) := by
  unfold Machine.execMirrorOpen
  exact .next (.mirrorServe h fun k => .mirrorStore k .update)

theorem Completes.execMirrorWrite : Completes s₀ (execMirrorWrite s) := by
  unfold Machine.execMirrorWrite
  exact .next (.mirrorServe h fun k => .mirrorStore k id)

theorem Completes.execMirrorCommit : Completes s₀ (execMirrorCommit s) := by
  unfold Machine.execMirrorCommit
  exact .next (.mirrorServe h fun k => .mirrorStore k .update)

end Sys2Proof.Machine
end

section
/-! SUPPORT. What every command keeps: the object dictionary. -/
namespace Sys2Proof.Machine

variable {s₀ s : State} {regions : Nat → Bool} (h : Keeps s₀ s)
include h

theorem Keeps.dropRwp : Keeps s₀ (dropRwp regions s) := by unfold Machine.dropRwp; exact .update h

end Sys2Proof.Machine
end

section
/-! SUPPORT. What every command keeps: power states and start-up. -/
namespace Sys2Proof.Machine

variable {s₀ s : State} {c nodeId comp n : Nat} {f : FwComp → FwComp} {bad : List (Fin 6 × Bool)} {findings f₁ : StartFindings} {cause : Fin 6}
  (h : Keeps s₀ s)
include h

theorem Keeps.freeRecord : Keeps s₀ (freeRecord s) := by unfold Machine.freeRecord; exact .writeFaultRecord (.fresh h)

theorem Keeps.loadCal : Keeps s₀ (loadCal s) := by
  unfold Machine.loadCal
  exact .ite (.ite (.alert (.update h)) (.update h)) (.alert (.freeRecord (.update h)))

theorem Keeps.modComp : Keeps s₀ (s.modComp c f) := by unfold State.modComp; exact .update h

theorem Keeps.revertTrial : Keeps s₀ (revertTrial s) := by unfold Machine.revertTrial; exact .update (.modComp h)

theorem Keeps.bootRom : Keeps s₀ (bootRom bad s).2 := by
  unfold Machine.bootRom
  extract_lets u c _ v a
  have tried : Keeps s₀ u := .ite (.revertTrial h) h
  have previous : Keeps s₀ v := .ite (.revertTrial tried) (.modComp tried)
  exact .iteSnd (.pair (.ite (.update tried) tried)) (.iteSnd previous (.modComp previous))

theorem Keeps.bootController : Keeps s₀ (bootController nodeId s) := by unfold Machine.bootController; exact .update (.dropRwp h)

omit h in
theorem Keeps.verifyPacks {u : State} (e : verifyPacks bad comp s = some u) (h : Keeps s₀ s) : Keeps s₀ u := by
  refine .foldlSome (fun k e => ?_) (fun e => Option.some.inj e ▸ h) e
  split at e
  · cases e
  split at e
  · cases e
    exact k rfl
  split at e
  · cases e
    exact k rfl
  split at e <;> cases e
  exact .modComp (k rfl)

omit h in
theorem Keeps.verifyActive {u : State} (e : verifyActive bad comp s = some u) (h : Keeps s₀ s) : Keeps s₀ u := by
  dsimp only [Machine.verifyActive] at e
  split at e
  · cases e
    exact h
  split at e <;> cases e
  exact .modComp h

theorem Keeps.stall : Keeps s₀ (stall s) := by unfold Machine.stall; exact .update h

theorem Keeps.stepDone : Keeps s₀ (stepDone n s) := by unfold Machine.stepDone; exact .update h

theorem Keeps.startRails : Keeps s₀ (startRails s) := by
  unfold Machine.startRails
  exact .iteOn id .clockDown (.resetPacks (.drawKeys (.update h)))

theorem Keeps.startTraining : Keeps s₀ (startTraining s) := by unfold Machine.startTraining; exact .update (.trainPorts h)

theorem Keeps.startStep : Keeps s₀ (startStep f₁ s) := by
  dsimp only [Machine.startStep]
  split
  · exact .stepDone h
  · exact .ite (.stepDone (.bootController (.bootRom h))) (.update (.bootRom h))
  · exact .stepDone (.loadCal h)
  · split
    · exact .stall h
    next e =>
      split
      · exact .stall (.verifyPacks e h)
      next e' => exact .stepDone (.startRails (.verifyPacks e' (.verifyPacks e h)))
  · exact .startTraining (.stepDone h)
  · split
    · exact .stall h
    next e =>
      split
      · exact .stall (.verifyActive e h)
      next e' => exact .stepDone (.failPorts (.trainStacks (.verifyActive e' (.verifyActive e h))))
  · exact .stepDone (.update (.fullVet h))
  · exact .stepDone (.resetPacks h)
  · exact .ite (.alert (.reportIdle h)) (.reportIdle h)

theorem Completes.execStartupStepDone : Completes s₀ (execStartupStepDone findings s) := by
  dsimp only [Machine.execStartupStepDone]
  split
  · exact .next h
  · exact .next h
  · exact .next (.startStep h)
  · exact .next (.startStep h)

theorem Keeps.powerLoss : Keeps s₀ (powerLoss s) := by
  refine ⟨h.pending, fun _ => rfl, fun lawful => ?_⟩
  obtain ⟨unowned, -, -⟩ := h.ownership lawful
  refine ⟨fun e => ?_, Nat.zero_le 4, fun e => ?_⟩
  · obtain ⟨ed, ml, -⟩ := unowned e
    exact ⟨ed, ml, rfl⟩
  · cases e

theorem Keeps.powerUp : Keeps s₀ (powerUp s) := by unfold Machine.powerUp; exact .update h

theorem Keeps.restart : Keeps s₀ (restart s) := by unfold Machine.restart; exact .powerUp (.powerLoss h)

theorem Completes.execPowerOn : Completes s₀ (execPowerOn s) := by unfold Machine.execPowerOn; exact .next (.ite (.powerUp h) h)

theorem Completes.execPowerOff : Completes s₀ (execPowerOff s) := by unfold Machine.execPowerOff; exact .next (.ite h (.powerLoss h))

theorem Completes.execModResetAssert : Completes s₀ (execModResetAssert s) := by
  unfold Machine.execModResetAssert
  exact .next (.ite h (.restart h))

theorem Keeps.toService : Keeps s₀ (toService s) := by unfold Machine.toService; exact .update (.railsOff h)

theorem Keeps.stateService : Keeps s₀ (stateService s).2 := by
  dsimp only [Machine.stateService]
  split
  · exact h
  · exact .iteSnd h h
  · exact .iteSnd h (.pair (.toService (.ite (.tapYield h) (.jobLeave (.tapYield h)))))
  · exact h
  · exact .iteSnd (.pair (.tapYield (.toService h))) h

theorem Keeps.stateIdle : Keeps s₀ (stateIdle s).2 := by
  dsimp only [Machine.stateIdle]
  split
  · exact h
  · exact .iteSnd h (.iteSnd h (.pair (.update (.tapYield h))))
  all_goals exact h

theorem Completes.execStateService : Completes s₀ (execStateService s) := by unfold Machine.execStateService; exact .next (.command h .stateService)

theorem Completes.execStateIdle : Completes s₀ (execStateIdle s) := by unfold Machine.execStateIdle; exact .next (.command h .stateIdle)

theorem Completes.execSafeEntry : Completes s₀ (execSafeEntry cause s) := by
  unfold Machine.execSafeEntry
  exact .ite (.next h) (.next (.enterSafe h))

theorem Completes.execSafeRailsOff : Completes s₀ (execSafeRailsOff s) := by
  unfold Machine.execSafeRailsOff
  exact .ite (.next (.railsOff h)) (.next h)

theorem Completes.execValveHoldEnd : Completes s₀ (execValveHoldEnd s) := by
  unfold Machine.execValveHoldEnd
  exact .ite (.next (.update h)) (.next h)

end Sys2Proof.Machine
end

section
/-! SUPPORT. What every command keeps: the thermal and power envelope. -/
namespace Sys2Proof.Machine

variable {s₀ s : State} {readings : Readings} {p n : Nat} {pack : Option PackId} {iin : BitVec 32} (h : Keeps s₀ s)
include h

theorem Keeps.settleClockdown : Keeps s₀ (settleClockdown s) := by unfold Machine.settleClockdown; exact .update h

theorem Completes.execThermalModelUpdate : Completes s₀ (execThermalModelUpdate readings s) := by
  unfold Machine.execThermalModelUpdate
  exact .ite (.next h) (.next (.foldl (.bump (.settleClockdown (.update (.update h)))) .alert))

theorem Keeps.setThrottle : Keeps s₀ (setThrottle p n s) := by unfold Machine.setThrottle; exact .freqIdle (.modPack h)

theorem Keeps.raiseThrottle : Keeps s₀ (raiseThrottle p s) := by unfold Machine.raiseThrottle; exact .ite h (.alert (.bump (.setThrottle h)))

theorem Completes.execThrottleRaise : Completes s₀ (execThrottleRaise pack s) := by
  dsimp only [Machine.execThrottleRaise]
  split
  · exact .ite (.next (.raiseThrottle (.update h))) (.next h)
  split
  · split
    · exact .next h
    · exact .next (.raiseThrottle (.update h))
  · exact .next h

theorem Completes.execThrottleLower : Completes s₀ (execThrottleLower pack s) := by
  dsimp only [Machine.execThrottleLower]
  split
  · exact .ite (.next (.setThrottle (.update h))) (.next h)
  split
  · split
    · exact .next h
    · exact .next (.setThrottle (.update h))
  · exact .next h

theorem Completes.execValveUpdate : Completes s₀ (execValveUpdate s) := by unfold Machine.execValveUpdate; exact .ite (.next h) (.next (.update h))

theorem Completes.execIinExcess : Completes s₀ (execIinExcess iin s) := by
  unfold Machine.execIinExcess
  exact .ite (.next h) (.next (.clockDown (.update h)))

theorem Completes.execFlowLow : Completes s₀ (execFlowLow s) := by
  dsimp only [Machine.execFlowLow]
  split
  · exact .next h
  · exact .next (.ite (.update h) h)

end Sys2Proof.Machine
end

section
/-! SUPPORT. What every command keeps: ownership, sessions and attestation. -/
namespace Sys2Proof.Machine

variable {s₀ s : State} {r from_ : Requester} {lock value mailbox : Bool} {token nonce : List Byte} {path : Nat} {nonce₁ : BitVec 256}
  (h : Keeps s₀ s)
include h

/-- Replacing the security state keeps ownership lawful where the new one is. -/
theorem Keeps.setSec {x : Sec} (k : OwnershipLawful s → OwnershipLawful { s with sec := x }) : Keeps s₀ { s with sec := x } :=
  ⟨h.pending, h.hbm, fun lawful => k (h.ownership lawful)⟩

theorem Keeps.touchSession : Keeps s₀ (touchSession r s) := by
  dsimp only [Machine.touchSession]
  split
  · refine .setSec h fun ⟨unowned, few, debug⟩ => ⟨fun e => ?_, ?_, debug⟩
    · obtain ⟨ed, ml, closed⟩ := unowned e
      exact ⟨ed, ml, by rw [closed]; rfl⟩
    · rwa [List.length_map]
  · exact h

theorem Keeps.lockCommand : Keeps s₀ (lockCommand lock r s).2 := by
  have owned {o : OwnerState} (e : o ≠ .unowned) : Keeps s₀ { s with sec := { s.sec with owner := o } } :=
    .setSec h fun ⟨_, few, debug⟩ => ⟨fun e' => absurd e' e, few, debug⟩
  dsimp only [Machine.lockCommand]
  split
  · exact h
  · exact .iteSnd h (.iteSnd (owned (by decide)) h)
  · exact .iteSnd h (.iteSnd h (owned (by decide)))

theorem Completes.execLock : Completes s₀ (execLock from_ s) := by unfold Machine.execLock; exact .next (.command (.touchSession h) .lockCommand)

theorem Completes.execUnlock : Completes s₀ (execUnlock from_ s) := by
  unfold Machine.execUnlock
  exact .next (.command (.touchSession h) .lockCommand)

theorem Completes.execSessionTimeout : Completes s₀ (execSessionTimeout s) := by
  refine .next (.setSec h fun ⟨unowned, few, debug⟩ => ⟨fun e => ?_, ?_, debug⟩)
  · obtain ⟨ed, ml, closed⟩ := unowned e
    exact ⟨ed, ml, by rw [closed]; rfl⟩
  · exact (List.length_filter_le _ _).trans few

theorem Keeps.ownerMessage : Keeps s₀ (ownerMessage l s).2 := by
  dsimp only [Machine.ownerMessage]
  split
  · exact h
  next accepted =>
  have owned : fld l 8 1 ≠ 1 → s.sec.owner ≠ .unowned := State.owner_of_ownerRefusal (not_not.mp accepted)
  refine .setSec h fun ⟨unowned, few, debug⟩ => ?_
  split
  · exact ⟨fun e => (nomatch e), few, debug⟩
  split
  · exact ⟨fun _ => ⟨rfl, rfl, rfl⟩, Nat.zero_le 4, debug⟩
  split
  next other _ _ => exact ⟨fun e => absurd e (owned other), openSession_length _ few, debug⟩
  · refine ⟨fun e => ?_, (List.length_filter_le _ _).trans few, debug⟩
    obtain ⟨ed, ml, closed⟩ := unowned e
    exact ⟨ed, ml, by rw [closed]; rfl⟩

theorem Keeps.debugUnlock : Keeps s₀ (debugUnlock l r s).2 := by
  unfold Machine.debugUnlock
  exact .iteSnd h (.setSec h fun ⟨unowned, few, _⟩ => ⟨unowned, few, fun _ => rfl⟩)

theorem Completes.execDebugUnlock : Completes s₀ (execDebugUnlock token from_ s) := by
  dsimp only [Machine.execDebugUnlock]
  exact .iteOn .next (fun k => .ite (.next (.answer k)) (.next (.iteOn .answer .update (.debugUnlock k)))) (.touchSession h)

theorem Keeps.debugOff : Keeps s₀ (debugOff s) := by
  have locked : Keeps s₀ { s with sec := { s.sec with debug := false } } :=
    .setSec h fun ⟨unowned, few, _⟩ => ⟨unowned, few, fun e => (nomatch e)⟩
  unfold Machine.debugOff
  exact .tapYield (.update locked)

theorem Completes.execDebugLock : Completes s₀ (execDebugLock value s) := by
  dsimp only [Machine.execDebugLock]
  exact .next (.command h fun k => .ite (.debugOff k) k)

theorem Completes.execDebugExpiry : Completes s₀ (execDebugExpiry s) := by unfold Machine.execDebugExpiry; exact .next (.ite (.debugOff h) h)

/-- What attestation holds is no part of ownership. -/
theorem Keeps.setAttest {x : Tab Attest} : Keeps s₀ { s with sec := { s.sec with attest := x } } :=
  .setSec h fun ⟨unowned, few, debug⟩ => ⟨unowned, few, debug⟩

theorem Keeps.startAttest : Keeps s₀ (startAttest path nonce s) := .setAttest h

theorem Completes.execAttestNonce : Completes s₀ (execAttestNonce mailbox nonce s) := by
  dsimp only [Machine.execAttestNonce]
  exact .next (.command h fun k => .iteSnd k (.startAttest k))

theorem Completes.execDoeRequest : Completes s₀ (execDoeRequest nonce₁ s) := by unfold Machine.execDoeRequest; exact .next (.ite (.startAttest h) h)

theorem Completes.execAttestReportDone {way : Fin 3} : Completes s₀ (execAttestReportDone way s) := by
  unfold Machine.execAttestReportDone
  exact .ite (.next h) (.next (.ite (.update (.setAttest h)) (.setAttest h)))

end Sys2Proof.Machine
end

section
/-! SUPPORT. What every command keeps: firmware update and the hold-up bank. -/
namespace Sys2Proof.Machine

variable {s₀ s : State} {st result code comp p : Nat} {own flash : Bool} {b : List Byte} {r from_ : Requester} {l found : List VetFinding}
  (h : Keeps s₀ s)
include h

theorem Keeps.dropStaged : Keeps s₀ (dropStaged s) := by unfold Machine.dropStaged; exact .modComp h

theorem Keeps.setUpdate : Keeps s₀ (setUpdate st result s) := by unfold Machine.setUpdate; exact .update h

theorem Keeps.refuseUpdate : Keeps s₀ (refuseUpdate own code s) := by unfold Machine.refuseUpdate; exact .setUpdate (.ite (.dropStaged h) h)

theorem Keeps.acceptHeader : Keeps s₀ (acceptHeader b s) := by
  unfold Machine.acceptHeader
  exact .dropStaged (.update (.ite (.setUpdate (.dropStaged h)) (.setUpdate h)))

theorem Keeps.stageImage : Keeps s₀ (stageImage b s).2 := by
  unfold Machine.stageImage
  exact .iteSnd (.pair (.refuseUpdate h)) (.pair (.setUpdate (.modComp h)))

theorem Keeps.raiseFloor : Keeps s₀ (raiseFloor comp s) := by unfold Machine.raiseFloor; exact .modComp h

theorem Keeps.nextMove : Keeps s₀ (nextMove s) := by
  dsimp only [Machine.nextMove]
  split
  · exact .iteOn .raiseFloor id (.setUpdate (.update h))
  · exact .update (.modPack (.foldl (.abandonSlice h) .modCore))

theorem Keeps.updateCommit : Keeps s₀ (updateCommit r flash s).2 := by
  unfold Machine.updateCommit
  extract_lets e c _ u _ todo v w
  have trial : Keeps s₀ u := .modComp h
  have raised : Keeps s₀ v := .raiseFloor (.modComp h)
  have committed : Keeps s₀ w := .ite (.trainPorts raised) raised
  refine .iteSnd h (.iteSnd (.pair (.update h)) (.iteSnd (.setUpdate h) (.iteSnd (.restart (.update trial)) ?_)))
  exact .iteSnd (.nextMove (.setUpdate (.update h))) (.setUpdate committed)

theorem Completes.execUpdateCommit : Completes s₀ (execUpdateCommit from_ flash s) := by
  unfold Machine.execUpdateCommit
  exact .next (.command (.touchSession h) .updateCommit)

theorem Keeps.updateAbandon : Keeps s₀ (updateAbandon r s).2 := by
  unfold Machine.updateAbandon
  exact .iteSnd h (.iteSnd (.pair (.update h)) (.pair (.setUpdate (.dropStaged h))))

theorem Completes.execUpdateAbandon : Completes s₀ (execUpdateAbandon from_ s) := by
  unfold Machine.execUpdateAbandon
  exact .next (.command (.touchSession h) .updateAbandon)

theorem Keeps.releaseMoved : Keeps s₀ (releaseMoved p s) := by unfold Machine.releaseMoved; exact .modPack (.foldl h .modCore)

theorem Keeps.packVet : Keeps s₀ (packVet p l s) := by unfold Machine.packVet; exact .bump (.foldl h fun k => .ite k (.applyFinding (.bump k)))

theorem Completes.execPackCommitDone : Completes s₀ (execPackCommitDone found s) := by
  dsimp only [Machine.execPackCommitDone]
  split
  · exact .next h
  · exact .next (.nextMove (.releaseMoved (.modComp (.ite (.packVet h) h))))

theorem Completes.execTrialConfirm : Completes s₀ (execTrialConfirm s) := by
  unfold Machine.execTrialConfirm
  exact .ite (.next h) (.next (.raiseFloor (.setUpdate (.update (.modComp h)))))

theorem Completes.execTrialTimeout : Completes s₀ (execTrialTimeout s) := by
  unfold Machine.execTrialTimeout
  exact .ite (.next (.restart (.revertTrial h))) (.next h)

theorem Completes.execHoldupLoss : Completes s₀ (execHoldupLoss s) := by
  unfold Machine.execHoldupLoss
  extract_lets _ low slow _ stopped fused
  have isLow : Keeps s₀ low := .update h
  have isSlow : Keeps s₀ slow := .clockDown isLow
  have isStopped : Keeps s₀ stopped := by
    unfold stopped
    split
    · exact isSlow
    · exact .setUpdate (.releaseMoved (.update isSlow))
  exact .ite (.next h) (.ite (.next isLow) (.next (.alert (.ite (.setMaint isStopped) isStopped))))

theorem Completes.execHoldupRestore : Completes s₀ (execHoldupRestore s) := by
  unfold Machine.execHoldupRestore
  exact .ite (.next h) (.next (.update h))

end Sys2Proof.Machine
end

section
/-! SUPPORT. What every command keeps: object reads. -/
namespace Sys2Proof.Machine

variable {s₀ s : State} {c off len path idx sub : Nat} {w : Word} {mailbox : Bool} (h : Keeps s₀ s)
include h

theorem Keeps.dbgSpad : Keeps s₀ (dbgSpad c off len s).2.2 := .readWords h

theorem Keeps.dbgStore : Keeps s₀ (dbgStore c off len s).2.2 := by
  dsimp only [Machine.dbgStore]
  exact .ite h (.update h)

theorem Keeps.dbgData : Keeps s₀ (dbgData w s).2.2 := by
  dsimp only [Machine.dbgData]
  split
  · exact .dbgSpad h
  · exact h
  · exact h
  · exact .iteSndSnd h (.pair (.pair (.dbgSpad (.dbgSpad h))))
  · exact h
  · exact h
  · exact h
  · exact h
  · exact .dbgStore h

theorem Keeps.dbgRead : Keeps s₀ (dbgRead path s).2 := by
  unfold Machine.dbgRead
  exact .iteSnd h (.iteSnd h (.iteSnd h (.pair (.update (.dbgData h)))))

theorem Keeps.readObj : Keeps s₀ (readObj mailbox idx sub s).2 := by
  dsimp only [Machine.readObj]
  split
  · exact h
  · exact .iteSnd h (.iteSnd (.dbgRead h) (.iteSnd (.pair (.update h)) (.iteSnd (.pair (.update h)) h)))

theorem Keeps.answerObj {x : ObjRes × State} (k : Keeps s₀ x.2) : Keeps s₀ (answerObj x s) := by
  dsimp only [Machine.answerObj]
  split
  · exact .update k
  · exact .update k
  · exact h
  · exact k

theorem Completes.execPinPeakRead : Completes s₀ (execPinPeakRead mailbox s) := by
  unfold Machine.execPinPeakRead
  exact .next (.ite (.answerObj h (.readObj h)) h)

theorem Completes.execDbgDataRead : Completes s₀ (execDbgDataRead mailbox s) := by
  unfold Machine.execDbgDataRead
  exact .next (.ite (.answerObj h (.dbgRead h)) h)

end Sys2Proof.Machine
end

section
/-! SUPPORT. What every command keeps: object writes. -/
namespace Sys2Proof.Machine

variable {s₀ s : State} {idx sub v i path typ : Nat} {r from_ : Requester} {flash : FlashEnd} {ok : Bool} {f : Bool → State → Nat × State}
  {l data : List Byte} {value : BitVec 8} {object : Fin 5} (h : Keeps s₀ s)
include h

omit h in
theorem Keeps.stRes {x : Nat × State} (k : Keeps s₀ x.2) : Keeps s₀ (stRes x).2 := k

theorem Keeps.writeCommand : Keeps s₀ (writeCommand idx sub v r flash s).2 := by
  dsimp only [Machine.writeCommand]
  split
  · exact .iteSnd (.stateService h) (.stateIdle h)
  · exact .lockCommand h
  · exact .iteSnd (.loadAbort h) (.startCheck h)
  · exact .iteSnd (.genStart h) (.iteSnd (.genStop h) (.genHostFed h))
  · exact .iteSnd (.jobStart h) (.jobLeave h)
  · exact .iteSnd (.barkCommand h) h
  · exact .iteSnd (.mirrorStart h) (.mirrorAbort h)
  · exact .packReset h
  · exact .deviceReset h
  · exact .unloadPacks h
  · exact .pair (.ite (.update h) h)
  · exact .iteSnd (.updateCommit h) (.updateAbandon h)
  · exact .pair (.ite (.debugOff h) h)
  · exact .maintCommand h
  · exact .alertAck h
  · exact .sniffCommand h
  · exact .iteSnd (.statsClear h) h
  · exact .iteSnd (.recalibrate h) (.retrain h)

theorem Keeps.writeOwn : Keeps s₀ (writeOwn idx sub v s).2 := by
  dsimp only [Machine.writeOwn]
  split
  · exact .iteSnd h (.pair (.setSetting h))
  · exact .iteSnd h (.pair (.update h))
  · exact .pair (.update h)
  · exact .pair (.update h)
  · exact .pair (.update h)
  · exact .iteSnd h (.pair (.setSetting h))
  · exact .pair (.setSetting h)
  · exact .pair (.setSetting h)

theorem Keeps.commitSetting : Keeps s₀ (commitSetting idx sub v ok s).2 := by
  unfold Machine.commitSetting
  exact .iteSnd (.portEnable h) (.iteSndOn (fun m => .pair (.freqIdle m)) id (.commitFlash h fun k => .setSetting (.ite (.restartWatch k) k)))

theorem Keeps.commitEnd (keeps : ∀ {x t}, Keeps s₀ t → Keeps s₀ (f x t).2) : Keeps s₀ (commitEnd flash f s).2 := by
  dsimp only [Machine.commitEnd]
  split
  · exact .stRes (keeps h)
  · exact .stRes (keeps h)
  · exact .iteSnd (.stRes (keeps h)) (.pair (.ite (keeps (.fresh h)) (.fresh h)))

theorem Keeps.writeCalib : Keeps s₀ (writeCalib i l flash s).2 := by
  dsimp only [Machine.writeCalib]
  split
  · exact h
  split
  · exact .pair (.update (.fresh h))
  · exact .pair (.ite (.update (.fresh h)) (.fresh h))
  · exact .pair (.update h)

theorem Keeps.dbgWrite : Keeps s₀ (dbgWrite path l s).2 := by
  unfold Machine.dbgWrite
  exact .iteSnd h (.iteSnd h (.iteSnd h (.pair (.writePort h))))

theorem Keeps.settingsDefault : Keeps s₀ (settingsDefault s) := by
  unfold Machine.settingsDefault
  exact .foldl (.foldl (.dropRwp (.ite (.restartWatch h) h)) .modPort) .freqIdle

theorem Keeps.settingsCommand : Keeps s₀ (settingsCommand r ok s).2 := by
  unfold Machine.settingsCommand
  exact .iteSnd h (.iteSnd h (.commitFlash h .settingsDefault))

theorem Keeps.writeBytes : Keeps s₀ (writeBytes idx sub r l flash s).2 := by
  dsimp only [Machine.writeBytes]
  split
  · exact .commitEnd h fun k => .commitFlash k .update
  · exact .pair (.ownerMessage h)
  · exact .pair (.startAttest h)
  · exact .pair (.startAttest h)
  · exact .pair (.debugUnlock h)
  · exact .dbgWrite h
  · exact .dbgWrite h
  · exact .writeCalib h

theorem Keeps.writeObj : Keeps s₀ (writeObj r idx sub typ l flash s).2 := by
  dsimp only [Machine.writeObj]
  split
  · exact h
  split
  · exact h
  split
  · exact h
  split
  · exact h
  split
  · exact h
  split
  · exact .writeBytes h
  split
  · exact h
  split
  · exact h
  split
  · exact .commitEnd h .settingsCommand
  split
  · exact h
  · exact .stRes (.writeCommand h)
  · exact .commitEnd h .commitSetting
  · exact .stRes (.writeOwn h)
  · exact .stRes (.writeOwn h)

theorem Completes.execSettingsCommand : Completes s₀ (execSettingsCommand value from_ flash s) := by
  unfold Machine.execSettingsCommand
  exact .next (.iteOn (fun k => .answerObj k (.writeObj (.touchSession h))) id (.touchSession h))

theorem Completes.execCalibrationWrite : Completes s₀ (execCalibrationWrite object data from_ flash s) := by
  unfold Machine.execCalibrationWrite
  exact .next (.iteOn (fun k => .answerObj k (.writeObj (.touchSession h))) id (.touchSession h))

theorem Completes.execDbgWrite : Completes s₀ (execDbgWrite data from_ s) := by
  unfold Machine.execDbgWrite
  exact .next (.iteOn (fun k => .answerObj k (.writeObj (.touchSession h))) id (.touchSession h))

end Sys2Proof.Machine
end

section
/-! SUPPORT. What every command keeps: the management port. -/
namespace Sys2Proof.Machine

variable {s₀ s : State} {q : Request} {l body request v d bytes : List Byte} {status op g n rule b result addr port : Nat} {len : Fin 2049}
  {irq ide mailbox multicast : Bool} {f : Request → State → Served × State} {flash : FlashEnd} {x y : Transfer} {frame : MgmtFrame}
  {f₁ : Nat → Transfer → Served × State} (h : Keeps s₀ s)
include h

theorem Keeps.popRequest : Keeps s₀ (popRequest q s) := by unfold Machine.popRequest; exact .ite (.update h) (.update h)

theorem Keeps.sendResponse : Keeps s₀ (sendResponse q l s) := by
  unfold Machine.sendResponse
  exact .ite (.ite (.raiseMsix (.update h)) (.update h)) (.update h)

theorem Keeps.keepResponse : Keeps s₀ (keepResponse q l s) := by unfold Machine.keepResponse; exact .ite h (.update h)

theorem Keeps.respond : Keeps s₀ (respond q status body s) := by
  unfold Machine.respond
  exact .sendResponse (.keepResponse (.iteOn id .bump (.bump (.popRequest h))))

omit h in
theorem Keeps.settleOne {u : State} (e : settleOne q s = some u) (h : Keeps s₀ s) : Keeps s₀ u := by
  have unserved {x y z : Prop} [Decidable x] [Decidable y] [Decidable z]
      (e : (if x then some (Machine.respond q stMalformed [] s) else if y then some (Machine.respond q stOpcode [] s)
        else if z then some (Machine.popRequest q s) else none) = some u) : Keeps s₀ u := by
    split at e
    · cases e
      exact .respond h
    split at e
    · cases e
      exact .respond h
    split at e <;> cases e
    exact .popRequest h
  dsimp only [Machine.settleOne] at e
  split at e
  · split at e
    · cases e
      exact .sendResponse (.keepResponse (.bump (.popRequest h)))
    · exact unserved e
  · exact unserved e

theorem Keeps.settle : Keeps s₀ (settle n s) := by
  induction n generalizing s with
  | zero => exact h
  | succ n ih =>
    dsimp only [Machine.settle]
    split
    · exact h
    split
    next e => exact ih (.settleOne e h)
    next => exact h

theorem Completes.execMailboxGo : Completes s₀ (execMailboxGo request len irq ide s) := by
  unfold Machine.execMailboxGo
  exact .next (.barWrite h fun k => .ite (.update k) (.settle (.update k)))

theorem Keeps.serveOp (keeps : ∀ {x t}, Keeps s₀ t → Keeps s₀ (f x t).2) : Keeps s₀ (serveOp op f s) := by
  dsimp only [Machine.serveOp]
  split
  · exact h
  split
  · exact h
  split
  · exact h
  split
  next e => exact .settle (.iteOn (fun k => .respond (.snd e (keeps k))) (fun k => .snd e (keeps k)) (.touchSession (.update h)))
  · exact h
  next e => exact .settle (.popRequest (.snd e (keeps (.touchSession (.update h)))))

theorem Keeps.serveRead : Keeps s₀ (serveRead q s).2 := by
  dsimp only [Machine.serveRead]
  split
  · exact h
  split
  next e => exact .iteSnd h (.snd e (.readObj h))
  next e => exact .snd e (.readObj h)
  · exact h
  next e => exact .snd e (.readObj h)

theorem Completes.execRead : Completes s₀ (execRead s) := by unfold Machine.execRead; exact .next (.serveOp h .serveRead)

theorem Keeps.serveWrite : Keeps s₀ (serveWrite flash q s).2 := by
  dsimp only [Machine.serveWrite]
  split
  · exact h
  split
  next e => exact .snd e (.writeObj h)
  next e => exact .snd e (.writeObj h)
  · exact h
  next e => exact .snd e (.writeObj h)

theorem Completes.execWrite : Completes s₀ (execWrite flash s) := by unfold Machine.execWrite; exact .next (.serveOp h .serveWrite)

omit h in
theorem Keeps.readItems {items : List (Nat × Nat)} {acc bytes : List Byte} {u : State} (e : readItems mailbox items acc s = some (bytes, u))
    (h : Keeps s₀ s) : Keeps s₀ u := by
  induction items generalizing acc s with
  | nil =>
    cases e
    exact h
  | cons item items ih =>
    dsimp only [Machine.readItems] at e
    split at e
    next read => exact ih e (.snd read (.readObj h))
    next read => exact ih e (.snd read (.readObj h))
    next => cases e
    next read =>
      cases e
      exact .snd read (.readObj h)

theorem Keeps.serveReadMulti : Keeps s₀ (serveReadMulti q s).2 := by
  dsimp only [Machine.serveReadMulti]
  split
  · exact h
  split
  · exact h
  next e => exact .iteSnd h (.readItems e h)

theorem Completes.execReadMulti : Completes s₀ (execReadMulti s) := by unfold Machine.execReadMulti; exact .next (.serveOp h .serveReadMulti)

theorem Keeps.serveDescribe : Keeps s₀ (serveDescribe q s).2 := by
  dsimp only [Machine.serveDescribe]
  split
  · exact h
  split
  · exact h
  · exact .iteSnd h h

theorem Completes.execDescribe : Completes s₀ (execDescribe s) := by unfold Machine.execDescribe; exact .next (.serveOp h .serveDescribe)

theorem Keeps.serveSubscribe : Keeps s₀ (serveSubscribe q s).2 := by
  unfold Machine.serveSubscribe
  exact .iteSnd h (.iteSnd h (.iteSnd (.pair (.update h)) (.pair (.update h))))

theorem Completes.execSubscribe : Completes s₀ (execSubscribe s) := by unfold Machine.execSubscribe; exact .next (.serveOp h .serveSubscribe)

theorem Keeps.setTransfer : Keeps s₀ (s.setTransfer g x) := by unfold State.setTransfer; exact .update h

theorem Keeps.endTransfer : Keeps s₀ (endTransfer g status s) := by unfold Machine.endTransfer; exact .notify (.setTransfer h)

theorem Keeps.endTransferOpen : Keeps s₀ (endTransferOpen g s) := by unfold Machine.endTransferOpen; exact .endTransfer (.fresh h)

theorem Keeps.openTransfer : Keeps s₀ (openTransfer g x s).2 := by unfold Machine.openTransfer; exact .pair (.setTransfer (.update h))

theorem Keeps.padFree : Keeps s₀ (padFree n v s).2 := by unfold Machine.padFree; exact .pair (.update h)

theorem Keeps.startObject : Keeps s₀ (startObject q g x s).2 := by
  dsimp only [Machine.startObject]
  split
  · exact h
  split
  · split
    next e => exact .iteSnd h (.openTransfer (.padFree (.snd e (.readObj h))))
    next e => exact .snd e (.readObj h)
    · exact h
    next e => exact .snd e (.readObj h)
  · exact .iteSnd h (.iteSnd h (.iteSnd h (.openTransfer h)))

theorem Keeps.refusedOpen : Keeps s₀ (refusedOpen s).2 := by unfold Machine.refusedOpen; exact .pair (.fresh h)

theorem Keeps.startRange : Keeps s₀ (startRange g x s).2 := by unfold Machine.startRange; exact .iteSnd (.refusedOpen h) (.openTransfer h)

theorem Keeps.startImage : Keeps s₀ (startImage q g x s).2 := by unfold Machine.startImage; exact .iteSnd h (.iteSnd h (.openTransfer h))

theorem Keeps.serveSegStart : Keeps s₀ (serveSegStart q s).2 := by
  dsimp only [Machine.serveSegStart]
  split
  · exact h
  split
  · exact h
  split
  · exact h
  split
  · exact .startObject h
  · exact .startRange h
  · exact .startImage h

theorem Completes.execSegStart : Completes s₀ (execSegStart s) := by unfold Machine.execSegStart; exact .next (.serveOp h .serveSegStart)

theorem Keeps.rangeRefusal : Keeps s₀ (rangeRefusal rule s).2 := by unfold Machine.rangeRefusal; exact .iteSnd h (.iteSnd h (.refusedOpen h))

theorem Keeps.uploadBlock : Keeps s₀ (uploadBlock g b x s).2 := by
  dsimp only [Machine.uploadBlock]
  split
  · exact h
  split
  · exact .pair (.setTransfer h)
  split
  next e => exact .pair (.setTransfer (.snd e (.bar2Read h)))
  next e => exact .rangeRefusal (.snd e (.bar2Read h))
  · exact h

theorem Keeps.imageBlock : Keeps s₀ (imageBlock q g y s).2 := by
  unfold Machine.imageBlock
  exact .iteSnd
    (.iteSnd (.pair (.endTransfer (.refuseUpdate h))) (.pair (.acceptHeader (.setTransfer h))))
    (.iteSnd (.pair (.endTransfer (.refuseUpdate h))) (.pair (.setTransfer h)))

theorem Keeps.acceptBlock : Keeps s₀ (acceptBlock q g flash d x s).2 := by
  dsimp only [Machine.acceptBlock]
  split
  · exact .pair (.setTransfer h)
  · split
    next e => exact .pair (.setTransfer (.snd e (.bar2Write h)))
    next e => exact .rangeRefusal (.snd e (.bar2Write h))
    · exact h
  split
  · exact h
  split
  · exact .imageBlock h
  · exact h
  · exact .pair (.ite (.imageBlock (.fresh h)) (.fresh h))

theorem Keeps.downloadBlock : Keeps s₀ (downloadBlock q g b flash d x s).2 := by
  unfold Machine.downloadBlock
  exact .iteSnd h (.iteSnd h (.iteSnd h (.acceptBlock h)))

theorem Keeps.serveSegBlock : Keeps s₀ (serveSegBlock flash q s).2 := by
  dsimp only [Machine.serveSegBlock]
  split
  · exact h
  split
  · exact h
  · exact .iteSndOn (fun k => .iteSnd (.pair k) (.uploadBlock k)) .downloadBlock (.setTransfer h)

theorem Completes.execSegBlock : Completes s₀ (execSegBlock flash s) := by unfold Machine.execSegBlock; exact .next (.serveOp h .serveSegBlock)

theorem Keeps.namedSlot (keeps : ∀ {x y}, Keeps s₀ (f₁ x y).2) : Keeps s₀ (namedSlot q s f₁).2 := by
  dsimp only [Machine.namedSlot]
  split
  · exact h
  split
  · exact h
  · exact keeps

theorem Keeps.serveSegQuery : Keeps s₀ (serveSegQuery q s).2 := by unfold Machine.serveSegQuery; exact .namedSlot h (.pair (.setTransfer h))

theorem Completes.execSegQuery : Completes s₀ (execSegQuery s) := by unfold Machine.execSegQuery; exact .next (.serveOp h .serveSegQuery)

theorem Keeps.endObject : Keeps s₀ (endObject q g flash x s).2 := by
  dsimp only [Machine.endObject]
  split
  · exact .pair (.setTransfer h)
  split
  next e => exact .pair (.endTransfer (.snd e (.writeObj h)))
  next e => exact .pair (.endTransfer (.snd e (.writeObj h)))
  · exact h
  next e => exact .snd e (.writeObj h)

theorem Keeps.dropReceived : Keeps s₀ (dropReceived result s) := by
  unfold Machine.dropReceived
  exact .ite (.setUpdate (.dropStaged h)) (.setUpdate h)

theorem Keeps.serveSegEnd : Keeps s₀ (serveSegEnd flash q s).2 := by
  dsimp only [Machine.serveSegEnd]
  refine .namedSlot h fun {_ _} => ?_
  split
  · exact .pair (.endTransfer h)
  split
  · exact .pair (.endTransfer (.ite (.dropReceived h) h))
  split
  · exact .endObject h
  · exact .pair (.endTransfer h)
  · exact .iteSnd (.pair (.endTransfer (.stageImage h))) (.pair (.endTransfer (.stageImage h)))

theorem Completes.execSegEnd : Completes s₀ (execSegEnd flash s) := by unfold Machine.execSegEnd; exact .next (.serveOp h .serveSegEnd)

theorem Keeps.serveSegAbort : Keeps s₀ (serveSegAbort q s).2 := by
  unfold Machine.serveSegAbort
  exact .namedSlot h (.pair (.endTransferOpen (.ite (.dropReceived h) h)))

theorem Completes.execSegAbort : Completes s₀ (execSegAbort s) := by unfold Machine.execSegAbort; exact .next (.serveOp h .serveSegAbort)

theorem Completes.execSegTimeout : Completes s₀ (execSegTimeout s) := by
  unfold Machine.execSegTimeout
  exact .next (.foldl h fun k => .ite (.endTransferOpen k) k)

theorem Keeps.serveServiceSend : Keeps s₀ (serveServiceSend q s).2 := by
  dsimp only [Machine.serveServiceSend]
  split
  · exact h
  split
  next e => exact .snd e (.serviceSend h)
  next e => exact .snd e (.serviceSend h)
  next e => exact .snd e (.serviceSend h)
  · exact h

theorem Completes.execServiceSend : Completes s₀ (execServiceSend s) := by
  unfold Machine.execServiceSend
  exact .next (.serveOp h .serveServiceSend)

theorem Keeps.takeDatagram : Keeps s₀ (takeDatagram addr port multicast bytes s) := by
  unfold Machine.takeDatagram
  exact .ite h (.ite (.bump h) (.update h))

theorem Completes.execMgmtFrame : Completes s₀ (execMgmtFrame frame s) := by
  dsimp only [Machine.execMgmtFrame]
  split
  · exact .next h
  split
  · exact .ite (.next (.bump (.update h))) (.next (.settle (.takeDatagram (.update h))))
  · exact .next (.ite (.bump (.update h)) (.update h))
  · exact .next (.update h)
  · exact .next (.freeRecord (.update (.update h)))
  · exact .next (.ite (.bump (.update h)) (.update h))

end Sys2Proof.Machine
end

section
/-! SUPPORT. What every command keeps: the JTAG port. -/
namespace Sys2Proof.Machine

variable {s₀ s : State} {i : TapInsn} {cond : Bool} {f : State → State} {preload : Word} {value : BitVec 24} {n : Nat} {found : Option Finding}
  (h : Keeps s₀ s)
include h

theorem Keeps.tapSelect : Keeps s₀ (tapSelect i s) := by unfold Machine.tapSelect; exact .update h

theorem Keeps.tapIf (keeps : ∀ {t}, Keeps s₀ t → Keeps s₀ (f t)) : Keeps s₀ (tapIf cond i f s) := by
  unfold Machine.tapIf
  exact .ite (keeps (.tapSelect h)) (.tapSelect h)

theorem Completes.execIdcode : Completes s₀ (execIdcode s) := by unfold Machine.execIdcode; exact .next (.update (.tapSelect h))

theorem Completes.execSamplePreload : Completes s₀ (execSamplePreload preload s) := by
  unfold Machine.execSamplePreload
  exact .next (.update (.fresh (.tapSelect h)))

theorem Completes.execExtest : Completes s₀ (execExtest s) := by unfold Machine.execExtest; exact .next (.tapIf h id)

theorem Completes.execClamp : Completes s₀ (execClamp s) := by unfold Machine.execClamp; exact .next (.tapIf h id)

theorem Completes.execHighz : Completes s₀ (execHighz s) := by unfold Machine.execHighz; exact .next (.tapIf h id)

theorem Completes.execLbistSelect : Completes s₀ (execLbistSelect value s) := by unfold Machine.execLbistSelect; exact .next (.tapIf h .update)

theorem Keeps.lbistRun : Keeps s₀ (lbistRun n found s) := by
  dsimp only [Machine.lbistRun]
  split
  · exact .update (.bump (.fresh h))
  · exact .ite (.fresh h) (.update (.sliceResult (.fresh h)))

theorem Completes.execLbistRun : Completes s₀ (execLbistRun found s) := by
  dsimp only [Machine.execLbistRun]
  split
  · exact .next (.tapIf h id)
  · exact .next (.tapIf h .lbistRun)

theorem Completes.execLbistResult : Completes s₀ (execLbistResult s) := by unfold Machine.execLbistResult; exact .next (.tapIf h .update)

theorem Completes.execBypass : Completes s₀ (execBypass s) := by unfold Machine.execBypass; exact .next (.tapSelect h)

theorem Completes.execTapReset : Completes s₀ (execTapReset s) := by unfold Machine.execTapReset; exact .next (.tapReset h)

end Sys2Proof.Machine
end

section
/-! SUPPORT. What every command keeps: the scalar instructions. -/
namespace Sys2Proof.Machine

variable {s₀ s : State} {x : Issued} {r target : Nat} {v : Word} {core : CoreId} {stream : StreamId} (h : Keeps s₀ s)
include h

theorem Keeps.setX : Keeps s₀ (setX x r v s) := by unfold Machine.setX; exact .modCore h

theorem Keeps.setPc : Keeps s₀ (setPc x target s) := by unfold Machine.setPc; exact .modCore h

theorem Completes.execNop : Completes s₀ (execNop core stream s) := by unfold Machine.execNop; exact .next (.issueOp h id)

theorem Completes.execMovi : Completes s₀ (execMovi core stream s) := by unfold Machine.execMovi; exact .next (.issueOp h .setX)

theorem Completes.execAlu : Completes s₀ (execAlu core stream s) := by unfold Machine.execAlu; exact .next (.issueOp h .setX)

theorem Completes.execLcset : Completes s₀ (execLcset core stream s) := by unfold Machine.execLcset; exact .next (.issueOp h .modCore)

theorem Completes.execLoop : Completes s₀ (execLoop core stream s) := by
  unfold Machine.execLoop
  exact .next (.issueOp h fun k => .ite k (.ite (.modCore k) (.setPc (.modCore k))))

theorem Completes.execBr : Completes s₀ (execBr core stream s) := by unfold Machine.execBr; exact .next (.issueOp h fun k => .ite (.setPc k) k)

theorem Completes.execRdsr : Completes s₀ (execRdsr core stream s) := by unfold Machine.execRdsr; exact .next (.issueOp h .setX)

end Sys2Proof.Machine
end

section
/-! SUPPORT. What every command and every step keeps, through the dispatch. -/
namespace Sys2Proof.Machine

variable {s₀ s : State} (h : Keeps s₀ s)
include h

/-- Every command answers a next state that keeps the queue, HBM's canonical form and lawful ownership. -/
theorem Completes.exec : ∀ c, Completes s₀ (exec c s)
  | .powerOn => .execPowerOn h
  | .powerOff => .execPowerOff h
  | .modResetAssert => .execModResetAssert h
  | .startupStepDone .. => .execStartupStepDone h
  | .howlRefLock => .execHowlRefLock h
  | .holdover => .execHoldover h
  | .howlBroadcast => .execHowlBroadcast h
  | .howlPpsCapture => .execHowlPpsCapture h
  | .timedLaunch .. => .execTimedLaunch h
  | .stepReadyPost .. => .execStepReadyPost h
  | .gatedLaunch .. => .execGatedLaunch h
  | .overrun .. => .execOverrun h
  | .relockDone .. => .execRelockDone h
  | .emergencyClockdown .. => .execEmergencyClockdown h
  | .cycleStretch .. => .execCycleStretch h
  | .entryStart .. => .execEntryStart h
  | .slipBegin .. => .execSlipBegin h
  | .openSlotService .. => .execOpenSlotService h
  | .fetchLaneService .. => .execFetchLaneService h
  | .firstSlipRearm => .execFirstSlipRearm h
  | .headerArrival .. => .execHeaderArrival h
  | .lastMeshFaultRead => .execLastMeshFaultRead h
  | .routerDrained .. => .execRouterDrained h
  | .serviceAnswer .. => .execServiceAnswer h
  | .serviceMcastTimeout .. => .execServiceMcastTimeout h
  | .bowlDelivery .. => .execBowlDelivery h
  | .writePointerPublish .. => .execWritePointerPublish h
  | .channelClosed .. => .execChannelClosed h
  | .serviceNack .. => .execServiceNack h
  | .streamWake .. => .execStreamWake h
  | .nop .. => .execNop h
  | .movi .. => .execMovi h
  | .alu .. => .execAlu h
  | .lcset .. => .execLcset h
  | .loop .. => .execLoop h
  | .br .. => .execBr h
  | .rdsr .. => .execRdsr h
  | .fetch .. => .execFetch h
  | .store .. => .execStore h
  | .mma .. => .execMma h
  | .dcfg .. => .execDcfg h
  | .add .. => .execAdd h
  | .sub .. => .execSub h
  | .mul .. => .execMul h
  | .fma .. => .execFma h
  | .min .. => .execMin h
  | .max .. => .execMax h
  | .abs .. => .execAbs h
  | .neg .. => .execNeg h
  | .cmp .. => .execCmp h
  | .sel .. => .execSel h
  | .cvt .. => .execCvt h
  | .func .. => .execFunc h
  | .reduce .. => .execReduce h
  | .gather .. => .execGather h
  | .fill .. => .execFill h
  | .send .. => .execSend h
  | .sendt .. => .execSendt h
  | .take .. => .execTake h
  | .post .. => .execPost h
  | .wait .. => .execWait h
  | .fadd .. => .execFadd h
  | .reset .. => .execReset h
  | .claim .. => .execClaim h
  | .complete .. => .execComplete h
  | .stepdone .. => .execStepdone h
  | .rsample .. => .execRsample h
  | .rcancel .. => .execRcancel h
  | .remotePost .. => .execRemotePost h
  | .remoteFetchAdd .. => .execRemoteFetchAdd h
  | .remoteClaim .. => .execRemoteClaim h
  | .remoteComplete .. => .execRemoteComplete h
  | .nullClaim .. => .execNullClaim h
  | .collarReply .. => .execCollarReply h
  | .matrixProblemReady .. => .execMatrixProblemReady h
  | .drainComplete .. => .execDrainComplete h
  | .vectorComplete .. => .execVectorComplete h
  | .fetchRequestIssue .. => .execFetchRequestIssue h
  | .requestAccept .. => .execRequestAccept h
  | .stackServe .. => .execStackServe h
  | .rfm .. => .execRfm h
  | .fetchReply .. => .execFetchReply h
  | .fetchComplete .. => .execFetchComplete h
  | .recalibrate .. => .execRecalibrate h
  | .tempRecalibration .. => .execTempRecalibration h
  | .recalibrationDone .. => .execRecalibrationDone h
  | .retrain .. => .execRetrain h
  | .retrainDone .. => .execRetrainDone h
  | .groomerPassStart .. => .execGroomerPassStart h
  | .groomerVisit .. => .execGroomerVisit h
  | .groomerRewrite .. => .execGroomerRewrite h
  | .checkAndInstall => .execCheckAndInstall h
  | .checkOnly => .execCheckOnly h
  | .loadAbort => .execLoadAbort h
  | .pedigreeCheckDone => .execPedigreeCheckDone h
  | .installDone => .execInstallDone h
  | .generatorStart => .execGeneratorStart h
  | .generatorStop => .execGeneratorStop h
  | .hostFed => .execHostFed h
  | .generatorDescriptor => .execGeneratorDescriptor h
  | .lwTimeWrite .. => .execLwTimeWrite h
  | .inTailWrite .. => .execInTailWrite h
  | .cplHeadWrite .. => .execCplHeadWrite h
  | .ringErrClear .. => .execRingErrClear h
  | .inputTokens .. => .execInputTokens h
  | .inputParams .. => .execInputParams h
  | .paramsAnswer .. => .execParamsAnswer h
  | .inputHandoff .. => .execInputHandoff h
  | .inputClose .. => .execInputClose h
  | .retrieverLogits .. => .execRetrieverLogits h
  | .retrieverSampleCmd .. => .execRetrieverSampleCmd h
  | .retrieverCancelCmd .. => .execRetrieverCancelCmd h
  | .sampleStart .. => .execSampleStart h
  | .sampleReady .. => .execSampleReady h
  | .completionWrite .. => .execCompletionWrite h
  | .completionAccepted .. => .execCompletionAccepted h
  | .frameReceive .. => .execFrameReceive h
  | .retryRequest .. => .execRetryRequest h
  | .portDown .. => .execPortDown h
  | .portDisable .. => .execPortDisable h
  | .portTrain .. => .execPortTrain h
  | .portUp .. => .execPortUp h
  | .fabricPacketArrival .. => .execFabricPacketArrival h
  | .deliveryAnswer => .execDeliveryAnswer h
  | .replyTimeout => .execReplyTimeout h
  | .agedDiscard => .execAgedDiscard h
  | .jobStart => .execJobStart h
  | .jobLeave => .execJobLeave h
  | .jobStartTimeout => .execJobStartTimeout h
  | .hello .. => .execHello h
  | .join .. => .execJoin h
  | .start .. => .execStart h
  | .beaconSend => .execBeaconSend h
  | .beacon .. => .execBeacon h
  | .neighbourSuspect .. => .execNeighbourSuspect h
  | .neighbourSilent .. => .execNeighbourSilent h
  | .suspect .. => .execSuspect h
  | .selfMuzzle => .execSelfMuzzle h
  | .ready .. => .execReady h
  | .go .. => .execGo h
  | .bark .. => .execBark h
  | .barkCommand .. => .execBarkCommand h
  | .barkLineRelease => .execBarkLineRelease h
  | .barkLineSense => .execBarkLineSense h
  | .epochPurge => .execEpochPurge h
  | .rewind .. => .execRewind h
  | .mirrorStart => .execMirrorStart h
  | .mirrorAbort => .execMirrorAbort h
  | .mirrorOpen => .execMirrorOpen h
  | .mirrorWrite => .execMirrorWrite h
  | .mirrorCommit => .execMirrorCommit h
  | .mirrorAnswer => .execMirrorAnswer h
  | .vetSliceStart .. => .execVetSliceStart h
  | .vetSliceResult .. => .execVetSliceResult h
  | .vetSliceAbandon .. => .execVetSliceAbandon h
  | .replacementDrainEnd .. => .execReplacementDrainEnd h
  | .replacementShiftDone .. => .execReplacementShiftDone h
  | .replacementReloadDone .. => .execReplacementReloadDone h
  | .fuseRepairs => .execFuseRepairs h
  | .retestMuzzled => .execRetestMuzzled h
  | .retestSafePacks => .execRetestSafePacks h
  | .maintDone .. => .execMaintDone h
  | .streamHang .. => .execStreamHang h
  | .coreHang .. => .execCoreHang h
  | .linkHang .. => .execLinkHang h
  | .packHang .. => .execPackHang h
  | .rungTimeout .. => .execRungTimeout h
  | .teardownDrainEnd .. => .execTeardownDrainEnd h
  | .zeroiseDone .. => .execZeroiseDone h
  | .quarantineEnd .. => .execQuarantineEnd h
  | .sniffDumpDone .. => .execSniffDumpDone h
  | .sniffDumpTimeout .. => .execSniffDumpTimeout h
  | .packReset .. => .execPackReset h
  | .packResetDone .. => .execPackResetDone h
  | .warmReset => .execWarmReset h
  | .coldReset => .execColdReset h
  | .warmRecoveryDone .. => .execWarmRecoveryDone h
  | .unloadPacks .. => .execUnloadPacks h
  | .alertAck .. => .execAlertAck h
  | .statsClear .. => .execStatsClear h
  | .sniffCommand .. => .execSniffCommand h
  | .vfFlr .. => .execVfFlr h
  | .pfReset => .execPfReset h
  | .d3hotEntry .. => .execD3hotEntry h
  | .d0Return .. => .execD0Return h
  | .bar2Read .. => .execBar2Read h
  | .bar2Write .. => .execBar2Write h
  | .mailboxGo .. => .execMailboxGo h
  | .serviceSendDesc .. => .execServiceSendDesc h
  | .read => .execRead h
  | .write .. => .execWrite h
  | .readMulti => .execReadMulti h
  | .describe => .execDescribe h
  | .subscribe => .execSubscribe h
  | .segStart => .execSegStart h
  | .segBlock .. => .execSegBlock h
  | .segQuery => .execSegQuery h
  | .segEnd .. => .execSegEnd h
  | .segAbort => .execSegAbort h
  | .segTimeout => .execSegTimeout h
  | .serviceSend => .execServiceSend h
  | .mgmtFrame .. => .execMgmtFrame h
  | .stateService => .execStateService h
  | .stateIdle => .execStateIdle h
  | .settingsCommand .. => .execSettingsCommand h
  | .lock .. => .execLock h
  | .unlock .. => .execUnlock h
  | .calibrationWrite .. => .execCalibrationWrite h
  | .pinPeakRead .. => .execPinPeakRead h
  | .dbgDataRead .. => .execDbgDataRead h
  | .dbgWrite .. => .execDbgWrite h
  | .sessionTimeout => .execSessionTimeout h
  | .debugUnlock .. => .execDebugUnlock h
  | .debugLock .. => .execDebugLock h
  | .debugExpiry => .execDebugExpiry h
  | .attestNonce .. => .execAttestNonce h
  | .doeRequest .. => .execDoeRequest h
  | .updateCommit .. => .execUpdateCommit h
  | .updateAbandon .. => .execUpdateAbandon h
  | .trialConfirm => .execTrialConfirm h
  | .trialTimeout => .execTrialTimeout h
  | .thermalModelUpdate .. => .execThermalModelUpdate h
  | .throttleRaise .. => .execThrottleRaise h
  | .throttleLower .. => .execThrottleLower h
  | .valveUpdate => .execValveUpdate h
  | .iinExcess .. => .execIinExcess h
  | .holdupLoss => .execHoldupLoss h
  | .holdupRestore => .execHoldupRestore h
  | .flowLow => .execFlowLow h
  | .safeEntry .. => .execSafeEntry h
  | .safeRailsOff => .execSafeRailsOff h
  | .valveHoldEnd => .execValveHoldEnd h
  | .idcode => .execIdcode h
  | .samplePreload .. => .execSamplePreload h
  | .extest => .execExtest h
  | .clamp => .execClamp h
  | .highz => .execHighz h
  | .lbistSelect .. => .execLbistSelect h
  | .lbistRun .. => .execLbistRun h
  | .lbistResult => .execLbistResult h
  | .bypass => .execBypass h
  | .tapReset => .execTapReset h
  | .engineResetDone .. => .execEngineResetDone h
  | .coreResetDone .. => .execCoreResetDone h
  | .dcfgComplete .. => .execDcfgComplete h
  | .packCommitDone .. => .execPackCommitDone h
  | .attestReportDone .. => .execAttestReportDone h
  | .vfEnableWrite .. => .execVfEnableWrite h
  | .linkRecovery .. => .execLinkRecovery h
  | .frameSend .. => .execFrameSend h
  | .msixVectorUnmask .. => .execMsixVectorUnmask h

theorem Keeps.tick : Keeps s₀ (tick s) := by unfold Machine.tick; exact .update (.ite (.beatEnds h) h)

omit h

/-- Settles O59: the queue is no part of HBM, and whatever its front does keeps HBM canonical. -/
theorem hbmStaysCanonical : Obligations.HbmStaysCanonical := by
  intro s t canonical e
  unfold step at e
  split at e
  · cases e
    exact (Keeps.tick (.refl s)).hbm canonical
  next c rest _ =>
    obtain ⟨u, next, kept⟩ := Completes.exec (.refl { s with pending := rest }) c
    cases next.symm.trans e
    exact kept.hbm canonical

end Sys2Proof.Machine
end

section
/-! SUPPORT. Writing HBM: the bytes, the poison of the lines they cover, and what is left (R365, R375). -/
namespace Sys2Proof.Machine

/-- A table filtered by key reads as before at a key kept, and as the default at one dropped. -/
theorem tabGet_filter {α : Type} (d : α) (kept : Nat → Bool) (t : Tab α) (k : Nat) :
    tabGet d (t.filter (fun e => kept e.1)) k = if kept k then tabGet d t k else d := by
  induction t with
  | nil => exact (ite_self d).symm
  | cons e t ih =>
    rw [List.filter_cons]
    by_cases here : e.1 = k
    · subst here
      split
      · simp [tabGet]
      next drop => rw [ih, if_neg drop]
    · split <;> simpa [tabGet, here] using ih

/-- A key in a dropped range reads as the default. -/
theorem tabGet_tabDrop_inside {α : Type} (d : α) (t : Tab α) {a n k : Nat} (from_ : a ≤ k) (below : k < a + n) :
    tabGet d (tabDrop t a n) k = d := by
  rw [tabDrop, tabGet_filter d (fun x => decide (x < a) || decide (a + n ≤ x)), if_neg]
  simp only [Bool.or_eq_true, decide_eq_true_eq]
  omega

section hbmWrite
variable (s : State) (a : Nat) (l : List Byte)

/-- An HBM write changes memory and the stacks. -/
theorem State.hbmWrite_only : s.hbmWrite a l = { s with hbm := (s.hbmWrite a l).hbm, hbmStacks := (s.hbmWrite a l).hbmStacks } := rfl

/-- The stack written loses the poison of the lines wholly covered (R375). -/
theorem State.hbmWrite_stack_self : (s.hbmWrite a l).stack (stackOf a) = { s.stack (stackOf a) with
    poison := if ceilDiv a 64 < (a + l.length) / 64 then tabDrop (s.stack (stackOf a)).poison (ceilDiv a 64) ((a + l.length) / 64 - ceilDiv a 64)
      else (s.stack (stackOf a)).poison } :=
  tabGet_tabSet_self _ _ _ _

theorem State.hbmWrite_stack_other {n : Nat} (other : n ≠ stackOf a) : (s.hbmWrite a l).stack n = s.stack n :=
  tabGet_tabSet_other _ _ _ other

/-- An HBM write changes of a stack its poison alone. -/
theorem State.hbmWrite_stack (n : Nat) : (s.hbmWrite a l).stack n = { s.stack n with poison := ((s.hbmWrite a l).stack n).poison } := by
  by_cases here : n = stackOf a
  · subst here; rw [s.hbmWrite_stack_self]
  · rw [s.hbmWrite_stack_other a l here]

/-- A line wholly inside the bytes written is good (R375). -/
theorem State.hbmWrite_line {i : Nat} (start : a ≤ 64 * i) (stop : 64 * i + 64 ≤ a + l.length) :
    tabGet 0 ((s.hbmWrite a l).stack (stackOf a)).poison i = 0 := by
  have first : ceilDiv a 64 ≤ i := by unfold ceilDiv; omega
  have last : i < (a + l.length) / 64 := by omega
  rw [s.hbmWrite_stack_self, if_pos (first.trans_lt last)]
  exact tabGet_tabDrop_inside 0 _ first (by omega)

end hbmWrite

/-- Settles O18: the stores of `memWrite` read back, and the poison dropped is that of the lines covered. -/
theorem hbmBytesWrittenReadBack : Obligations.HbmBytesWrittenReadBack := by
  intro s a l
  exact ⟨memRead_memWrite s.hbm a l, fun x outside => memWrite_outside l outside, s.hbmWrite_wf a l, s.hbmWrite_only a l, s.hbmWrite_stack a l,
    fun i => s.hbmWrite_line a l⟩

end Sys2Proof.Machine
end

section
/-! SUPPORT. A stack controller's three commands: acceptance, service and RFM (R373-R375, R379, R383, R386). -/
namespace Sys2Proof.Machine

variable {n : StackId} {s : State} {r : StackReq}

/-- A controller that does not recalibrate takes the request its rotation offers (R373, R384). -/
theorem exec_requestAccept (running : (s.stack n).state ≠ .recalibrating)
    (offer : (rotating (s.stack n).turn).findSome? (s.stack n).offered = some r) : exec (.requestAccept n) s = .next (takeReq n r s) := by
  change execRequestAccept n s = _
  unfold execRequestAccept
  dsimp only
  rw [if_neg running, offer]

/-- A taken request is accepted at a Serving stack (R373). -/
theorem takeReq_serving (serving : (s.stack n).state = .serving) : takeReq n r s = noteAccepted r.pkt (s.setStack n { s.stack n with
    waiting := (s.stack n).waiting.erase r, turn := (r.source + 1) % 9, accepted := (s.stack n).accepted ++ [r] }) :=
  if_pos serving

/-- A taken request is answered STATUS 2 at a stack that does not serve (R386). -/
theorem takeReq_not_serving (down : (s.stack n).state ≠ .serving) : takeReq n r s = sendReply n r.source (fetchReplyPkt r.pkt 2 [])
    (s.setStack n { s.stack n with waiting := (s.stack n).waiting.erase r, turn := (r.source + 1) % 9 }) :=
  if_neg down

/-- An accepted request that no earlier one holds up, and whose reply has room, leaves the queue and is served (R373, R383). -/
theorem exec_stackServe {i : Fin 256} (picked : (s.stack n).accepted[i.val]? = some r) (running : (s.stack n).state ≠ .recalibrating)
    (alone : ((s.stack n).accepted.take i).any (fun q => shareLine q r) = false)
    (room : ((s.core (replyEntry n r.source).1).input (replyEntry n r.source).2).accepts (fetchReplyPkt r.pkt 0 []) = true) :
    exec (.stackServe n i) s = .next (serveReq n r (s.setStack n { s.stack n with accepted := (s.stack n).accepted.eraseIdx i })) := by
  change execStackServe n i s = _
  unfold execStackServe
  dsimp only
  rw [picked]
  dsimp only
  rw [alone, room, if_neg (by simp only [running, decide_false, Bool.not_true, Bool.or_self, Bool.false_eq_true, not_false_eq_true])]

/-- A write served stores its bytes with STATUS 0, or meets poison with STATUS 1 (R375, R379). -/
theorem serveReq_write (serving : (s.stack n).state = .serving) (writes : reqWrites r.pkt = true) : serveReq n r s =
    let w := stackWrite r.source (reqAddr r.pkt) (r.pkt.payload.take (reqLen r.pkt)) s
    sendReply n r.source (fetchReplyPkt r.pkt (if w.1 then 0 else 1) [])
      (if w.1 && reqSource r.pkt = 0 then storedEntries (reqAddr r.pkt) (reqLen r.pkt) w.2 else w.2) := by
  unfold serveReq
  dsimp only
  rw [if_neg (not_not.mpr serving), if_pos writes]
  obtain ⟨stored, t⟩ := stackWrite r.source (reqAddr r.pkt) (r.pkt.payload.take (reqLen r.pkt)) s
  cases stored
  · rfl
  · simp only [Bool.true_and, decide_eq_true_eq, if_true]

/-- A read served answers its bytes with STATUS 0, or meets poison with STATUS 1 (R375, R379). -/
theorem serveReq_read (serving : (s.stack n).state = .serving) (reads : reqWrites r.pkt = false) : serveReq n r s =
    let w := stackRead r.source (reqAddr r.pkt) (reqLen r.pkt) s
    sendReply n r.source (fetchReplyPkt r.pkt (if w.1.isSome then 0 else 1) (w.1.getD [])) w.2 := by
  unfold serveReq
  dsimp only
  rw [if_neg (not_not.mpr serving), if_neg (Bool.eq_false_iff.mp reads)]
  obtain ⟨bytes, t⟩ := stackRead r.source (reqAddr r.pkt) (reqLen r.pkt) s
  cases bytes
  · rfl
  · rfl

/-- An RFM command is counted and takes RAAIMT off its bank's count; other stacks are left (R374). -/
theorem issueRfm_counts {b : Nat} (below : s.stat (0x2000 + n) 6 + 1 < 2 ^ 64 - 1) : ∃ t, issueRfm n b s = t ∧
    t = { s with hbmStacks := t.hbmStacks, stats := t.stats } ∧ t.stat (0x2000 + n) 6 = s.stat (0x2000 + n) 6 + 1 ∧
    t.stack n = { s.stack n with activations := tabSet 0 (s.stack n).activations b (tabGet 0 (s.stack n).activations b - Config.raaimt) } ∧
    ∀ j, j ≠ n.val → t.stack j = s.stack j := by
  obtain ⟨stats, counts, advanced, -⟩ := s.bump_counts (0x2000 + n) 6 1 below
  rw [issueRfm, counts]
  exact ⟨_, rfl, rfl, advanced, State.modStack_self _ _ _, fun j other => State.modStack_other _ _ _ other⟩

/-- Settles O17: each command runs its operation, and that operation's own cases are the statement's. -/
theorem hbmRequestsAreAcceptedAndServed : Obligations.HbmRequestsAreAcceptedAndServed := by
  intro n s k
  refine ⟨fun r running offer => ⟨fun serving => ?accepts, fun down => ?refuses⟩, fun i r picked serving alone room =>
    ⟨fun writes => ?write, fun reads => ?read⟩, fun b due below => ?rfm⟩
  case accepts => rw [exec_requestAccept running offer, takeReq_serving serving]
  case refuses => rw [exec_requestAccept running offer, takeReq_not_serving down]
  case rfm =>
    obtain ⟨t, issued, counts⟩ := issueRfm_counts (n := n) (b := b) below
    exact ⟨t, issued ▸ if_pos due, counts⟩
  all_goals
    have running : k.state ≠ .recalibrating := by rw [serving]; decide
    have serves : ((s.setStack n { k with accepted := k.accepted.eraseIdx i }).stack n).state = .serving := by rwa [s.setStack_self]
  case write => rw [exec_stackServe picked running alone room, serveReq_write serves writes]
  case read => rw [exec_stackServe picked running alone room, serveReq_read serves reads]

end Sys2Proof.Machine
end

section
/-! SUPPORT. A stack's recalibration and retraining, and its failure (R383-R386, R469, R472). -/
namespace Sys2Proof.Machine

section Alerts
variable {s : State} {bit : Nat}

/-- A bit of a word is the library's. -/
theorem bitAt_eq_getLsbD {w : Nat} (x : BitVec w) (i : Nat) : bitAt x i = x.getLsbD i := by
  rw [bitAt, fieldOf, BitVec.getLsbD, Nat.testBit_eq_decide_div_mod_eq, Nat.shiftRight_eq_div_pow, pow_one]
  rfl

/-- Bits set into a word leave those it has. -/
theorem bitAt_or_left {w : Nat} {x : BitVec w} (y : BitVec w) {i : Nat} (set : bitAt x i = true) : bitAt (x ||| y) i = true := by
  rw [bitAt_eq_getLsbD] at set ⊢
  rw [BitVec.getLsbD_or, set, Bool.true_or]

/-- Counting clears no alert (R472, R493). -/
theorem State.bumpRaw_alerts (key n : Nat) (set : bitAt s.faults.alerts bit = true) : bitAt (s.bumpRaw key n).faults.alerts bit = true := by
  unfold State.bumpRaw
  dsimp only
  split
  · exact set
  split
  · exact set
  · exact bitAt_or_left _ set

/-- A notification clears no alert. -/
theorem notify_alerts (kind : Nat) (body : List Byte) (set : bitAt s.faults.alerts bit = true) :
    bitAt (notify kind body s).faults.alerts bit = true := by
  unfold notify; split_ifs
  · exact set
  · exact s.bumpRaw_alerts _ _ set

/-- A message clears no alert. -/
theorem raiseMsix_alerts (fn v : Nat) (set : bitAt s.faults.alerts bit = true) : bitAt (raiseMsix fn v s).faults.alerts bit = true := by
  unfold raiseMsix; dsimp only; split_ifs
  · exact s.bumpRaw_alerts _ _ set
  · exact set
  · exact set

/-- An alert raised is set (R472). -/
theorem State.alert_sets (s : State) (inside : bit < 16) : bitAt (s.alert bit).faults.alerts bit = true := by
  unfold State.alert
  split
  next set => exact set
  · refine raiseMsix_alerts _ _ (notify_alerts _ _ ?_)
    rw [bitAt_eq_getLsbD, BitVec.getLsbD_or, BitVec.getLsbD_ofNat, decide_eq_true inside, Nat.testBit_two_pow_self, Bool.and_self, Bool.or_true]

end Alerts

section Memory

/-- Announcing an alert touches no memory. -/
theorem HbmSame.announceAlert (s : State) : HbmSame s (announceAlert s) := (HbmSame.notify _ _ s).trans (.raiseMsix _ _ _)

/-- An alert touches no memory. -/
theorem HbmSame.alert (s : State) (bit : Nat) : HbmSame s (s.alert bit) := by
  unfold State.alert
  split
  · exact ⟨rfl, rfl⟩
  · refine HbmSame.trans ?_ (HbmSame.announceAlert _)
    exact ⟨rfl, rfl⟩

/-- A fault record touches no memory. -/
theorem HbmSame.writeFaultRecord (code cls pack core stream : Nat) (s : State) : HbmSame s (writeFaultRecord code cls pack core stream s) := by
  unfold Machine.writeFaultRecord
  refine HbmSame.trans ?_ (HbmSame.alert _ _)
  exact ⟨rfl, rfl⟩

/-- A state that holds the stacks of a replaced one reads the replacement there, and every other stack as before. -/
theorem State.stack_of_setStack {s t : State} {n : Nat} {k : Stack} (same : t.hbmStacks = (s.setStack n k).hbmStacks) :
    t.stack n = k ∧ ∀ j, j ≠ n → t.stack j = s.stack j := by
  have reads (j : Nat) : t.stack j = (s.setStack n k).stack j := congrArg (tabGet Stack.reset · j) same
  exact ⟨(reads n).trans (s.setStack_self n k), fun j other => (reads j).trans (s.setStack_other n k other)⟩

end Memory

variable {n : StackId} {s : State}

/-- A recalibration of a Serving stack begins (R384). -/
theorem startRecal_serving {st : Nat} (serving : (s.stack st).state = .serving) :
    startRecal st s = s.setStack st { s.stack st with state := .recalibrating, calSince := s.clock } :=
  if_pos serving

/-- STACK_COMMAND 1 answers done and begins a Serving stack's recalibration (R384). -/
theorem exec_recalibrate (answers : Answering s) (serving : (s.stack n).state = .serving) : exec (.recalibrate n) s =
    .next { s.setStack n { s.stack n with state := .recalibrating, calSince := s.clock } with out := [0] } := by
  change Host.Outcome.next (s.command (recalibrate n)) = _
  rw [s.command_booted _ answers.1 answers.2, recalibrate, startRecal_serving serving]
  rfl

/-- A temperature report is kept, and one that has moved by 10 °C begins a recalibration (R384). -/
theorem exec_tempRecalibration (temp : BitVec 32) : exec (.tempRecalibration n temp) s = .next (
    let t := s.setStack n { s.stack n with temp := temp }
    if tempMoved temp (s.stack n).tempAtCal then startRecal n t else t) := by
  change Host.Outcome.next (if tempMoved temp ((s.modStack n _).stack n).tempAtCal then _ else _) = _
  rw [s.modStack_self]
  rfl

/-- A recalibration that ends returns the stack to service, is counted, and the held accesses are taken up (R384). -/
theorem exec_recalibrationDone (recalibrating : (s.stack n).state = .recalibrating) :
    let u := (s.setStack n { s.stack n with state := .serving, tempAtCal := (s.stack n).temp }).bump (0x2000 + n) 0x0A 1
    exec (.recalibrationDone n) s = .next (u.heldRing.foldl resumeAccess { u with heldRing := [], out := [] }) :=
  if_pos recalibrating

/-- Where no access is held, taking them up empties the output alone. -/
theorem State.resumeNone {u : State} (none : u.heldRing = []) :
    u.heldRing.foldl resumeAccess { u with heldRing := [], out := [] } = { u with out := [] } := by
  rw [none, List.foldl_nil, ← none]

/-- A recalibration that ends with no access held (R384). -/
theorem exec_recalibrationDone_idle {u : State} (recalibrating : (s.stack n).state = .recalibrating)
    (counts : (s.setStack n { s.stack n with state := .serving, tempAtCal := (s.stack n).temp }).bump (0x2000 + n) 0x0A 1 = u)
    (none : u.heldRing = []) : exec (.recalibrationDone n) s = .next { u with out := [] } := by
  subst counts
  exact (exec_recalibrationDone recalibrating).trans (congrArg _ (State.resumeNone none))

/-- STACK_COMMAND 2 is busy while something needs the stack (R385). -/
theorem exec_retrain_busy (answers : Answering s) (busy : s.retrainBusy n = true) : exec (.retrain n) s = .next { s with out := [6] } := by
  change Host.Outcome.next (s.command (retrain n)) = _
  rw [s.command_booted _ answers.1 answers.2, retrain, if_pos busy]
  rfl

/-- STACK_COMMAND 2 puts a free Serving stack into self-refresh (R385). -/
theorem exec_retrain_free (answers : Answering s) (free : s.retrainBusy n = false) (serving : (s.stack n).state = .serving) :
    exec (.retrain n) s = .next { s.setStack n { s.stack n with state := .retraining } with out := [0] } := by
  change Host.Outcome.next (s.command (retrain n)) = _
  rw [s.command_booted _ answers.1 answers.2, retrain, if_neg (Bool.eq_false_iff.mp free), if_pos serving]
  rfl

/-- A retrain that succeeds returns the stack to service and is counted (R385). -/
theorem exec_retrainDone_ok (retraining : (s.stack n).state = .retraining) : exec (.retrainDone n true) s =
    .next ((s.setStack n { s.stack n with state := .serving, tempAtCal := (s.stack n).temp }).bump (0x2000 + n) 0x0B 1) :=
  if_pos retraining

/-- A retrain that fails fails the stack (R386). -/
theorem exec_retrainDone_failed (retraining : (s.stack n).state = .retraining) : exec (.retrainDone n false) s = .next (failStack n s) :=
  if_pos retraining

section Failed
variable (st : Nat) (s : State)

/-- What a failure records and raises touches no memory (R469, R472). -/
theorem failStack_memory : HbmSame { s.modStack st (fun k => { k with state := .failed, poison := [] }) with
    hbm := s.hbm.filter (fun e => stackOf e.1 ≠ st) } (failStack st s) :=
  (HbmSame.writeFaultRecord 0xD9 5 0 0 0 _).trans (.alert _ 5)

/-- A stack that fails loses its contents, and no other stack's (R386). -/
theorem failStack_hbm (a : Nat) : tabGet 0 (failStack st s).hbm a = if stackOf a ≠ st then tabGet 0 s.hbm a else 0 := by
  rw [(failStack_memory st s).1, tabGet_filter 0 (fun a => decide (stackOf a ≠ st))]
  simp only [decide_eq_true_eq]

/-- A stack that fails is Failed, and no other stack changes (R386). -/
theorem failStack_stack : ((failStack st s).stack st).state = .failed ∧ ∀ j, j ≠ st → (failStack st s).stack j = s.stack j := by
  obtain ⟨failed, others⟩ := State.stack_of_setStack (s := s) (k := { s.stack st with state := .failed, poison := [] }) (failStack_memory st s).2
  exact ⟨congrArg Stack.state failed, others⟩

end Failed

/-- Settles O19: one clause for each command and each way it ends. -/
theorem stackCommandsAndTraining : Obligations.StackCommandsAndTraining := by
  intro n s k only
  refine ⟨fun answers serving => ⟨_, exec_recalibrate answers serving, rfl, State.stack_of_setStack rfl⟩, fun temp serving moved => ?moved,
    fun temp still => ?still, fun recalibrating => ⟨exec_recalibrationDone recalibrating, fun none below => ?recalibrated⟩,
    exec_retrain_busy, fun answers free serving => ⟨_, exec_retrain_free answers free serving, rfl, State.stack_of_setStack rfl⟩,
    fun retraining below => ?retrained, fun retraining => ?failed⟩
  case moved =>
    have serves : ((s.setStack n { k with temp := temp }).stack n).state = .serving := by rwa [s.setStack_self]
    obtain ⟨recal, others⟩ := State.stack_of_setStack (s := s.setStack n { k with temp := temp }) (n := n) rfl
    refine ⟨_, (exec_tempRecalibration temp).trans (congrArg _ ((if_pos moved).trans (startRecal_serving serves))), rfl, ?_, ?_⟩
    · exact recal.trans (by rw [s.setStack_self]; rfl)
    · exact fun j other => (others j other).trans (s.setStack_other n _ other)
  case still => exact ⟨_, (exec_tempRecalibration temp).trans (congrArg _ (if_neg (Bool.eq_false_iff.mp still))), rfl, State.stack_of_setStack rfl⟩
  case recalibrated =>
    obtain ⟨stats, counts, advanced, -⟩ := (s.setStack n { k with state := .serving, tempAtCal := k.temp }).bump_counts (0x2000 + n) 0x0A 1 below
    obtain ⟨serves, others⟩ := State.stack_of_setStack (s := s) (n := n) (k := { k with state := .serving, tempAtCal := k.temp }) rfl
    exact ⟨_, exec_recalibrationDone_idle recalibrating counts none, rfl, serves, advanced, others⟩
  case retrained =>
    obtain ⟨stats, counts, -⟩ := (s.setStack n { k with state := .serving, tempAtCal := k.temp }).bump_counts (0x2000 + n) 0x0B 1 below
    exact ⟨_, (exec_retrainDone_ok retraining).trans (congrArg _ counts), rfl, State.stack_of_setStack rfl⟩
  case failed =>
    obtain ⟨failed, others⟩ := failStack_stack n s
    exact ⟨_, exec_retrainDone_failed retraining, failed, fun a here => (failStack_hbm n s a).trans (if_neg (not_not.mpr here)),
      fun a other => (failStack_hbm n s a).trans (if_pos other), State.alert_sets _ (by decide), others⟩

end Sys2Proof.Machine
end

section
/-! SUPPORT. What counting leaves, and what a frame and a retry request that arrive do to a fabric port (R393-R395, R433). -/
namespace Sys2Proof.Machine

section Counting
variable (s : State) (idx sub n : Nat)

/-- Counting leaves the ports. -/
@[simp] theorem State.bump_port (f : Nat) : (s.bump idx sub n).port f = s.port f := by rw [CountsOnly.bump s idx sub n]; rfl

/-- Counting leaves the Howl. -/
@[simp] theorem State.bump_howl : (s.bump idx sub n).howl = s.howl := by rw [CountsOnly.bump s idx sub n]

/-- Counting leaves the job. -/
@[simp] theorem State.bump_job : (s.bump idx sub n).job = s.job := by rw [CountsOnly.bump s idx sub n]

end Counting

section Receive
variable {f : PortId} {fr : Frame} {s : State}

/-- The counters of codewords that FEC corrected and could not correct, as a frame arrives (R433). -/
def State.noteCodewords (f : PortId) (corr unc : Nat) (s : State) : State := (s.bump (0x2400 + f) 9 corr).bump (0x2400 + f) 0x0A unc

/-- An acknowledgement leaves the next SEQ to be accepted (R394). -/
@[simp] theorem Port.acked_rxNext (p : Port) (ack : Nat) : (p.acked ack).rxNext = p.rxNext := by
  unfold Port.acked; split <;> rfl

/-- A frame with a bad CRC is dropped, and a retry request is due at once (R394). -/
theorem Port.drop_badCrc (p : Port) : p.drop true = { p with waiting := true, retryPending := true } := by simp [Port.drop]

/-- A frame out of sequence is dropped, and a retry request is due unless one has been asked for (R394). -/
theorem Port.drop_outOfSequence (p : Port) : p.drop false = { p with waiting := true, retryPending := p.retryPending || !p.waiting } := by
  simp [Port.drop]

/-- KIND is a two-bit field: what is no flit and no idle frame is a retry request or has no meaning (R393). -/
theorem frKind_noData (t : BitVec 128) : (decide (frKind t = 2) || decide (frKind t = 3)) = decide (2 ≤ frKind t) := by
  have bound : frKind t < 4 := Nat.mod_lt _ (by decide)
  rw [← Bool.decide_or, decide_eq_decide]
  omega

/-- A port that has accepted a frame in sequence: no retry is due (R394). -/
def Port.inSequence (p : Port) : Port := { p with waiting := false, retryPending := false, retriesSince := 0 }

/-- What a live port does with a frame, by its CRC, its kind and its SEQ (R393-R395, R433). -/
theorem exec_frameReceive_live (live : (s.port f).live = true) (corr unc : Nat) (frac : Byte) :
    exec (.frameReceive f fr corr unc frac) s =
    let t := s.noteCodewords f corr unc
    let p := (s.port f).acked (frAck fr.trailer)
    let q := (p.credit fr.trailer).inSequence
    if !fr.crcOk then .next ((t.setPort f ((s.port f).drop true)).bump (0x2400 + f) 7 1)
    else if 2 ≤ frKind fr.trailer then .next t
    else if frSeq fr.trailer ≠ (s.port f).rxNext then .next (t.setPort f (p.drop false))
    else if frKind fr.trailer = 1 then .next (t.setPort f q)
    else .next (acceptFlit f fr (howl256 s + frac.setWidth 64)
      ((t.setPort f { q with rxNext := (q.rxNext + 1) % 4096 }).bump (0x2400 + f) 6 1)) := by
  change execFrameReceive f fr corr unc frac s = _
  unfold execFrameReceive
  simp only [live, Bool.not_true, Bool.false_eq_true, if_false, State.modPort_modPort, State.modPort_self, State.bump_port, Port.acked_rxNext,
    frKind_noData, decide_eq_true_eq, howl256, State.modPort_howl, State.bump_howl]
  simp only [State.modPort, State.bump_port]
  rfl

/-- A retry request that passes its CRC restarts the resending after the frame it names (R394). -/
theorem exec_retryRequest_live (live : (s.port f).live = true) (good : fr.crcOk = true) (retry : frKind fr.trailer = 2) :
    exec (.retryRequest f fr) s = .next (s.setPort f { (s.port f).acked (frAck fr.trailer) with resend := 0 }) :=
  if_neg (by simp [live, good, retry])

/-- A frame that is no retry request, or fails its CRC, changes nothing as one (R394). -/
theorem exec_retryRequest_other (other : fr.crcOk = false ∨ frKind fr.trailer ≠ 2) : exec (.retryRequest f fr) s = .next s :=
  if_pos (by rcases other with bad | other
             · simp [bad]
             · simp [other])

end Receive

/-- Settles O29: the first five clauses by the decision that `exec_frameReceive_live` states, one retry request in an episode (log entry 39). -/
theorem framesAreAcceptedInSequence : Obligations.FramesAreAcceptedInSequence := by
  intro f fr corr unc frac s live
  have received := exec_frameReceive_live (fr := fr) live corr unc frac
  refine ⟨fun bad => ?bad, fun good other => ?other, fun good data skipped => ?gap, fun good idle next => ?idle, fun good flit next => ?flit,
    exec_retryRequest_live live, exec_retryRequest_other⟩
  case bad =>
    rw [received, bad, Port.drop_badCrc]; rfl
  case other =>
    rw [received, good]
    exact if_pos other
  case gap =>
    rw [received, good]
    exact (if_neg (not_le.mpr data)).trans ((if_pos skipped).trans (congrArg _ (congrArg _ (Port.drop_outOfSequence _))))
  case idle =>
    rw [received, good, idle]
    exact if_neg (not_not.mpr next)
  case flit =>
    rw [received, good, flit]
    exact if_neg (not_not.mpr next)

end Sys2Proof.Machine
end

section
/-! SUPPORT. How a fabric port goes down, trains and comes up (R390, R394, R408, R433, R539). -/
namespace Sys2Proof.Machine

variable {f : PortId} {s : State}

/-- Outside the forming of a job nothing goes on with it (R408). -/
theorem jobAdvance_idle (idle : s.job.state ≠ .forming) : jobAdvance s = s := if_pos idle

/-- A port as it is while down: its link state is lost, and what is known of its far end stays (R394). -/
def Port.down (p : Port) : Port := { Port.reset with state := .down, neighbour := p.neighbour, delay := p.delay, excluded := p.excluded }

/-- A port that is up but in no job goes down and is counted, and nothing else happens (R394). -/
theorem exec_portDown_up (up : (s.port f).state = .up) (idle : s.job.state ≠ .forming) :
    exec (.portDown f) s = .next ((s.setPort f (s.port f).down).bump (0x2400 + f) 0x0D 1) := by
  have live : (s.port f).live = true := by simp [Port.live, up]
  have only : jobAdvance ((s.setPort f (s.port f).down).bump (0x2400 + f) 0x0D 1) = (s.setPort f (s.port f).down).bump (0x2400 + f) 0x0D 1 :=
    jobAdvance_idle (by rw [State.bump_job]; exact idle)
  have down : portDown f s = jobAdvance ((s.setPort f (s.port f).down).bump (0x2400 + f) 0x0D 1) := by
    unfold portDown
    simp only [up, reduceCtorEq, decide_false, Bool.false_and, Bool.false_eq_true, if_false]
    rfl
  exact congrArg _ ((if_pos live).trans (down.trans only))

section Enable
variable {on flash : Bool}

/-- A commit of a setting to flash is refused while HOLDUP_OK is low (R527, R584). -/
theorem State.commitFlash_refused (ok : Bool) (g : State → State) (low : s.env.holdupOk = false) : s.commitFlash ok g = (stState, s) :=
  if_pos (by simp [low])

/-- A commit of a setting that the flash does not complete (R527). -/
theorem State.commitFlash_failed (g : State → State) (high : s.env.holdupOk = true) : s.commitFlash false g = (stFlash, s) :=
  (if_neg (by simp [high])).trans (if_pos rfl)

/-- A commit of a setting is made and counted in FLASH_WRITES (R539). -/
theorem State.commitFlash_done (g : State → State) (high : s.env.holdupOk = true) :
    s.commitFlash true g = (stDone, { g s with power := { (g s).power with flashWrites := (g s).power.flashWrites + 1 } }) :=
  (if_neg (by simp [high])).trans (if_neg (by decide))

/-- A port that PORT_ENABLE has put into training or disabled (R433). -/
def Port.enabled (on rails : Bool) (p : Port) : Port :=
  { Port.reset with state := if on && rails then .training else .disabled, neighbour := p.neighbour, delay := p.delay }

/-- PORT_ENABLE as it is committed: the setting and the port's state (R433, R539). -/
def State.enablePort (f : PortId) (on : Bool) (s : State) : State :=
  (s.setSetting (0x2400 + f) 2 (bit01 on)).setPort f ((s.port f).enabled on s.power.rails)

/-- The setting of an enabled port reads back. -/
theorem State.enablePort_setting : (s.enablePort f on).setting (0x2400 + f) 2 1 = bit01 on := by
  simp [State.enablePort, State.setting, State.rawSetting, State.setSetting]

/-- Writing PORT_ENABLE is a commit to flash (R433, R539). -/
theorem exec_portEnable (answers : Answering s) :
    exec (if on then .portTrain f flash else .portDisable f flash) s =
      .next (State.answer (s.commitFlash flash (State.enablePort f on))) := by
  have committed := s.command_booted (portEnable f on flash) answers.1 answers.2
  cases on with
  | true => exact congrArg _ committed
  | false => exact congrArg _ committed

/-- PORT_ENABLE committed: the setting, the port and the count of commits are all that changes (R433, R539). -/
theorem exec_portEnable_done (answers : Answering s) (high : s.env.holdupOk = true) :
    exec (if on then .portTrain f true else .portDisable f true) s = .next { s with
      ports := (s.enablePort f on).ports, settings := (s.enablePort f on).settings
      power := { s.power with flashWrites := s.power.flashWrites + 1 }, out := [0] } := by
  rw [exec_portEnable answers, State.commitFlash_done _ high]; rfl

end Enable

/-- A training port comes up; one that a forming job uses then starts its HELLO exchange (R390, R408). -/
theorem exec_portUp_training (training : (s.port f).state = .training) :
    exec (.portUp f) s =
    let t := s.setPort f { s.port f with state := .up }
    .next (if s.job.state = .forming && s.jobPorts.contains f.val && !s.job.listsFixed then sendHello f t else t) :=
  if_neg (not_not.mpr training)

/-- Settles O30: one clause for each event, and one for each answer to PORT_ENABLE. -/
theorem portsGoDownTrainAndComeUp : Obligations.PortsGoDownTrainAndComeUp := by
  refine fun f s => ⟨fun up idle below => ?down, fun answers flash on =>
    ⟨fun low => ?refused, fun high fails => ?failed, fun high works => ?done⟩,
    fun training idle => ?up, fun training forming mine unfixed => ?hello⟩
  case down =>
    obtain ⟨stats, counts, counted, -⟩ := (s.setPort f (s.port f).down).bump_counts (0x2400 + f) 0x0D 1 below
    exact ⟨_, (exec_portDown_up up idle).trans (congrArg _ counts), rfl, s.setPort_self f (s.port f).down, counted,
      fun g other => s.setPort_other f (s.port f).down other⟩
  case refused => rw [exec_portEnable answers, State.commitFlash_refused _ _ low]; rfl
  case failed => rw [exec_portEnable answers, fails, State.commitFlash_failed _ high]; rfl
  case done =>
    subst works
    exact ⟨_, exec_portEnable_done answers high, State.setPort_self _ f ((s.port f).enabled on s.power.rails), State.enablePort_setting, rfl, rfl,
      rfl, rfl, fun g other => State.setPort_other _ f ((s.port f).enabled on s.power.rails) other⟩
  case up =>
    rw [exec_portUp_training training]
    exact congrArg _ (if_neg (by simp [idle]))
  case hello =>
    rw [exec_portUp_training training]
    exact congrArg _ (if_pos (by rw [forming, mine, unfixed]; rfl))

end Sys2Proof.Machine
end

section
/-! SUPPORT. What a live port sends in a frame time (R392-R396). -/
namespace Sys2Proof.Machine

section Send
variable {f : PortId} {s t : State} {p : Port}

/-- A frame time in which a live port sends its retry request, and goes down with the sixteenth in a row (R394). -/
def State.sendRetry (f : PortId) (t : State) : State :=
  ({ t with out := (mkFrame [] (t.port f).txSeq ((t.port f).rxNext + 4095) 2 0 false false 0 0).bytes }.setPort f
    { t.port f with retryPending := false, retriesSince := (t.port f).retriesSince + 1 }).bump (0x2400 + f) 8 1

/-- A frame time in which a live port sends an idle frame, with the credits it owes (R393, R395). -/
def State.sendIdle (f : PortId) (t : State) : State :=
  let o := (t.port f).nextOwed
  { t with out := (mkFrame [] (t.port f).txSeq ((t.port f).rxNext + 4095) 1 0 false false o.1 o.2).bytes }.setPort f
    { t.port f with owed := tabMod 0 (t.port f).owed o.1 (· - o.2) }

/-- A frame time in which a live port sends the next flit of a channel (R395, R396). -/
def State.sendFlitOf (f : PortId) (vc : Nat) (t : State) : State :=
  { (sendFlit f vc t).2 with out := (sendFlit f vc t).1.bytes }.advanceKey (statKey (0x2400 + f) 5) 1

section
variable (drained : drainRing s = t) (port : t.port f = p) (live : p.live = true)
include drained port live

/-- A retry request that is due goes before all else (R394, R396). -/
theorem exec_frameSend_retry (due : p.retryPending = true) :
    exec (.frameSend f) s = .next (if 16 ≤ p.retriesSince + 1 then portDown f (t.sendRetry f) else t.sendRetry f) := by
  subst drained port
  change execFrameSend f s = _
  simp only [execFrameSend, live, due, Bool.not_true, Bool.false_eq_true, if_false, if_true]
  rfl

/-- With no retry request due, a frame that is still to be resent goes (R394, R396). -/
theorem exec_frameSend_resend (settled : p.retryPending = false) {fr : Frame} (again : p.replay[p.resend]? = some fr) :
    exec (.frameSend f) s = .next ({ t with out := (fr.withAck (p.rxNext + 4095)).bytes }.setPort f { p with resend := p.resend + 1 }) := by
  subst drained port
  change execFrameSend f s = _
  simp only [execFrameSend, live, settled, again, Bool.not_true, Bool.false_eq_true, if_false]

/-- With nothing to resend, an idle frame goes where the replay buffer is full or no channel has a flit and a credit (R393-R396). -/
theorem exec_frameSend_idle (settled : p.retryPending = false) (fresh : p.replay[p.resend]? = none)
    (held : 256 ≤ p.replay.length ∨ p.nextVc = none) : exec (.frameSend f) s = .next (t.sendIdle f) := by
  subst drained port
  change execFrameSend f s = _
  simp only [execFrameSend, live, settled, fresh, Bool.not_true, Bool.false_eq_true, if_false, State.sendIdle]
  rcases held with full | quiet
  · rw [if_pos full]
  · simp only [quiet, ite_self]

/-- With nothing to resend and room in the replay buffer, the first channel in order with a flit and a credit sends it (R394-R396). -/
theorem exec_frameSend_flit (settled : p.retryPending = false) (fresh : p.replay[p.resend]? = none) (room : p.replay.length < 256) {vc : Nat}
    (next : p.nextVc = some vc) : exec (.frameSend f) s = .next (t.sendFlitOf f vc) := by
  subst drained port
  change execFrameSend f s = _
  simp only [execFrameSend, live, settled, fresh, next, if_neg (not_le.mpr room), Bool.not_true, Bool.false_eq_true, if_false, State.sendFlitOf]

end

end Send

/-- Settles O31: the lemmas above state the order of precedence, for the ring as `drainRing` leaves it (log entries 30 and 39). -/
theorem framesLeaveInOrderOfPrecedence : Obligations.FramesLeaveInOrderOfPrecedence := by
  intro f s
  dsimp only
  generalize drained : drainRing s = t
  generalize port : t.port f = p
  intro live
  refine ⟨fun due => ⟨fun few => ?few, fun many => ?many⟩, fun fr settled again => exec_frameSend_resend drained port live settled again,
    fun settled fresh held => ?idle, fun vc settled fresh room next => exec_frameSend_flit drained port live settled fresh room next⟩
  case few => rw [exec_frameSend_retry drained port live due, if_neg (not_le.mpr few), State.sendRetry, port]
  case many => rw [exec_frameSend_retry drained port live due, if_pos many, State.sendRetry, port]
  case idle => rw [exec_frameSend_idle drained port live settled fresh held, State.sendIdle, port]

end Sys2Proof.Machine
end

section
/-! SUPPORT. Re-placement: the end of its drain window, its shift, its reload, and REWIND (R417, R452, R456-R460). -/
namespace Sys2Proof.Machine

section CoresOnly
variable {s t u : State}

/-- Nothing differs but the cores. -/
def CoresOnly (s t : State) : Prop := t = { s with cores := t.cores }

theorem CoresOnly.refl (s : State) : CoresOnly s s := rfl

theorem CoresOnly.trans (h : CoresOnly s t) (h' : CoresOnly t u) : CoresOnly s u := by
  unfold CoresOnly at *
  rw [h', h]

theorem CoresOnly.modCore (s : State) (c : Nat) (f : Core → Core) : CoresOnly s (s.modCore c f) := rfl

/-- A program's packs are no matter of the cores. -/
theorem CoresOnly.progPacks (h : CoresOnly s t) (g : Nat) : t.progPacks g = s.progPacks g := by rw [h]; rfl

/-- A program's used cores are no matter of what those cores hold. -/
theorem CoresOnly.usedOf (h : CoresOnly s t) (g : Nat) : t.usedOf g = s.usedOf g := by rw [h]; rfl

end CoresOnly

variable {p : PackId} {s : State} {r : Replace}

section DrainEnd

/-- Every core of a program's packs loses the work of the step (R456). -/
def State.clearCores (g : Nat) (s : State) : State := ((s.progPacks g).flatMap packCores).foldl (fun s c => s.modCore c Core.clearStep) s

/-- Cores take their launch snapshots back (R454, R456). -/
def State.restoreCores (l : List Nat) (s : State) : State := l.foldl (fun s c => s.modCore c (fun k => k.restore (s.snapOf c))) s

/-- Packs lose their posts and go times, and their Retrievers what they hold of the step (R353, R456). -/
def State.clearPacks (step : Word) (packs : List Nat) (s : State) : State :=
  packs.foldl (fun s q => s.modPack q (fun k => { k with posted := false, goAt := none, retr := k.retr.clearStep (bitsOf step 0 16) })) s

theorem State.clearCores_only (g : Nat) (s : State) : CoresOnly s (s.clearCores g) :=
  State.foldl_related .refl .trans (fun s c => .modCore s c _) _ s

theorem State.restoreCores_only (l : List Nat) (s : State) : CoresOnly s (s.restoreCores l) :=
  State.foldl_related .refl .trans (fun s c => .modCore s c _) _ s

/-- Order 3 of a re-placement: the cores lose the step, those that keep their host take their snapshot back, and the packs lose it too (R456). -/
def State.orderThree (r : Replace) (s : State) : State :=
  (((s.clearCores r.prog).restoreCores ((s.usedOf r.prog).filter (fun c => !(s.shiftedOf r).contains c)))).clearPacks r.step (s.progPacks r.prog)

/-- The drain window over, order 3 is made; the shift follows where a core changes host, else the replay (R456). -/
theorem exec_replacementDrainEnd_due (placed : s.replAt p = some r) (kept : (s.prog r.prog).barked = false) (drain : r.phase = .drain)
    (due : howlGe s.howl (r.failAt + BitVec.ofNat 64 drainBeats) = true) : exec (.replacementDrainEnd p) s =
    .next (if (s.shiftedOf r).isEmpty then replaceReady r.prog (s.orderThree r) else setPhase r.prog .shift (s.orderThree r)) := by
  have used := (s.clearCores_only r.prog).usedOf r.prog
  have packs := ((s.clearCores_only r.prog).trans (State.restoreCores_only
    ((s.usedOf r.prog).filter (fun c => !(s.shiftedOf r).contains c)) _)).progPacks r.prog
  rw [State.orderThree, ← packs, ← used]
  change execReplacementDrainEnd p s = _
  simp only [execReplacementDrainEnd, placed, kept, drain, due]
  rfl

end DrainEnd

section Shift

/-- A shift whose copies were all read: each core that has moved is on its new host, and the reload follows (R452, R456, R457). -/
def State.shiftCores (r : Replace) (s : State) : State :=
  let rd := readMoved (s.shiftedOf r) s
  let u := rd.1.foldl (fun t e => t.setCore e.1 (rd.2.2.movedCore r e.2 e.1)) rd.2.2
  { u with vet := { u.vet with repl := u.vet.repl.map (fun x => if x.prog = r.prog then
    { r with old := rd.2.2.hostTab r.prog, phase := .reload, moved := (r.moved ++ s.shiftedOf r).eraseDups } else x) } }

variable (placed : s.replAt p = some r) (kept : (s.prog r.prog).barked = false) (shift : r.phase = .shift)
include placed kept shift

/-- A shift with a snapshot that could not be read stops the program (R460). -/
theorem exec_replacementShiftDone_lost : exec (.replacementShiftDone p false) s = .next (abandonReplace r p s) := by
  change execReplacementShiftDone p false s = _
  simp only [execReplacementShiftDone, placed, kept, shift]
  rfl

/-- A shift with every snapshot moves the cores, or stops the program where a ledger could not be read (R452, R456, R460). -/
theorem exec_replacementShiftDone_read : exec (.replacementShiftDone p true) s =
    if !(readMoved (s.shiftedOf r) s).2.1 then .next (abandonReplace r p (readMoved (s.shiftedOf r) s).2.2) else .next (s.shiftCores r) := by
  change execReplacementShiftDone p true s = _
  simp only [execReplacementShiftDone, placed, kept, shift]
  rfl

end Shift

/-- The reload, with the routers of the moved cores drained, installs those cores and lets every participant post (R250, R456). -/
theorem exec_replacementReloadDone_drained (placed : s.replAt p = some r) (kept : (s.prog r.prog).barked = false) (reload : r.phase = .reload)
    (drained : r.moved.all (fun c => (s.core c).routerEmpty) = true) : exec (.replacementReloadDone p) s = .next (
      let m := s.image (s.prog r.prog).imageAddr r.prog
      replaceReady r.prog ((m.cores.filter (fun x => r.moved.contains x.core)).foldl (fun s x =>
        (readWeights m.hdr.base x s).2.modCore x.core (reloadCore x (readWeights m.hdr.base x s).1)) s)) := by
  change execReplacementReloadDone p s = _
  simp only [execReplacementReloadDone, placed, kept, reload, drained]
  rfl

/-- A REWIND of the running job for the step that some of its programs are in is re-sent, and those programs begin order 1 (R417, R459). -/
theorem exec_rewind_inStep {f : PortId} {h : CtrlHead} {origin : Nat} {step t2 : Word} {t : State}
    (msg : takeCtrl f 9 s = some (h, .rewind origin step, t2, t)) (running : t.job.state = .running) (current : h.epoch = t.job.epoch)
    (foreign : origin ≠ t.device) {l : List Nat}
    (inStep : t.multiProgs.filter (fun g => t.stepOf g = step && (t.prog g).launched && (t.replOf g).isNone) = l) (nonempty : l ≠ []) :
    exec (.rewind f) s = .next (l.foldl (fun u g => replaceHold g 0 step (u.hostTab g) u) (floodCtrl (some f.val) (.rewind origin step)
      { t with job := { t.job with flooded := tabSet false t.job.flooded (rewindKey origin step) true } })) := by
  have goesOn : ¬ (decide (t.job.state ≠ .running) || decide (h.epoch ≠ t.job.epoch) || decide (origin = t.device)) = true := by
    simp [running, current, foreign]
  have begun : l.isEmpty = false := by simpa using nonempty
  change execRewind f s = _
  unfold execRewind
  simp only [msg, inStep, begun, if_neg goesOn]
  rfl

/-- Settles O38: one clause for each event and each way it ends. -/
theorem replacementDrainsShiftsAndReloads : Obligations.ReplacementDrainsShiftsAndReloads := by
  refine fun p s r placed => ⟨fun kept => ⟨fun drain due => ⟨fun stay => ?stay, fun move => ?move⟩,
    fun shift => ⟨exec_replacementShiftDone_lost placed kept shift, fun lost => ?lost, fun read => ?read⟩,
    fun reload drained => exec_replacementReloadDone_drained placed kept reload drained⟩,
    fun f h origin step t2 t msg running current foreign g gs inStep =>
      exec_rewind_inStep msg running current foreign inStep (List.cons_ne_nil g gs)⟩
  case stay =>
    rw [exec_replacementDrainEnd_due placed kept drain due, if_pos (List.isEmpty_iff.mpr stay)]; rfl
  case move =>
    rw [exec_replacementDrainEnd_due placed kept drain due, if_neg (List.isEmpty_iff.not.mpr move)]; rfl
  case lost =>
    rw [exec_replacementShiftDone_read placed kept shift, lost]; rfl
  case read =>
    rw [exec_replacementShiftDone_read placed kept shift, read]; rfl

end Sys2Proof.Machine
end

section
/-! SUPPORT. What an access through a ring port can change at all (R339, R365-R389). -/
namespace Sys2Proof.Machine

/-- Nothing differs but cores, packs, contexts, memory and its stacks, counters and free values, and what an alert sends. -/
def AccessOnly (s t : State) : Prop := t = { s with
  nonce := t.nonce, cores := t.cores, packs := t.packs, ctxs := t.ctxs, hbm := t.hbm, hbmStacks := t.hbmStacks, faults := t.faults
  stats := t.stats, progress := t.progress, statsSat := t.statsSat, statsFirst := t.statsFirst, host := t.host, mgmt := t.mgmt }

variable {s₀ s t : State}

theorem AccessOnly.refl (s : State) : AccessOnly s s := rfl

/-- An update of the fields that an access may change. -/
theorem AccessOnly.update {nonce cores packs ctxs hbm hbmStacks faults stats progress statsSat statsFirst host mgmt} (h : AccessOnly s₀ s) :
    AccessOnly s₀ { s with
      nonce := nonce, cores := cores, packs := packs, ctxs := ctxs, hbm := hbm, hbmStacks := hbmStacks, faults := faults
      stats := stats, progress := progress, statsSat := statsSat, statsFirst := statsFirst, host := host, mgmt := mgmt } := by
  unfold AccessOnly at *
  rw [h]

/-- Counting, and what it announces. -/
theorem AccessOnly.counts (c : CountsOnly s t) (h : AccessOnly s₀ s) : AccessOnly s₀ t := by rw [c]; exact .update h

/-- An alert changes its bit, and what announces it (R472). -/
theorem CountsOnly.alert (s : State) (bit : Nat) : CountsOnly s (s.alert bit) := by
  unfold State.alert; split
  · rfl
  · refine CountsOnly.trans ?_ ((CountsOnly.notify _ _ _).trans (.raiseMsix _ _ _))
    rfl

theorem AccessOnly.ite {c : Prop} [Decidable c] (h : AccessOnly s₀ s) (k : AccessOnly s₀ t) : AccessOnly s₀ (if c then s else t) := by
  split
  · exact h
  · exact k

theorem AccessOnly.foldl {α : Type} {l : List α} {f : State → α → State} (h : AccessOnly s₀ s)
    (k : ∀ {u a}, AccessOnly s₀ u → AccessOnly s₀ (f u a)) : AccessOnly s₀ (l.foldl f s) := by
  induction l generalizing s with
  | nil => exact h
  | cons a l ih => exact ih (k h)

/-- The state of a pair that is known. -/
theorem AccessOnly.snd {α : Type} {x : α × State} {a : α} (e : x = (a, t)) (h : AccessOnly s₀ x.2) : AccessOnly s₀ t := by
  rw [e] at h; exact h

theorem AccessOnly.pair {α : Type} {a : α} (h : AccessOnly s₀ s) : AccessOnly s₀ (a, s).2 := h

section Access
variable {st bank a n source c p key idx sub bit : Nat} {d : List Byte} {q : Pkt} {r : StackReq} {step : Word}
  {put : Nat → List Byte → State → State} {f : Core → Core} {k : Core} {g : Stack → Stack} {m : Stack} {v : Ctx → Ctx}
  (h : AccessOnly s₀ s)
include h

theorem AccessOnly.bump : AccessOnly s₀ (s.bump idx sub n) := .counts (.bump s idx sub n) h

theorem AccessOnly.alert : AccessOnly s₀ (s.alert bit) := .counts (.alert s bit) h

theorem AccessOnly.setCore : AccessOnly s₀ (s.setCore c k) := by unfold State.setCore; exact .update h

theorem AccessOnly.modCore : AccessOnly s₀ (s.modCore c f) := .setCore h

theorem AccessOnly.setStack : AccessOnly s₀ (s.setStack st m) := by unfold State.setStack; exact .update h

theorem AccessOnly.modStack : AccessOnly s₀ (s.modStack st g) := .setStack h

theorem AccessOnly.modCtx : AccessOnly s₀ (s.modCtx n v) := by unfold State.modCtx State.setCtx; exact .update h

theorem AccessOnly.fresh : AccessOnly s₀ s.fresh.2 := by unfold State.fresh; exact .update h

theorem AccessOnly.advancePack : AccessOnly s₀ (s.advancePack p) := by
  unfold State.advancePack State.advanceKey State.modPack State.setPack; exact .update (.update h)

theorem AccessOnly.hbmWrite : AccessOnly s₀ (s.hbmWrite a d) := by unfold State.hbmWrite; exact .update h

theorem AccessOnly.issueRfm : AccessOnly s₀ (issueRfm st bank s) := by unfold Machine.issueRfm; exact .modStack (.bump h)

theorem AccessOnly.activate : AccessOnly s₀ (activate st bank s) := by
  unfold Machine.activate; exact .modStack (.ite (.issueRfm h) h)

theorem AccessOnly.countAccess : AccessOnly s₀ (countAccess st a n s) := by
  unfold Machine.countAccess; exact .foldl h fun k => .activate (.bump k)

theorem AccessOnly.correctLines : AccessOnly s₀ (correctLines st a n s) := by
  unfold Machine.correctLines; exact .foldl h fun k => .ite (.modStack (.bump k)) k

theorem AccessOnly.poisonReply : AccessOnly s₀ (poisonReply st source n s) := by
  unfold Machine.poisonReply; exact .modStack (.bump h)

theorem AccessOnly.stackRead : AccessOnly s₀ (stackRead source a n s).2 := by
  dsimp only [Machine.stackRead]
  split
  · exact .poisonReply (.countAccess h)
  · exact .bump (.correctLines (.countAccess h))

theorem AccessOnly.stackPut : AccessOnly s₀ (stackPut source a d s).2 := by
  dsimp only [Machine.stackPut]
  split
  · exact .poisonReply (.countAccess h)
  · exact .bump (.hbmWrite (.foldl (.countAccess h) fun k => .ite (.correctLines k) k))

theorem AccessOnly.stackWrite : AccessOnly s₀ (stackWrite source a d s).2 := by
  unfold Machine.stackWrite
  split
  · exact .countAccess h
  · exact .stackPut h

theorem AccessOnly.sendReply : AccessOnly s₀ (sendReply st source q s) := by unfold Machine.sendReply; exact .modCore h

theorem AccessOnly.noteAccepted : AccessOnly s₀ (noteAccepted q s) := by
  dsimp only [Machine.noteAccepted]
  split
  · exact h
  split
  · exact h
  · exact .setCore h

theorem AccessOnly.takeReq : AccessOnly s₀ (takeReq st r s) := by
  unfold Machine.takeReq; exact .ite (.noteAccepted (.setStack h)) (.sendReply (.setStack h))

theorem AccessOnly.countToken (keeps : ∀ {x y t}, AccessOnly s₀ t → AccessOnly s₀ (put x y t)) : AccessOnly s₀ (countToken put n s) := by
  unfold Machine.countToken; exact .ite (keeps h) (.alert (.update (.fresh (keeps h))))

theorem AccessOnly.cplAccepted (keeps : ∀ {x y t}, AccessOnly s₀ t → AccessOnly s₀ (put x y t)) :
    AccessOnly s₀ (cplAccepted put n step s) := by
  unfold Machine.cplAccepted; exact .advancePack (.modCtx (keeps (.countToken h keeps)))

theorem AccessOnly.storedEntries : AccessOnly s₀ (storedEntries a n s) := by
  unfold Machine.storedEntries; exact .foldl h fun k => .ite (.cplAccepted k .stackWrite) k

theorem AccessOnly.serveReq : AccessOnly s₀ (serveReq st r s) := by
  dsimp only [Machine.serveReq]
  split
  · exact .sendReply h
  split
  · split
    next e => exact .sendReply (.ite (.storedEntries (.snd e (.stackWrite h))) (.snd e (.stackWrite h)))
    next e => exact .sendReply (.snd e (.stackWrite h))
  split
  next e => exact .sendReply (.snd e (.stackRead h))
  next e => exact .sendReply (.snd e (.stackRead h))

theorem AccessOnly.ringTurn : AccessOnly s₀ (ringTurn st s) := by
  unfold Machine.ringTurn
  refine .modStack (.foldl h fun k => .ite k ?_)
  split
  · exact .takeReq k
  · exact k

theorem AccessOnly.serveBefore : AccessOnly s₀ (serveBefore st a n s) := by
  unfold Machine.serveBefore foldN
  refine .foldl h fun k => ?_
  split
  · exact k
  · exact .serveReq (.modStack k)

theorem AccessOnly.ringWrite : AccessOnly s₀ (ringWrite a d s).2 := by
  dsimp only [Machine.ringWrite]
  split
  · split
    · exact .pair (.serveBefore (.ringTurn h))
    split
    next e => exact .snd e (.stackWrite (.serveBefore (.ringTurn h)))
    next e => exact .snd e (.stackWrite (.serveBefore (.ringTurn h)))
  all_goals exact h

/-- A write of the module's own through a ring port changes nothing but what an access may. -/
theorem AccessOnly.portWrite : AccessOnly s₀ (portWrite a d s) := by
  have written := AccessOnly.ringWrite (a := a) (d := d) h
  dsimp only [Machine.portWrite]
  split
  next e => exact .stackWrite (.snd e written)
  all_goals next e => exact .snd e written

end Access

end Sys2Proof.Machine
end

section
/-! SUPPORT. Gates and Barks of a job: READY, GO and BARK, the Bark command and line, and what the first Bark of an epoch leaves in the
job's record (R406, R414, R415, R424-R428). -/
namespace Sys2Proof.Machine

section JobStays

/-- The job is the same, and a launch generator that was off stays off. -/
structure JobStays (s t : State) : Prop where
  job : t.job = s.job
  off : s.gen.running = false → t.gen.running = false

variable {s₀ s t : State}

theorem JobStays.refl (s : State) : JobStays s s := ⟨rfl, id⟩

/-- A change of neither the job nor the generator. -/
theorem JobStays.of (h : JobStays s₀ s) (job : t.job = s.job) (gen : t.gen = s.gen) : JobStays s₀ t :=
  ⟨job.trans h.job, fun off => gen ▸ h.off off⟩

theorem JobStays.access (c : AccessOnly s t) (h : JobStays s₀ s) : JobStays s₀ t := by rw [c]; exact .of h rfl rfl

theorem JobStays.ite {c : Prop} [Decidable c] (h : JobStays s₀ s) (k : JobStays s₀ t) : JobStays s₀ (if c then s else t) := by
  split
  · exact h
  · exact k

theorem JobStays.foldl {α : Type} {l : List α} {f : State → α → State} (h : JobStays s₀ s)
    (k : ∀ {u a}, JobStays s₀ u → JobStays s₀ (f u a)) : JobStays s₀ (l.foldl f s) := by
  induction l generalizing s with
  | nil => exact h
  | cons a l ih => exact ih (k h)

/-- As `JobStays.ite`, where both branches go on from one state. -/
theorem JobStays.iteOn {c : Prop} [Decidable c] {u : State} (k : JobStays s₀ s → JobStays s₀ t) (m : JobStays s₀ s → JobStays s₀ u)
    (h : JobStays s₀ s) : JobStays s₀ (if c then t else u) := .ite (k h) (m h)

section
variable {p g n code cause : Nat} {except : Option Nat} {body : CtrlBody} {x : Pack → Pack} {y : Core → Core} {l : Load} (h : JobStays s₀ s)
include h

theorem JobStays.setLoad : JobStays s₀ { s with load := l } := .of h rfl rfl

theorem JobStays.stopGen : JobStays s₀ { s with gen := { s.gen with running := false } } := ⟨h.job, fun _ => rfl⟩

theorem JobStays.modPack : JobStays s₀ (s.modPack p x) := .of h rfl rfl

theorem JobStays.modCore : JobStays s₀ (s.modCore n y) := .of h rfl rfl

theorem JobStays.floodCtrl : JobStays s₀ (floodCtrl except body s) := by
  unfold Machine.floodCtrl
  exact .foldl h fun k => .ite (.of k rfl rfl) k

theorem JobStays.stopPack : JobStays s₀ (stopPack p s) := by
  unfold Machine.stopPack
  exact .modPack (.foldl h fun k => .ite k (.modCore k))

theorem JobStays.setCtxState : JobStays s₀ (setCtxState n code s) := by
  unfold Machine.setCtxState
  exact .access (.portWrite (.refl s)) h

/-- A teardown leaves the job, and starts no generator (R478). -/
theorem JobStays.startTeardown : JobStays s₀ (startTeardown g cause s) := by
  unfold Machine.startTeardown
  exact .ite h
    (.iteOn .setLoad id
      (.iteOn .stopGen id
        (.foldl (.foldl (.of h rfl rfl) fun k => .modPack (.foldl (.stopPack k) fun m => .ite (.modCore m) (.modCore m))) .setCtxState)))

end

end JobStays

section FirstBark
variable {origin via reason : Nat} {barkHowl : Time} {s : State}

/-- Order 1 of a first Bark, with its count and its flood (R417, R424). -/
def State.takeBark (origin via reason : Nat) (barkHowl : Time) (s : State) : State :=
  floodCtrl (if via < 18 then some via else none) (.bark origin reason barkHowl)
    (({ s with job := { s.job with barkActed := true, lastBark := lastBarkWord origin via reason, lastBarkTime := s.howl } } : State).bump 0x501A 2 1)

/-- BARK_N driven for 2^10 beats, where the module uses it (R424). -/
def State.driveBarkLine (s : State) : State :=
  if s.barkLineEnabled then { s with job := { s.job with barkLineUntil := some (s.howl + 1024) } } else s

/-- The formed job's packs stopped (R424). -/
def State.stopJobPacks (s : State) : State := (s.jobProgs true).foldl (fun s g => (s.progPacks g).foldl (fun s p => stopPack p s) s) s

/-- The launch generator and a mirror pass stopped (R424). -/
def State.stopSources (s : State) : State :=
  { s with gen := { s.gen with running := false }, mirror := { s.mirror with state := if s.mirror.state = 1 then 3 else s.mirror.state } }

/-- The job Barked, with its epoch's packets to be purged (R424, R427). -/
def State.markBarked (s : State) : State := { s with job := { s.job with
  state := if s.job.state = .running then .barked else s.job.state, purgeFrom := some s.howl, purgeEpoch := s.job.epoch } }

/-- The first Bark of an epoch, order by order (R424). -/
theorem jobBark_first (first : s.job.barkActed = false) : jobBark origin via reason barkHowl s =
    let t := ((s.takeBark origin via reason barkHowl).driveBarkLine.stopJobPacks.stopSources.markBarked).alert 4
    (t.jobProgs true).foldl (fun s g => startTeardown g reason s) t := by
  unfold jobBark
  rw [if_neg (by simp [first])]
  extract_lets _ acted counted flooded _ driven stopped _ _ halted _ marked alerted t
  have taken : flooded = s.takeBark origin via reason barkHowl := rfl
  have line : driven = flooded.driveBarkLine := rfl
  have packs : stopped = driven.stopJobPacks := rfl
  have sources : halted = stopped.stopSources := rfl
  have record : marked = halted.markBarked := rfl
  have same : alerted = t := congrArg (State.alert · 4) (by rw [record, sources, packs, line, taken])
  rw [same]

theorem State.takeBark_job : (s.takeBark origin via reason barkHowl).job =
    { s.job with barkActed := true, lastBark := lastBarkWord origin via reason, lastBarkTime := s.howl } :=
  (JobStays.floodCtrl (.access (.bump (.refl _)) (.refl _))).job

theorem State.driveBarkLine_job : s.driveBarkLine.job = { s.job with barkLineUntil := s.driveBarkLine.job.barkLineUntil } := by
  unfold State.driveBarkLine; split <;> rfl

theorem State.stopJobPacks_job : s.stopJobPacks.job = s.job :=
  (JobStays.foldl (.refl s) fun k => .foldl k .stopPack).job

/-- What the first Bark of an epoch leaves in the job's record, and of the launch generator (R424, R427, R434). -/
theorem jobBark_record (first : s.job.barkActed = false) : ∃ line purge, (jobBark origin via reason barkHowl s).job = { s.job with
      barkActed := true, lastBark := lastBarkWord origin via reason, lastBarkTime := s.howl, barkLineUntil := line
      state := if s.job.state = .running then .barked else s.job.state, purgeFrom := purge, purgeEpoch := s.job.epoch } ∧
    (jobBark origin via reason barkHowl s).gen.running = false := by
  rw [jobBark_first first]
  dsimp only
  generalize marked : (s.takeBark origin via reason barkHowl).driveBarkLine.stopJobPacks.stopSources = t
  have job : t.job = { s.job with
      barkActed := true, lastBark := lastBarkWord origin via reason, lastBarkTime := s.howl
      barkLineUntil := (s.takeBark origin via reason barkHowl).driveBarkLine.job.barkLineUntil } := by
    rw [← marked, State.stopSources, State.stopJobPacks_job, State.driveBarkLine_job, State.takeBark_job]
  have off : t.gen.running = false := marked ▸ rfl
  have stays : JobStays t.markBarked (((t.markBarked.alert 4).jobProgs true).foldl (fun s g => startTeardown g reason s) (t.markBarked.alert 4)) :=
    .foldl (.access (.alert (.refl _)) (.refl _)) .startTeardown
  refine ⟨(s.takeBark origin via reason barkHowl).driveBarkLine.job.barkLineUntil, some t.howl, ?_, stays.off off⟩
  rw [stays.job, State.markBarked, job]

end FirstBark

section Messages
variable {f : PortId} {h : CtrlHead} {step t2 : Word} {s t : State}

/-- A READY of a child in the running job is taken if it is for the device's next step, and Barks the job if not (R414, R415). -/
theorem exec_ready_running (msg : takeCtrl f 5 s = some (h, .ready step, t2, t)) (running : t.job.state = .running) (current : h.epoch = t.job.epoch)
    (child : (childrenOf t.job.extent.toNat t.device).contains h.src = true) : exec (.ready f) s =
    if step ≠ t.jobNextStep then .next (jobFault 0xB6 0xFF t)
    else .next (deviceReady { t with job := { t.job with readys := tabSet false t.job.readys h.src true } }) := by
  have goesOn : ¬ (decide (t.job.state ≠ .running) || decide (h.epoch ≠ t.job.epoch) ||
      !(childrenOf t.job.extent.toNat t.device).contains h.src) = true := by
    rw [child]; simp [running, current]
  change execReady f s = _
  unfold execReady
  simp only [msg]
  exact if_neg goesOn

/-- A GO of the parent in the running job is taken if it is for the device's next step, and Barks the job if not (R414, R415). -/
theorem exec_go_running {v : Word} (msg : takeCtrl f 6 s = some (h, .go step v, t2, t)) (running : t.job.state = .running)
    (current : h.epoch = t.job.epoch) (parent : h.src = t.job.parent.toNat) : exec (.go f) s =
    if step ≠ t.jobNextStep then .next (jobFault 0xB6 0xFF t) else .next (deviceGo step v t) := by
  have goesOn : ¬ (decide (t.job.state ≠ .running) || decide (h.epoch ≠ t.job.epoch) || decide (h.src ≠ t.job.parent.toNat)) = true := by
    simp [running, current, parent]
  change execGo f s = _
  unfold execGo
  simp only [msg]
  exact if_neg goesOn

/-- A BARK of the epoch in a formed job that is not self-muzzled is acted on or is a duplicate (R417, R424). -/
theorem exec_bark_inJob {origin reason : Nat} {v : Word} (msg : takeCtrl f 3 s = some (h, .bark origin reason v, t2, t)) (formed : t.inJob = true)
    (heard : t.job.state ≠ .selfMuzzled) (current : h.epoch = t.job.epoch) : exec (.bark f) s = .next (jobBark origin f.val reason v t) := by
  have goesOn : ¬ (!t.inJob || decide (t.job.state = .selfMuzzled) || decide (h.epoch ≠ t.job.epoch)) = true := by simp [formed, heard, current]
  change execBark f s = _
  unfold execBark
  simp only [msg]
  exact if_neg goesOn

/-- A later Bark of the epoch is a duplicate (R424). -/
theorem jobBark_later {origin via reason : Nat} {v : Time} (later : t.job.barkActed = true) : jobBark origin via reason v t = barkDuplicate t :=
  if_pos later

end Messages

section CommandAndLine
variable {s : State}

/-- BARK_COMMAND written 1 is answered done and Barks; written 0 it is answered done alone (R433). -/
theorem exec_barkCommand (answers : Answering s) (value : Bool) :
    exec (.barkCommand value) s = .next (State.answer (if value then barkCommand s else (stDone, s))) :=
  congrArg Host.Outcome.next (s.command_booted (fun s => if value then barkCommand s else (stDone, s)) answers.1 answers.2)

/-- In a formed job the command Barks that job (R428, R433). -/
theorem barkCommand_inJob (formed : s.inJob = true) : barkCommand s = (stDone, jobFault 0xB4 0xFF s) := if_pos formed

/-- Outside a formed job the command Barks the local job; with no program of it loaded no Bark is the first (R406, R433). -/
theorem barkCommand_alone (alone : s.inJob = false) (unloaded : s.jobProgs false = []) :
    barkCommand s = (stDone, localBark 0xB4 (writeFaultRecord 0xB4 4 0 0 0 s)) := by
  simp [barkCommand, alone, State.barkIsFirst, unloaded]

/-- BARK_N is released once the 2^10 beats since it was driven are over (R424). -/
theorem exec_barkLineRelease_driven {t : Time} (driven : s.job.barkLineUntil = some t) : exec .barkLineRelease s =
    .next (if howlGe s.howl t then { s with job := { s.job with barkLineUntil := none } } else s) := by
  change execBarkLineRelease s = _
  simp only [execBarkLineRelease, driven]

/-- BARK_N sensed low Barks a running job that watches it and does not drive it (R426). -/
theorem exec_barkLineSense : exec .barkLineSense s =
    if s.job.state = .running && s.barkLineEnabled && s.job.barkLineUntil.isNone then .next (jobFault 0xB5 0xFE s) else .next s := rfl

end CommandAndLine

/-- A formed job that is not self-muzzled is Barked after a Bark, whether it was running or Barked before (R424). -/
theorem barked_of_inJob {s : State} (formed : s.inJob = true) (heard : s.job.state ≠ .selfMuzzled) :
    (if s.job.state = .running then JobState.barked else s.job.state) = .barked := by
  split
  · rfl
  next other => simpa [State.inJob, heard, other] using formed

/-- Settles O35: the messages, the command and the line by the lemmas above, and what a first Bark leaves by `jobBark_record`. -/
theorem gatesAndBarksOfAJob : Obligations.GatesAndBarksOfAJob := by
  refine fun s => ⟨fun f h step t2 t msg running current child => ⟨fun next => ?ready, fun other => ?notReady⟩,
    fun f h step v t2 t msg running current parent => ⟨fun next => ?go, fun other => ?notGo⟩,
    fun f h origin reason v t2 t msg formed heard current => ⟨fun later => ?later, fun first => ?first⟩,
    fun answers => ⟨exec_barkCommand answers false, fun formed => ?formed, fun alone unloaded => ?alone⟩,
    fun t driven => ⟨fun due => ?due, fun early => ?early⟩, fun running watched free => ?sensed, fun unwatched => ?unwatched⟩
  case ready => exact (exec_ready_running msg running current child).trans (if_neg (not_not.mpr next))
  case notReady => exact (exec_ready_running msg running current child).trans (if_pos other)
  case go => exact (exec_go_running msg running current parent).trans (if_neg (not_not.mpr next))
  case notGo => exact (exec_go_running msg running current parent).trans (if_pos other)
  case later => rw [exec_bark_inJob msg formed heard current, jobBark_later later]
  case first =>
    obtain ⟨line, purge, record, off⟩ := jobBark_record (origin := origin) (via := f.val) (reason := reason) (barkHowl := v) first
    refine ⟨_, exec_bark_inJob msg formed heard current, ?_, ?_, ?_, ?_, ?_, off⟩
    · rw [record]
    · rw [record]
    · rw [record]
    · rw [record]; exact barked_of_inJob formed heard
    · rw [record]
  case formed => rw [exec_barkCommand answers, if_pos rfl, barkCommand_inJob formed]; rfl
  case alone => rw [exec_barkCommand answers, if_pos rfl, barkCommand_alone alone unloaded]; rfl
  case due => exact (exec_barkLineRelease_driven driven).trans (congrArg _ (if_pos due))
  case early => exact (exec_barkLineRelease_driven driven).trans (congrArg _ (if_neg (by simp [early])))
  case sensed => exact exec_barkLineSense.trans (if_pos (by simp [running, watched, free]))
  case unwatched => exact exec_barkLineSense.trans (if_neg (by simp [unwatched]))

end Sys2Proof.Machine
end

section
/-! SUPPORT. The vet slices of a pack: how one starts, ends and is abandoned (R436, R439-R445, R448, R465). -/
namespace Sys2Proof.Machine

/-- A pack's changed vet record reads as its change. -/
@[simp] theorem State.modVet_self (s : State) (p : Nat) (f : VetPack → VetPack) : (s.modVet p f).vetPack p = f (s.vetPack p) :=
  tabGet_tabMod_self _ _ _ _

/-- A change of a pack's vet record leaves every other. -/
theorem State.modVet_other (s : State) {p q : Nat} (f : VetPack → VetPack) (other : q ≠ p) : (s.modVet p f).vetPack q = s.vetPack q :=
  tabGet_tabMod_other _ _ _ other

/-- A pack's vet record is no matter of the physical cores' records. -/
@[simp] theorem State.modVet_phys (s : State) (p n : Nat) (f : VetPack → VetPack) : (s.modVet p f).phys n = s.phys n := rfl

/-- A physical core's changed record reads as its change. -/
@[simp] theorem State.modPhys_self (s : State) (n : Nat) (f : PhysCore → PhysCore) : (s.modPhys n f).phys n = f (s.phys n) :=
  tabGet_tabMod_self _ _ _ _

/-- A change of a physical core's record leaves every other. -/
theorem State.modPhys_other (s : State) {n m : Nat} (f : PhysCore → PhysCore) (other : m ≠ n) : (s.modPhys n f).phys m = s.phys m :=
  tabGet_tabMod_other _ _ _ other

/-- Counting leaves the vet state (R493). -/
@[simp] theorem State.bump_vet (s : State) (idx sub n : Nat) : (s.bump idx sub n).vet = s.vet := by rw [CountsOnly.bump s idx sub n]

@[simp] theorem State.bump_vetPack (s : State) (idx sub n p : Nat) : (s.bump idx sub n).vetPack p = s.vetPack p :=
  congrArg (fun v : Vet => tabGet VetPack.reset v.packs p) (s.bump_vet idx sub n)

section Start

/-- The logical core that a slice of a unit takes; a Retriever's slice takes none (R441). -/
def State.unitCore (s : State) (p u : Nat) : Option Nat := if u < 68 then s.unitRouter p u else none

/-- The pack's record of a unit's slice that starts: it is in progress, and the turn moves past the unit (R441). -/
def State.openSlice (p u : Nat) (s : State) : State :=
  s.modVet p (fun v => { v with active := some { unit := u, slice := s.sliceOf p u, startedAt := s.clock }, turn := (u + 1) % 69 })

/-- A core enters its slice, and its save area is written where the pack has a program (R436, R445). -/
def vetCore (p c : Nat) (s : State) : State :=
  let t := s.modCore c (fun k => { k with vetting := true })
  if (s.progOf p).isSome then t.modCore c Core.saveState else t

/-- A unit's slice has started: the pack's record says so, and the unit's core is in it (R436, R441). -/
def State.startSlice (p u : Nat) (s : State) : State :=
  match s.unitCore p u with
  | some c => vetCore p c (s.openSlice p u)
  | none => s.openSlice p u

variable {p : Nat} {s : State} {u c : Nat}

theorem State.unitCore_eq_some : s.unitCore p u = some c ↔ u < 68 ∧ s.unitRouter p u = some c := by
  simp [State.unitCore]

/-- Entering a slice changes the core alone. -/
theorem vetCore_only : CoresOnly s (vetCore p c s) := by unfold vetCore; split <;> rfl

/-- The core is in its slice, its save area written where the pack has a program (R436, R445). -/
theorem vetCore_self : (vetCore p c s).core c =
    if (s.progOf p).isSome then ({ s.core c with vetting := true } : Core).saveState else { s.core c with vetting := true } := by
  unfold vetCore; split <;> simp

theorem vetCore_other {d : Nat} (other : d ≠ c) : (vetCore p c s).core d = s.core d := by
  unfold vetCore; split <;> simp [State.modCore_other, other]

/-- A slice that starts changes the pack's record and the cores alone. -/
theorem State.startSlice_only : CoresOnly (s.openSlice p u) (s.startSlice p u) := by
  unfold State.startSlice
  split
  · exact vetCore_only
  · exact .refl _

/-- The core that the slice takes is in it (R436). -/
theorem State.startSlice_taken (taken : s.unitCore p u = some c) : (s.startSlice p u).core c =
    if (s.progOf p).isSome then ({ s.core c with vetting := true } : Core).saveState else { s.core c with vetting := true } := by
  simp only [State.startSlice, taken]
  exact vetCore_self

/-- Every other core is left. -/
theorem State.startSlice_left (left : s.unitCore p u ≠ some c) : (s.startSlice p u).core c = s.core c := by
  unfold State.startSlice
  split
  next taken => exact vetCore_other fun same => left (same ▸ taken)
  next => rfl

/-- The first unit in turn that is ready starts its slice, or is passed over where its clock or supply is outside the limits (R441, R443). -/
theorem exec_vetSliceStart_ready {p : PackId} (runs : s.vetRuns p = true)
    (first : ((List.range 69).map (fun i => ((s.vetPack p).turn + i) % 69)).find? (s.unitReady p) = some u) (condOk : Bool) :
    exec (.vetSliceStart p condOk) s =
      .next (if condOk then s.startSlice p u else s.modVet p (fun v => { v with turn := (u + 1) % 69 })) := by
  have starts : (match s.unitCore p u with
    | some c => Host.Outcome.next (vetCore p c (s.openSlice p u))
    | none => .next (s.openSlice p u)) = (.next (s.startSlice p u) : Host.Outcome State Fault Refusal) := by
    unfold State.startSlice; split <;> rfl
  change execVetSliceStart p condOk s = _
  simp only [execVetSliceStart, runs, first]
  cases condOk with
  | false => rfl
  | true => exact starts

end Start

section End
variable {p : PackId} {s : State} {a : Slice} {f : Finding}

/-- A slice that has run its beats ends with a finding that fits its unit (R436, R448). -/
theorem exec_vetSliceResult_due (active : (s.vetPack p).active = some a) (due : a.startedAt + sliceBeats (s.pack p).freq ≤ s.clock)
    (fits : f.fits a.unit a.slice = true) (marched : s.marched p f = true) :
    exec (.vetSliceResult p f) s = .next (sliceResult p a f s) := by
  change execVetSliceResult p f s = _
  have ends : ¬ (decide (s.clock < a.startedAt + sliceBeats (s.pack p).freq) || !(f.fits a.unit a.slice && s.marched p f)) = true := by
    simp [due, fits, marched]
  simp only [execVetSliceResult, active, if_neg ends]

variable (retriever : ¬ a.unit < 68)
include retriever

/-- The end of a Retriever's slice restores no core (R436). -/
theorem endSlice_retriever : endSlice p a s = s.modVet p (fun v => { v with active := none }) := by
  simp only [endSlice, if_neg retriever]

/-- A Retriever whose slice is completed moves to its next slice (R441). -/
theorem noteSlice_retriever : noteSlice p a s = s.modVet p (fun v => { v with retrSlice := (a.slice + 1) % 64 }) := if_neg retriever

/-- A Retriever's slice without a finding marches no bank: it is counted, and the Retriever moves to its next slice (R441, R465). -/
theorem sliceResult_retriever_pass : sliceResult p a .pass s =
    ((s.modVet p (fun v => { v with active := none })).bump (0x1800 + p) 0x43 1).modVet p (fun v => { v with retrSlice := (a.slice + 1) % 64 }) := by
  simp [sliceResult, marchBank, applyFinding, if_neg retriever, endSlice_retriever retriever, noteSlice_retriever retriever]

/-- An abandoned slice of a Retriever is counted and no longer in progress (R443, R465). -/
theorem abandonSlice_retriever (active : (s.vetPack p).active = some a) :
    abandonSlice p s = (s.modVet p (fun v => { v with active := none })).bump (0x1800 + p) 0x44 1 := by
  have inProgress : (tabGet VetPack.reset s.vet.packs p).active = some a := active
  simp only [abandonSlice, inProgress, if_neg retriever]
  rfl

end End

/-- Settles O37: a slice's start by `State.startSlice`, and the ends of a Retriever's slice by what they are counted as. -/
theorem vetSlicesRunAndEnd : Obligations.VetSlicesRunAndEnd := by
  refine fun p s => ⟨fun u runs first => ⟨exec_vetSliceStart_ready runs first false, s.startSlice p u, exec_vetSliceStart_ready runs first true,
    ?only, ?vet, fun c core router => s.startSlice_taken (State.unitCore_eq_some.mpr ⟨core, router⟩), fun c left => s.startSlice_left ?left⟩,
    fun a f active due fits marched => exec_vetSliceResult_due active due fits marched,
    fun a active retriever due below => ⟨_, exec_vetSliceResult_due active due rfl rfl, ?passed⟩,
    fun a active => ⟨rfl, fun retriever below => ?abandoned⟩⟩
  case only => rw [State.startSlice_only]; rfl
  case vet => rw [State.startSlice_only]; rfl
  case left =>
    rw [Ne, State.unitCore_eq_some]
    exact fun ⟨core, router⟩ => left.elim (Nat.not_le.mpr core) (· router)
  case passed =>
    rw [sliceResult_retriever_pass retriever.not_lt]
    obtain ⟨st, counts, value, -⟩ := (s.modVet p (fun v => { v with active := none })).bump_counts (0x1800 + p) 0x43 1 below
    refine ⟨by simp, by simp, ?_⟩
    rw [counts]
    exact ⟨value, rfl, rfl, rfl, rfl⟩
  case abandoned =>
    rw [abandonSlice_retriever retriever.not_lt active]
    obtain ⟨st, counts, value, -⟩ := (s.modVet p (fun v => { v with active := none })).bump_counts (0x1800 + p) 0x44 1 below
    exact ⟨State.bump_vet .., by rw [counts]; exact value⟩

end Sys2Proof.Machine
end

section
/-! SUPPORT. Maintenance: when its commands are refused, and what an action that ends does to the muzzles, the repairs and the packs held
safe (R258, R450, R461-R465). -/
namespace Sys2Proof.Machine

section Command
variable {s : State} {a : Nat}

/-- The command of a maintenance action (R463). -/
def maintInstr (a : Nat) : Instr := if a = 1 then .fuseRepairs else if a = 2 then .retestMuzzled else .retestSafePacks

/-- A maintenance command is answered with its decision (R463, R464). -/
theorem exec_maintInstr (answers : Answering s) (least : 1 ≤ a) (most : a ≤ 3) {code : Nat} {t : State}
    (decision : maintCommand a s = (code, t)) : exec (maintInstr a) s = .next { t with out := [BitVec.ofNat 8 code] } := by
  have command : exec (maintInstr a) s = .next (s.command (maintCommand a)) := by
    obtain rfl | rfl | rfl : a = 1 ∨ a = 2 ∨ a = 3 := by omega
    all_goals rfl
  rw [command, s.command_booted _ answers.1 answers.2, decision]

/-- While an action runs a command changes nothing (R464). -/
theorem maintCommand_running (running : s.vet.maintState = 1) : maintCommand a s = (stBusy, s) := by
  simp [maintCommand, State.maintBusy, running]

/-- A pack of the action with a program, or a load that checks or installs, makes the command busy (R464). -/
theorem maintBusy_of (busy : (∃ p ∈ s.maintPacks a, (s.pack p).prog.isSome = true) ∨ s.load.state = .checking ∨ s.load.state = .installing) :
    s.maintBusy a = true := by
  simp only [State.maintBusy, Bool.or_eq_true, decide_eq_true_eq, List.any_eq_true]
  obtain ⟨p, concerned, program⟩ | checking | installing := busy
  · exact .inr ⟨p, concerned, .inl program⟩
  · exact .inl (.inl (.inr checking))
  · exact .inl (.inr installing)

/-- A command that is busy with no action running records the refusal (R464). -/
theorem maintCommand_busy (idle : s.vet.maintState ≠ 1) (busy : s.maintBusy a = true) : maintCommand a s = (stBusy, setMaint 3 s) := by
  simp only [maintCommand, busy, if_true, if_neg idle]

variable (free : s.maintBusy a = false)
include free

/-- Fusing without the voltage for it, or without hold-up, is a state error (R464). -/
theorem maintCommand_unpowered (fuse : a = 1) (low : f32Lt s.env.now.vin f40V = true ∨ s.env.holdupOk = false) :
    maintCommand a s = (stState, setMaint 3 s) := by
  have refused : (decide (a = 1) && (f32Lt s.env.now.vin f40V || !s.env.holdupOk)) = true := by
    simpa [fuse] using low
  simp only [maintCommand, free, refused, Bool.false_eq_true, if_false, if_true]

/-- Any other command starts its action (R463, R464). -/
theorem maintCommand_starts (powered : a = 1 → f32Lt s.env.now.vin f40V = false ∧ s.env.holdupOk = true) :
    maintCommand a s = (stDone, { s with vet := { s.vet with maintState := 1, maintAction := a } }) := by
  have accepted : (decide (a = 1) && (f32Lt s.env.now.vin f40V || !s.env.holdupOk)) = false := by
    by_cases fuse : a = 1
    · simp [powered fuse]
    · simp [fuse]
  simp only [maintCommand, free, accepted, Bool.false_eq_true, if_false]

end Command

section Retest

/-- Nothing differs but the records of physical cores and packs. -/
def MuzzlesOnly (s t : State) : Prop := t = { s with vet := { s.vet with phys := t.vet.phys, packs := t.vet.packs } }

theorem MuzzlesOnly.refl (s : State) : MuzzlesOnly s s := rfl

theorem MuzzlesOnly.trans {s t u : State} (h : MuzzlesOnly s t) (h' : MuzzlesOnly t u) : MuzzlesOnly s u := by
  unfold MuzzlesOnly at *
  rw [h', h]

theorem clearMuzzle_only (s : State) (n : Nat) : MuzzlesOnly s (clearMuzzle s n) := rfl

theorem clearMuzzles_only (l : List Nat) (s : State) : MuzzlesOnly s (l.foldl clearMuzzle s) :=
  State.foldl_related MuzzlesOnly.refl MuzzlesOnly.trans clearMuzzle_only l s

/-- A cleared core is muzzled no more, and every other is as before (R463). -/
theorem clearMuzzle_muzzled (s : State) (m n : Nat) : ((clearMuzzle s m).phys n).muzzled = ((s.phys n).muzzled && !decide (n = m)) := by
  by_cases same : n = m
  · subst same; simp [clearMuzzle]
  · simp [clearMuzzle, State.modPhys_other, same]

theorem clearMuzzles_muzzled (l : List Nat) (s : State) (n : Nat) :
    ((l.foldl clearMuzzle s).phys n).muzzled = ((s.phys n).muzzled && !decide (n ∈ l)) := by
  induction l generalizing s with
  | nil => simp
  | cons m l ih => rw [List.foldl_cons, ih, clearMuzzle_muzzled]; simp [Bool.and_assoc]

/-- Of the vet state a release changes the pack's record alone (R462, R463). -/
theorem releasePack_vet (s : State) (p : Nat) : (releasePack s p).vet = (s.modVet p (fun v => { v with held := false, reason := 0 })).vet := by
  unfold releasePack
  dsimp only
  rw [State.modCores_eq]
  rfl

/-- A released pack is held no more, and every other is as before (R462, R463). -/
theorem releasePack_held (s : State) (p q : Nat) : ((releasePack s p).vetPack q).held = ((s.vetPack q).held && !decide (q = p)) := by
  have record : (releasePack s p).vetPack q = (s.modVet p (fun v => { v with held := false, reason := 0 })).vetPack q :=
    congrArg (fun v : Vet => tabGet VetPack.reset v.packs q) (releasePack_vet s p)
  rw [record]
  by_cases same : q = p
  · subst same; simp
  · simp [State.modVet_other, same]

theorem releasePacks_maintState (l : List Nat) (s : State) : (l.foldl releasePack s).vet.maintState = s.vet.maintState := by
  induction l generalizing s with
  | nil => rfl
  | cons p l ih => rw [List.foldl_cons, ih, releasePack_vet]; rfl

theorem releasePacks_held (l : List Nat) (s : State) (q : Nat) :
    ((l.foldl releasePack s).vetPack q).held = ((s.vetPack q).held && !decide (q ∈ l)) := by
  induction l generalizing s with
  | nil => simp
  | cons p l ih =>
    rw [List.foldl_cons, ih, releasePack_held]
    simp [Bool.and_assoc]

end Retest

section Done
variable {s : State} {passed : List (Fin 1088)}

/-- The muzzled cores that passed, but for those muzzled for a row that no spare absorbs (R450, R463). -/
def State.clearable (s : State) (passed : List (Fin 1088)) : List Nat :=
  (List.range 1088).filter (fun n => (s.phys n).muzzled && (s.phys n).reason ≠ 0xC8 && (passed.map Fin.val).contains n)

/-- The packs held safe that passed (R462, R463). -/
def State.releasable (s : State) (passed : List (Fin 1088)) : List Nat :=
  (List.range 16).filter (fun p => (s.vetPack p).held && (passed.map Fin.val).contains p)

/-- Every valid repair entry is fused (R258, R463). -/
def fuseAll (s : State) : State := { s with vet := { s.vet with phys := s.vet.phys.map (fun e => (e.1, e.2.fuse)) } }

/-- The muzzles of the cores that passed are cleared, and a change of the map is counted (R450, R463, R465). -/
def clearPassed (passed : List (Fin 1088)) (s : State) : State :=
  let t := (s.clearable passed).foldl clearMuzzle s
  let t : State := { t with vet := { t.vet with maintCleared := (s.clearable passed).length } }
  if (s.clearable passed).isEmpty then t else ({ t with vet := { t.vet with mapSeq := t.vet.mapSeq + 1 } } : State).alert 2

/-- The packs that passed are released (R462, R463, R465). -/
def releasePassed (passed : List (Fin 1088)) (s : State) : State :=
  let t := (s.releasable passed).foldl releasePack s
  { t with vet := { t.vet with maintCleared := (s.releasable passed).length } }

/-- Clearing the passed cores' muzzles counts them, and a change of the map where there are any (R450, R463, R465). -/
theorem clearPassed_vet : (clearPassed passed s).vet = { ((s.clearable passed).foldl clearMuzzle s).vet with
    maintCleared := (s.clearable passed).length
    mapSeq := if s.clearable passed = [] then s.vet.mapSeq else s.vet.mapSeq + 1 } := by
  have seq : ((s.clearable passed).foldl clearMuzzle s).vet.mapSeq = s.vet.mapSeq := by rw [clearMuzzles_only]
  unfold clearPassed
  by_cases nobody : s.clearable passed = []
  · simp [nobody]
  · rw [if_neg (List.isEmpty_iff.not.mpr nobody), if_neg nobody]
    dsimp only
    rw [CountsOnly.alert]
    simp [seq]

/-- Of the muzzled cores those stay muzzled that did not pass or were muzzled for a row that no spare absorbs (R463). -/
theorem clearPassed_muzzled {n : Nat} (inMap : n < 1088) : ((clearPassed passed s).phys n).muzzled =
    ((s.phys n).muzzled && !((s.phys n).reason ≠ 0xC8 && (passed.map Fin.val).contains n)) := by
  have record : (clearPassed passed s).phys n = ((s.clearable passed).foldl clearMuzzle s).phys n := by
    rw [State.phys, State.phys, clearPassed_vet]
  rw [record, clearMuzzles_muzzled]
  cases muzzled : (s.phys n).muzzled <;> simp [State.clearable, inMap, muzzled]

/-- Of the packs held safe those stay held that did not pass (R463). -/
theorem releasePassed_held {p : Nat} (inModule : p < 16) : ((releasePassed passed s).vetPack p).held =
    ((s.vetPack p).held && !(passed.map Fin.val).contains p) := by
  have record : (releasePassed passed s).vetPack p = ((s.releasable passed).foldl releasePack s).vetPack p := rfl
  rw [record, releasePacks_held]
  cases held : (s.vetPack p).held <;> simp [State.releasable, inModule, held]

variable (running : s.vet.maintState = 1)
include running

/-- An action that could not be carried out ends in state 4 (R465). -/
theorem exec_maintDone_failed : exec (.maintDone false passed) s = .next (setMaint 4 s) := by
  change execMaintDone false passed s = _
  simp only [execMaintDone, running]
  rfl

/-- Fusing that was carried out (R463). -/
theorem exec_maintDone_fuse (fuse : s.vet.maintAction = 1) : exec (.maintDone true passed) s = .next (fuseAll (setMaint 2 s)) := by
  have action : (setMaint 2 s).vet.maintAction = 1 := fuse
  change execMaintDone true passed s = _
  simp only [execMaintDone, fuseAll, running, action, ne_eq, not_true_eq_false, if_false, Bool.not_true, Bool.false_eq_true]

/-- A retest of muzzled cores that was carried out (R463). -/
theorem exec_maintDone_cores (retest : s.vet.maintAction = 2) :
    exec (.maintDone true passed) s = .next (clearPassed passed (setMaint 2 s)) := by
  have action : (setMaint 2 s).vet.maintAction = 2 := retest
  change execMaintDone true passed s = _
  simp only [execMaintDone, clearPassed, State.clearable, running, action, ne_eq, not_true_eq_false, if_false, Bool.not_true, Bool.false_eq_true]
  exact (apply_ite Host.Outcome.next _ _ _).symm

/-- A retest of packs held safe that was carried out (R463). -/
theorem exec_maintDone_packs (retest : s.vet.maintAction = 3) :
    exec (.maintDone true passed) s = .next (releasePassed passed (setMaint 2 s)) := by
  have action : (setMaint 2 s).vet.maintAction = 3 := retest
  change execMaintDone true passed s = _
  simp only [execMaintDone, releasePassed, State.releasable, running, action, ne_eq, not_true_eq_false, if_false, Bool.not_true, Bool.false_eq_true]

end Done

/-- Settles O39: a command by its decision, an action that ends by what it does to the repairs, the muzzles or the packs. -/
theorem maintenanceActions : Obligations.MaintenanceActions := by
  refine fun s => ⟨fun answers a least most => ⟨fun running => exec_maintInstr answers least most (maintCommand_running running),
      fun idle busy => exec_maintInstr answers least most (maintCommand_busy idle (maintBusy_of busy)),
      fun free fuse low => exec_maintInstr answers least most (maintCommand_unpowered free fuse low),
      fun free powered => exec_maintInstr answers least most (maintCommand_starts free powered)⟩,
    fun running passed => ⟨exec_maintDone_failed running, exec_maintDone_fuse running,
      fun retest => ⟨_, exec_maintDone_cores running retest, ?coresEnd, ?coresCounted, fun n inMap => clearPassed_muzzled inMap⟩,
      fun retest => ⟨_, exec_maintDone_packs running retest, releasePacks_maintState _ _, fun p inModule => releasePassed_held inModule⟩⟩⟩
  case coresEnd => rw [clearPassed_vet, clearMuzzles_only]; rfl
  case coresCounted =>
    intro l passers
    have cleared : (setMaint 2 s).clearable passed = l := passers.symm
    rw [clearPassed_vet, cleared]
    exact ⟨rfl, rfl⟩

end Sys2Proof.Machine
end

section
/-! SUPPORT. The TAP: what each instruction selects, under which conditions, and what shifts through its register (R626-R628). -/
namespace Sys2Proof.Machine

variable {s : State}

/-- An instruction whose condition holds is selected and has its effect (R627). -/
theorem tapIf_pos {cond : Bool} (holds : cond = true) (i : TapInsn) (f : State → State) (s : State) : tapIf cond i f s = f (tapSelect i s) :=
  if_pos holds

/-- An instruction whose condition does not hold acts as BYPASS (R627). -/
theorem tapIf_neg {cond : Bool} (fails : cond = false) (i : TapInsn) (f : State → State) (s : State) : tapIf cond i f s = tapSelect .bypass s :=
  if_neg (ne_true_of_eq_false fails)

/-- The identification code: bit 0, the manufacturer code, the part and the version (R627). -/
theorem idCode_eq : idCode = 2 ^ 28 * 2 + 2 ^ 12 * 0x1088 + 2 * Config.jep106.toNat + 1 := by
  simp only [idCode, at_, Nat.shiftLeft_eq]
  omega

/-- SAMPLE/PRELOAD gives the sampled pins, a free value, and loads the boundary register (R626, R627; log entry 3). -/
theorem exec_samplePreload (v : Word) : exec (.samplePreload v) s = .next { s with
    nonce := s.nonce + 1, out := leBytes 8 (Config.freeWord s.nonce).toNat
    jtag := { (tapSelect .samplePreload s).jtag with boundary := v } } := rfl

/-- DEBUG_STATE 1 and DEV_STATE Service at rest (R627). -/
theorem State.atRest_eq_true : s.atRest = true ↔ s.sec.debug = true ∧ s.power.dev = .service ∧ s.power.starting = none := by
  simp [State.atRest, and_assoc]

section Lbist

/-- LBIST_SELECT takes the core and the slice, bits 16:0 of what is shifted in (R627). -/
theorem lbistSelect_value (v : BitVec 24) : BitVec.ofNat 24 (bitsOf v 0 17) = v &&& 0x01FFFF := by
  apply BitVec.eq_of_toNat_eq
  have field : bitsOf v 0 17 = v.toNat % 2 ^ 17 := by simp [bitsOf, fieldOf]
  rw [field, BitVec.toNat_ofNat, BitVec.toNat_and, Nat.mod_eq_of_lt (by omega)]
  exact (Nat.and_two_pow_sub_one_eq_mod v.toNat 17).symm

/-- LBIST_RUN without its conditions acts as BYPASS (R627). -/
theorem exec_lbistRun_locked (locked : s.sec.debug = false) (found : Option Finding) : exec (.lbistRun found) s = .next (tapSelect .bypass s) := by
  change execLbistRun found s = _
  unfold execLbistRun
  split <;> exact congrArg Host.Outcome.next (tapIf_neg (by simp [locked]) _ _ _)

/-- LBIST_RUN in Idle, on a core whose pack has no program, is not held safe and runs no slice, runs the slice (R627, R628). -/
theorem exec_lbistRun_runs {n : Nat} (named : s.jtag.core = some n) (debug : s.sec.debug = true) (idle : s.power.dev = .idle)
    (empty : (s.pack (physPack n)).state = .empty) (free : (s.vetPack (physPack n)).held = false)
    (quiet : (s.vetPack (physPack n)).active = none) (found : Option Finding) :
    exec (.lbistRun found) s = .next (lbistRun n found (tapSelect .lbistRun s)) := by
  change execLbistRun found s = _
  simp only [execLbistRun, named]
  exact congrArg Host.Outcome.next (tapIf_pos (by simp [debug, idle, empty, free, quiet]) _ _ _)

end Lbist

/-- Settles O55: the instructions under a condition by `tapIf`, the others as they stand. -/
theorem tapInstructions : Obligations.TapInstructions := by
  refine fun s => ⟨rfl, rfl, rfl, ?odd, ?part, ?version, fun v => ⟨_, exec_samplePreload v, rfl, rfl, rfl, rfl⟩, fun debug service rest => ?rest,
    fun otherwise => ?otherwise, fun v debug => ?select, fun debug => ?result, fun v found locked => ?locked,
    fun n found named debug idle empty free quiet => exec_lbistRun_runs named debug idle empty free quiet found⟩
  case odd => rw [idCode_eq]; omega
  case part => rw [idCode_eq]; have := Config.jep106.isLt; omega
  case version => rw [idCode_eq]; have := Config.jep106.isLt; omega
  case rest =>
    have atRest := State.atRest_eq_true.mpr ⟨debug, service, rest⟩
    exact ⟨congrArg _ (tapIf_pos atRest _ _ _), congrArg _ (tapIf_pos atRest _ _ _), congrArg _ (tapIf_pos atRest _ _ _)⟩
  case otherwise =>
    have busy : s.atRest = false := Bool.eq_false_iff.mpr fun atRest => by
      obtain ⟨debug, service, rest⟩ := State.atRest_eq_true.mp atRest
      simp [debug, service, rest] at otherwise
    exact ⟨congrArg _ (tapIf_neg busy _ _ _), congrArg _ (tapIf_neg busy _ _ _), congrArg _ (tapIf_neg busy _ _ _)⟩
  case select => rw [← lbistSelect_value]; exact congrArg _ (tapIf_pos debug _ _ _)
  case result => exact congrArg _ (tapIf_pos debug _ _ _)
  case locked =>
    exact ⟨congrArg _ (tapIf_neg locked _ _ _), congrArg _ (tapIf_neg locked _ _ _), exec_lbistRun_locked locked found⟩

end Sys2Proof.Machine
end

section
/-! SUPPORT. The alert bits, the clearing of the counters, and a counter that saturates (R339, R472, R493, R516, R533). -/
namespace Sys2Proof.Machine

section Acknowledge
variable {s : State} {m : BitVec 16}

/-- ALERT_ACK is answered with its status (R472). -/
theorem exec_alertAck (answers : Answering s) (m : BitVec 16) : exec (.alertAck m) s = .next (State.answer (alertAck m.toNat s)) :=
  congrArg Host.Outcome.next (s.command_booted (alertAck m.toNat) answers.1 answers.2)

/-- A notification goes out or, where its loss can be counted below the bound, is counted: only the mailbox or a counter changes (R533). -/
theorem notify_of_lt (kind : Nat) (body : List Byte) (room : s.stat 0x501E 6 + 1 < 2 ^ 64 - 1) :
    ∃ mg st, notify kind body s = { s with mgmt := mg, stats := st } := by
  unfold notify
  split
  · exact ⟨_, s.stats, rfl⟩
  · exact ⟨s.mgmt, _, s.bumpRaw_of_lt _ _ one_ne_zero room⟩

/-- Clearing bits that a word does not have leaves it. -/
theorem and_not_of_disjoint {w : Nat} {x y : BitVec w} (disjoint : x &&& y = 0) : x &&& ~~~y = x := by
  calc x &&& ~~~y = x &&& ~~~y ||| x &&& y := by rw [disjoint]; exact BitVec.or_zero.symm
    _ = x &&& (~~~y ||| y) := (BitVec.and_or_distrib_left ..).symm
    _ = x := by rw [BitVec.or_comm, BitVec.or_not_self, BitVec.and_allOnes]

/-- ALERT_ACK of bits that are not set is done alone (R472). -/
theorem alertAck_none (disjoint : s.faults.alerts &&& m = 0) : alertAck m.toNat s = (stDone, s) := by
  simp [alertAck, and_not_of_disjoint disjoint]

/-- ALERT_ACK clears the bits it names, and changes nothing else but what a notification does (R472, R533). -/
theorem alertAck_clears (room : s.stat 0x501E 6 + 1 < 2 ^ 64 - 1) : ∃ mg st, alertAck m.toNat s =
    (stDone, { s with faults := { s.faults with alerts := s.faults.alerts &&& ~~~m }, mgmt := mg, stats := st }) := by
  simp only [alertAck, BitVec.ofNat_toNat, BitVec.setWidth_eq]
  split
  next same => exact ⟨s.mgmt, s.stats, by rw [same]⟩
  next =>
    obtain ⟨mg, st, sent⟩ := notify_of_lt (s := { s with faults := { s.faults with alerts := s.faults.alerts &&& ~~~m } }) 1
      (leBytes 2 (s.faults.alerts &&& ~~~m).toNat) room
    exact ⟨mg, st, by rw [sent]⟩

end Acknowledge

section Clear
variable {s : State}

/-- STATS_CLEAR written 1 clears the counters and is answered done; written 0 it is answered done alone (R493). -/
theorem exec_statsClear (answers : Answering s) (value : Bool) :
    exec (.statsClear value) s = .next (State.answer (if value then statsClear s else (stDone, s))) :=
  congrArg Host.Outcome.next (s.command_booted (fun s => if value then statsClear s else (stDone, s)) answers.1 answers.2)

/-- Without an owned context no TOKENS_OUT is written: only the counters and the record of saturation are cleared (R339, R493). -/
theorem clearCounters_unowned (unowned : ∀ e ∈ s.ctxs, e.2.owner = none) : clearCounters s = clearStats s := by
  refine congrArg clearStats ((List.foldl_ext _ (fun t _ => t) s fun t e mem => if_neg ?_).trans (List.foldl_fixed _))
  simp [unowned e mem]

end Clear

section Saturate
variable {s : State} {key : Nat} {first : BitVec 32}

/-- The counter at `key` is at its largest value, `first` is recorded as the first that saturated, and the alert of bit 7 is set (R493). -/
structure SaturatedAt (key : Nat) (first : BitVec 32) (s : State) : Prop where
  count : tabGet 0 s.stats key = 2 ^ 64 - 1
  recorded : s.statsSat = true
  first : s.statsFirst = first
  alert : bitAt s.faults.alerts 7 = true

/-- Adding to a counter so that it reaches its bound saturates it; the record keeps the first that did (R493). -/
theorem State.bumpRaw_saturates {n : Nat} (pos : 0 < n) (bound : 2 ^ 64 - 1 ≤ tabGet 0 s.stats key + n) :
    SaturatedAt key (if s.statsSat then s.statsFirst else BitVec.ofNat 32 key) (s.bumpRaw key n) := by
  simp only [State.bumpRaw, pos.ne', if_false, bound.not_gt]
  exact ⟨by rw [tabGet_tabSet_self], rfl, rfl, by simp [bitAt_eq_getLsbD]⟩

/-- Counting leaves every other counter. -/
theorem State.bumpRaw_other {k : Nat} (other : key ≠ k) (n : Nat) : tabGet 0 (s.bumpRaw k n).stats key = tabGet 0 s.stats key := by
  unfold State.bumpRaw
  dsimp only
  split
  · rfl
  · split <;> rw [tabGet_tabSet_other _ _ _ other]

/-- A counter that is saturated stays so, whatever is counted: at its own place it stays at the bound, elsewhere it is left (R493). -/
theorem SaturatedAt.bumpRaw (sat : SaturatedAt key first s) (k n : Nat) : SaturatedAt key first (s.bumpRaw k n) := by
  by_cases zero : n = 0
  · simpa [State.bumpRaw, zero] using sat
  by_cases bound : tabGet 0 s.stats k + n < 2 ^ 64 - 1
  · have other : key ≠ k := by rintro rfl; have := sat.count; omega
    rw [s.bumpRaw_of_lt k n zero bound]
    exact ⟨(tabGet_tabSet_other _ _ _ other).trans sat.count, sat.recorded, sat.first, sat.alert⟩
  · obtain ⟨count, recorded, kept, alert⟩ := s.bumpRaw_saturates (Nat.pos_of_ne_zero zero) (not_lt.mp bound)
    refine ⟨?_, recorded, by rw [kept, if_pos sat.recorded, sat.first], alert⟩
    by_cases same : key = k
    · rw [same, count]
    · rw [State.bumpRaw_other same, sat.count]

/-- A notification that is lost is counted, and leaves what is saturated (R533). -/
theorem SaturatedAt.notify (sat : SaturatedAt key first s) (kind : Nat) (body : List Byte) : SaturatedAt key first (notify kind body s) := by
  unfold Machine.notify
  split
  · exact ⟨sat.count, sat.recorded, sat.first, sat.alert⟩
  · exact sat.bumpRaw _ _

/-- A message that is lost is counted, and leaves what is saturated (R516). -/
theorem SaturatedAt.raiseMsix (sat : SaturatedAt key first s) (fn v : Nat) : SaturatedAt key first (raiseMsix fn v s) := by
  unfold Machine.raiseMsix
  dsimp only
  split_ifs
  · exact sat.bumpRaw _ _
  · exact ⟨sat.count, sat.recorded, sat.first, sat.alert⟩
  · exact ⟨sat.count, sat.recorded, sat.first, sat.alert⟩

/-- Announcing an alert may count in turn, and leaves what is saturated (R493, R516, R533). -/
theorem SaturatedAt.announceAlert (sat : SaturatedAt key first s) : SaturatedAt key first (announceAlert s) := (sat.notify _ _).raiseMsix _ _

/-- A counter that reaches its bound is saturated, and still is once that has been announced (R493). -/
theorem State.bump_saturates {idx sub n : Nat} (pos : 0 < n) (bound : 2 ^ 64 - 1 ≤ s.stat idx sub + n) :
    SaturatedAt (statKey idx sub) (if s.statsSat then s.statsFirst else BitVec.ofNat 32 (statKey idx sub)) (s.bump idx sub n) := by
  have sat := s.bumpRaw_saturates pos bound
  unfold State.bump State.bumpKey
  by_cases same : (s.bumpRaw (statKey idx sub) n).faults.alerts = s.faults.alerts
  · simpa only [if_pos same] using sat
  · simpa only [if_neg same] using sat.announceAlert

end Saturate

/-- Settles O43: ALERT_ACK by `alertAck_clears`, STATS_CLEAR by what `clearCounters` leaves, and saturation by `State.bump_saturates`, which
holds through the announcement of its own alert. -/
theorem alertsAndStatisticsAreCleared : Obligations.AlertsAndStatisticsAreCleared := by
  refine fun s => ⟨fun answers m => ⟨fun room => ?clears, fun disjoint => ?none, ⟨_, exec_statsClear answers true, rfl, fun _ _ => rfl, rfl, rfl⟩,
    fun unowned => ?unowned, exec_statsClear answers false⟩, fun idx sub n pos bound => ?saturates⟩
  case clears =>
    obtain ⟨mg, st, cleared⟩ := alertAck_clears (m := m) room
    exact ⟨_, exec_alertAck answers m, by rw [cleared]; exact ⟨rfl, rfl, rfl⟩⟩
  case none => rw [exec_alertAck answers, alertAck_none disjoint]; rfl
  case unowned => rw [exec_statsClear answers, if_pos rfl, statsClear, clearCounters_unowned unowned]; rfl
  case saturates =>
    obtain ⟨count, recorded, first, alert⟩ := s.bump_saturates pos bound
    exact ⟨count, recorded, alert, first⟩

end Sys2Proof.Machine
end
section
/-! SUPPORT. What a step keeps: the commands behind the front one, and lawful ownership (R564, R566, R568). -/
namespace Sys2Proof.Machine

/-- A step answers a next state and keeps of the state behind the queue's front what every command keeps. -/
theorem step_keeps (s : State) : ∃ t, step s = .next t ∧ Keeps { s with pending := s.pending.drop 1 } t := by
  unfold step
  split
  next none =>
    have same : ({ s with pending := s.pending.drop 1 } : State) = s := by rw [none, List.drop_nil, ← none]
    exact ⟨_, rfl, same.symm ▸ Keeps.tick (.refl s)⟩
  next c rest queue =>
    rw [queue, List.drop_one, List.tail_cons]
    exact Completes.exec (.refl { s with pending := rest }) c

/-- Settles O58: every command by `Completes.exec`, every step by `step_keeps`. -/
theorem everyCommandCompletesAndLeavesTheQueue : Obligations.EveryCommandCompletesAndLeavesTheQueue := by
  refine ⟨fun c s => ?_, fun s => ?_⟩
  · obtain ⟨t, next, kept⟩ := Completes.exec (.refl s) c
    exact ⟨t, next, kept.pending⟩
  · obtain ⟨t, next, kept⟩ := step_keeps s
    exact ⟨t, next, kept.pending⟩

/-- Settles O60: the queue is no part of ownership, and a step keeps lawful ownership by `step_keeps`. -/
theorem ownershipStaysLawful : Obligations.OwnershipStaysLawful := by
  intro s t lawful e
  obtain ⟨u, next, kept⟩ := step_keeps s
  cases next.symm.trans e
  exact kept.ownership lawful

end Sys2Proof.Machine
end
section
/-! SUPPORT. Posted writes to an open BAR0, and the doorbells and ring errors of a context (R498, R501, R506, R514, R517). -/
namespace Sys2Proof.Machine

/-- A posted write to an open BAR0 has its effect (R501, R517). -/
theorem barWrite_open {fn : Nat} {ide : Bool} {s : State} (bar : BarOpen fn ide s) (f : State → State) : barWrite fn ide f s = f s := by
  obtain ⟨served, admitted⟩ := bar
  simp [barWrite, served, admitted]

section Doorbell
variable {fn : Fin 17} {n : CtxId} {v : BitVec 32} {ide : Bool} {s : State}

/-- A doorbell of an owned context has its effect (R514). -/
theorem doorbell_owned (serves : s.serves fn (n % 16) = true) {g : Nat} (owned : (s.ctx n).owner = some g) (f : State → State) :
    doorbell fn n f s = f s := by
  simp [doorbell, serves, owned]

/-- A doorbell of a context that no image owns is an error (R514). -/
theorem doorbell_unowned (serves : s.serves fn (n % 16) = true) (unowned : (s.ctx n).owner = none) (f : State → State) :
    doorbell fn n f s = doorbellError n 2 s := by
  simp [doorbell, serves, unowned]

/-- A context with bits of its RING_ERR set (R506). -/
def Ctx.withErr (bits : BitVec 32) (k : Ctx) : Ctx := { k with ringErr := k.ringErr ||| bits }

/-- A doorbell not accepted sets its bit of the context's RING_ERR and is counted, and that is all (R514). -/
theorem doorbellError_counts (bit : Nat) (room : s.stat 0x501D 2 + 1 < 2 ^ 64 - 1) {t : State} (e : t = doorbellError n bit s) :
    t.ctx n = (s.ctx n).withErr (BitVec.ofNat 32 (2 ^ bit)) ∧ t.stat 0x501D 2 = s.stat 0x501D 2 + 1 ∧
      t = { s with ctxs := t.ctxs, stats := t.stats } ∧ ∀ j, j ≠ n.val → t.ctx j = s.ctx j := by
  obtain ⟨st, counted, count, -⟩ := State.bump_counts (s.modCtx n (Ctx.withErr (BitVec.ofNat 32 (2 ^ bit)))) 0x501D 2 1 room
  obtain rfl : t = _ := e.trans counted
  exact ⟨s.modCtx_self n _, count, rfl, fun j other => s.modCtx_other n (Ctx.withErr _) other⟩

variable (bar : BarOpen fn ide s) (serves : s.serves fn (n % 16) = true)
include bar serves

/-- IN_TAIL_WRITE to an owned context: the count is taken if it lies within the ring (R514). -/
theorem exec_inTailWrite_owned {g : Nat} (owned : (s.ctx n).owner = some g) : exec (.inTailWrite fn n v ide) s = .next (
    if (v - s.inRead n).toNat ≤ 2 ^ (s.ctx n).inLog2 ∧ (v - (s.ctx n).inTail).toNat ≤ 2 ^ (s.ctx n).inLog2
    then s.setCtx n { s.ctx n with inTail := v } else doorbellError n 0 s) := by
  change execInTailWrite fn n v ide s = _
  simp [execInTailWrite, barWrite_open bar, doorbell_owned serves owned]

/-- CPL_HEAD_WRITE to an owned context: the count is taken if it lies within the ring (R514). -/
theorem exec_cplHeadWrite_owned {g : Nat} (owned : (s.ctx n).owner = some g) : exec (.cplHeadWrite fn n v ide) s = .next (
    if ((s.ctx n).cplTail - v).toNat ≤ 2 ^ (s.ctx n).cplLog2 ∧ (v - (s.ctx n).cplHead).toNat ≤ 2 ^ (s.ctx n).cplLog2
    then s.setCtx n ((s.ctx n).setHead v s.clock) else doorbellError n 1 s) := by
  change execCplHeadWrite fn n v ide s = _
  simp [execCplHeadWrite, barWrite_open bar, doorbell_owned serves owned]

/-- Either doorbell to a context that no image owns is the error of bit 2 (R514). -/
theorem exec_doorbells_unowned (unowned : (s.ctx n).owner = none) :
    exec (.inTailWrite fn n v ide) s = .next (doorbellError n 2 s) ∧ exec (.cplHeadWrite fn n v ide) s = .next (doorbellError n 2 s) := by
  change execInTailWrite fn n v ide s = _ ∧ execCplHeadWrite fn n v ide s = _
  simp [execInTailWrite, execCplHeadWrite, barWrite_open bar, doorbell_unowned serves unowned]

/-- RING_ERR_CLEAR clears the bits written 1 (R506). -/
theorem exec_ringErrClear (b : Byte) : exec (.ringErrClear fn n b ide) s =
    .next (s.setCtx n { s.ctx n with ringErr := (s.ctx n).ringErr &&& ~~~(b.setWidth 32) }) := by
  change execRingErrClear fn n b ide s = _
  simp [execRingErrClear, barWrite_open bar, serves, State.modCtx]

end Doorbell

/-- Settles O25: each doorbell by its test of the ring, the errors by `doorbellError_counts`. -/
theorem doorbellsAndRingErrors : Obligations.DoorbellsAndRingErrors := by
  refine fun fn n v ide s bar serves => ⟨fun g owned => ⟨fun ahead behind => ?tail, fun ahead behind => ?head, fun beyond room => ?tailError,
    fun beyond room => ?headError⟩, fun unowned room => ?unowned, exec_ringErrClear bar serves⟩
  case tail => rw [exec_inTailWrite_owned bar serves owned, if_pos ⟨ahead, behind⟩]
  case head => rw [exec_cplHeadWrite_owned bar serves owned, if_pos ⟨ahead, behind⟩]; rfl
  case tailError =>
    refine ⟨_, ?_, doorbellError_counts 0 room rfl⟩
    rw [exec_inTailWrite_owned bar serves owned, if_neg (by omega)]
  case headError =>
    refine ⟨_, ?_, doorbellError_counts 1 room rfl⟩
    rw [exec_cplHeadWrite_owned bar serves owned, if_neg (by omega)]
  case unowned =>
    obtain ⟨tail, head⟩ := exec_doorbells_unowned bar serves unowned
    obtain ⟨error, -, only, others⟩ := doorbellError_counts 2 room rfl
    exact ⟨_, tail, head, error, only, others⟩

end Sys2Proof.Machine
end
section
/-! SUPPORT. The module without power (R542, R564, R602). -/
namespace Sys2Proof.Machine

/-- A module as manufactured is lawfully Unowned: without keys, sessions or a debug unlock (R564, R568). -/
theorem reset_ownershipLawful : OwnershipLawful State.reset := ⟨fun _ => ⟨rfl, rfl, rfl⟩, Nat.zero_le 4, Bool.noConfusion⟩

/-- Settles O57: a reset table is empty, so each of its entries reads as its default (`tabGet_nil`). -/
theorem resetIsAModuleWithoutPower : Obligations.ResetIsAModuleWithoutPower :=
  ⟨rfl, rfl, rfl, rfl, rfl, rfl, rfl, rfl, tabGet_nil _, tabGet_nil _, tabGet_nil _, tabGet_nil _,
    fun idx sub => tabGet_nil 0 (statKey idx sub), rfl, reset_ownershipLawful⟩

end Sys2Proof.Machine
end
section
/-! SUPPORT. Locking, sessions and debug access (R540, R558, R564, R566-R568). -/
namespace Sys2Proof.Machine

variable {s t : State} {r : Requester} {lock : Bool}

/-- Using a session changes the sessions alone (R566). -/
theorem touchSession_only (r : Requester) (s : State) :
    touchSession r s = { s with sec := { s.sec with sessions := (touchSession r s).sec.sessions } } := by
  unfold touchSession; split <;> rfl

@[simp] theorem touchSession_power : (touchSession r s).power = s.power := by rw [touchSession_only]

@[simp] theorem touchSession_owner : (touchSession r s).sec.owner = s.sec.owner := by rw [touchSession_only]

@[simp] theorem touchSession_upd : (touchSession r s).upd = s.upd := by rw [touchSession_only]

/-- Firmware that answers still does when a session has been used. -/
theorem Answering.touchSession (answers : Answering s) (r : Requester) : Answering (touchSession r s) := by
  rw [touchSession_only]; exact answers

section Lock

/-- LOCK and UNLOCK answer what their command gives once their session has been used (R564). -/
theorem exec_lock (answers : Answering s) (lock : Bool) (r : Requester) : exec (if lock then .lock r else .unlock r) s =
    .next { (lockCommand lock r (touchSession r s)).2 with out := [BitVec.ofNat 8 (lockCommand lock r (touchSession r s)).1] } := by
  have commanded (lock : Bool) := State.command_booted (touchSession r s) (lockCommand lock r)
    (answers.touchSession r).1 (answers.touchSession r).2
  cases lock
  · exact congrArg Host.Outcome.next (commanded false)
  · exact congrArg Host.Outcome.next (commanded true)

/-- An Unowned module has no lock (R564). -/
theorem lockCommand_unowned (unowned : t.sec.owner = .unowned) : lockCommand lock r t = (stState, t) := by
  simp [lockCommand, unowned]

/-- A lock command outside an owner session is a lock error (R540). -/
theorem lockCommand_outside (owned : t.sec.owner ≠ .unowned) (outside : t.inSession r = false) : lockCommand lock r t = (stLock, t) := by
  unfold lockCommand
  split
  · contradiction
  · simp [outside]
  · simp [outside]

/-- LOCK takes Owned to Owned-Locked, UNLOCK takes it back (R564). -/
theorem lockCommand_changes (inside : t.inSession r = true) (from_ : t.sec.owner = if lock then .owned else .locked) :
    lockCommand lock r t = (stDone, { t with sec := { t.sec with owner := if lock then .locked else .owned } }) := by
  cases lock <;> simp_all [lockCommand]

/-- LOCK in Owned-Locked and UNLOCK in Owned are state errors (R564). -/
theorem lockCommand_stays (inside : t.inSession r = true) (at_ : t.sec.owner = if lock then .locked else .owned) :
    lockCommand lock r t = (stState, t) := by
  cases lock <;> simp_all [lockCommand]

end Lock

section Unlock
variable {m : List Byte}

/-- DEBUG_UNLOCK judges a token of 3,413 B once its session has been used (R526, R567, R568). -/
theorem exec_debugUnlock (answers : Answering s) (m : List Byte) (r : Requester) : exec (.debugUnlock m r) s =
    if m.length ≠ 3413 then .next (State.answer (stType, touchSession r s))
    else .next (if (debugUnlock m r (touchSession r s)).1 = 0 then State.answer (stDone, (debugUnlock m r (touchSession r s)).2)
      else { (debugUnlock m r (touchSession r s)).2 with
        out := [BitVec.ofNat 8 stRefused, BitVec.ofNat 8 (debugUnlock m r (touchSession r s)).1] }) := by
  obtain ⟨booted, main⟩ := answers
  exact if_neg (by simp [booted, main])

theorem debugUnlock_refused (refused : t.tokenRefusal r m ≠ 0) : debugUnlock m r t = (t.tokenRefusal r m, t) := if_pos refused

/-- A token that nothing refuses unlocks until its hours (R568). -/
theorem debugUnlock_accepted (accepted : t.tokenRefusal r m = 0) : debugUnlock m r t =
    (0, { t with sec := { t.sec with debug := true, debugSinceBoot := true, debugUntil := fld m 28 4 } }) :=
  if_neg (not_not_intro accepted)

/-- DEBUG_STATE 0 leaves the other security state, clears the Sniff port's setting and yields the TAP (R558, R568, R628). -/
theorem debugOff_eq (s : State) : debugOff s =
    { s with sec := { s.sec with debug := false }, settings := tabErase s.settings (statKey 0x7000 1), jtag := (debugOff s).jtag } := by
  unfold debugOff; rw [tapYield_only]

/-- The Sniff port is off once DEBUG_STATE is 0 (R568). -/
theorem debugOff_sniff (s : State) : (debugOff s).setting 0x7000 1 0 = 0 := by
  rw [debugOff_eq, State.setting, State.rawSetting, tabGet_tabErase_self]

/-- DEBUG_LOCK written 1 ends debug access; written 0 it is answered alone (R568). -/
theorem exec_debugLock (answers : Answering s) (value : Bool) :
    exec (.debugLock value) s = .next { (if value then debugOff s else s) with out := [0] } :=
  congrArg Host.Outcome.next (s.command_booted (fun s => (stDone, if value then debugOff s else s)) answers.1 answers.2)

theorem exec_debugExpiry : exec .debugExpiry s =
    .next (if s.sec.debug && decide (s.sec.debugUntil ≤ s.hoursNow) then debugOff s else s) := rfl

end Unlock

/-- Settles O51: each command by its lemma above; a session is kept by SESSION_TIMEOUT as the filter keeps it. -/
theorem ownershipAndDebugUnlock : Obligations.OwnershipAndDebugUnlock := by
  refine fun s => ⟨fun lock r answers => ⟨fun unowned => ?unowned, fun owned outside => ?outside, fun inside from_ => ?changes,
      fun inside at_ => ?stays⟩,
    ⟨_, rfl, rfl, fun x => ?timeout⟩,
    fun m r answers => ⟨fun size => ?size, fun size refused => ?refused, fun size accepted => ?accepted⟩,
    fun answers => ⟨exec_debugLock answers false, { debugOff s with out := [0] }, exec_debugLock answers true, ?locked, debugOff_sniff s, rfl,
      ?frame⟩,
    fun debug due => ⟨debugOff s, ?expires, ?expired, debugOff_sniff s⟩, fun early => ?early⟩
  case unowned => rw [exec_lock answers, lockCommand_unowned (touchSession_owner.trans unowned)]; rfl
  case outside => rw [exec_lock answers, lockCommand_outside (by rwa [touchSession_owner]) outside]; rfl
  case changes => rw [exec_lock answers, lockCommand_changes inside (touchSession_owner.trans from_)]; rfl
  case stays => rw [exec_lock answers, lockCommand_stays inside (touchSession_owner.trans at_)]; rfl
  case timeout => rw [List.mem_filter, decide_eq_true_eq]
  case size => rw [exec_debugUnlock answers, if_pos size]; rfl
  case refused => rw [exec_debugUnlock answers, if_neg (not_not_intro size), debugUnlock_refused refused, if_neg refused]; rfl
  case accepted => rw [exec_debugUnlock answers, if_neg (not_not_intro size), debugUnlock_accepted accepted, if_pos rfl]; rfl
  case expires => rw [exec_debugExpiry, if_pos (by simp [debug, due])]
  case early => rw [exec_debugExpiry, if_neg (by simp [early])]
  case locked => rw [debugOff_eq]
  case frame => rw [debugOff_eq]
  case expired => rw [debugOff_eq]

end Sys2Proof.Machine
end
section
/-! SUPPORT. The attestation reports of the three paths (R551, R569-R571). -/
namespace Sys2Proof.Machine

variable {s : State}

@[simp] theorem leBytes_length (n v : Nat) : (leBytes n v).length = n := by
  induction n generalizing v with
  | zero => rfl
  | succ n ih => simp [leBytes, ih]

@[simp] theorem fitTo_length {α : Type} (d : α) (n : Nat) (l : List α) : (fitTo d n l).length = n := by
  simp only [fitTo, List.length_append, List.length_take, List.length_replicate]; omega

/-- ATTEST_NONCE starts the report of its path, or is a type error where it is not 32 B (R551, R569). -/
theorem exec_attestNonce (answers : Answering s) (mb : Bool) (l : List Byte) : exec (.attestNonce mb l) s =
    .next (State.answer (if l.length ≠ 32 then (stType, s) else (stDone, startAttest (bit01 mb) l s))) := by
  obtain ⟨booted, main⟩ := answers
  exact congrArg Host.Outcome.next (if_pos (by simp [booted, main]))

/-- DOE_REQUEST starts the report of PATH 2 (R571). -/
theorem exec_doeRequest (answers : Answering s) (n : BitVec 256) :
    exec (.doeRequest n) s = .next (startAttest 2 (leBytes 32 n.toNat) s) := by
  obtain ⟨booted, main⟩ := answers
  exact congrArg Host.Outcome.next (if_pos (by simp [booted, main]))

/-- The report of a path: pending, over its nonce, from the Howl of now (R569). -/
theorem startAttest_self (p : Nat) (l : List Byte) (s : State) : tabGet Attest.none (startAttest p l s).sec.attest p =
    { nonce := l, startHowl := s.howl, pending := true, report := [] } := tabGet_tabSet_self _ _ _ _

/-- The other paths are unaffected (R569). -/
theorem startAttest_other {p q : Nat} (l : List Byte) (s : State) (other : q ≠ p) :
    tabGet Attest.none (startAttest p l s).sec.attest q = tabGet Attest.none s.sec.attest q := tabGet_tabSet_other _ _ _ other

section Report
variable {p : Fin 3}

/-- A path's report completed, its nonce kept (R569). -/
def State.completeReport (s : State) (p : Nat) : State :=
  let a := tabGet Attest.none s.sec.attest p
  { s with sec := { s.sec with
    attest := tabSet Attest.none s.sec.attest p { a with pending := false, report := s.attestReport p a } } }

theorem State.completeReport_self (s : State) (p : Nat) : tabGet Attest.none (s.completeReport p).sec.attest p =
    { tabGet Attest.none s.sec.attest p with
      pending := false, report := s.attestReport p (tabGet Attest.none s.sec.attest p) } := tabGet_tabSet_self _ _ _ _

theorem State.completeReport_other (s : State) {p q : Nat} (other : q ≠ p) :
    tabGet Attest.none (s.completeReport p).sec.attest q = tabGet Attest.none s.sec.attest q := tabGet_tabSet_other _ _ _ other

/-- A pending report completes, and that of the DOE path is given back (R569, R571). -/
theorem exec_attestReportDone_pending (pending : (tabGet Attest.none s.sec.attest p).pending = true) : exec (.attestReportDone p) s =
    .next { s.completeReport p with out := if p = 2 then s.attestReport p (tabGet Attest.none s.sec.attest p) else s.out } := by
  refine (if_neg (by simp [pending])).trans (congrArg _ ?_)
  by_cases doe : p = 2
  · subst doe; rfl
  · exact (if_neg (fun e => doe (Fin.ext e))).trans (by rw [if_neg doe]; rfl)

theorem exec_attestReportDone_none (none : (tabGet Attest.none s.sec.attest p).pending = false) : exec (.attestReportDone p) s = .next s :=
  if_pos (by simp [none])

/-- A report begins with its magic, version, path, a zero and its length, and then holds its nonce (R569). -/
theorem attestReport_head (s : State) (p : Nat) (a : Attest) : ∃ n rest, s.attestReport p a =
    strBytes "DVMATST1" ++ (leBytes 2 1 ++ (leBytes 1 p ++ ([0] ++ (leBytes 4 n ++ (fitTo 0 32 a.nonce ++ rest))))) := by
  unfold State.attestReport
  generalize strBytes "DVMATST1" = magic
  simp only [List.append_assoc]
  exact ⟨_, _, rfl⟩

theorem attestReport_magic (s : State) (p : Nat) (a : Attest) : (s.attestReport p a).take 8 = strBytes "DVMATST1" := by
  obtain ⟨n, rest, head⟩ := attestReport_head s p a
  rw [head]
  exact List.take_left' rfl

/-- The nonce stands at byte 16 of a report (R569). -/
theorem attestReport_nonce (s : State) (p : Nat) (a : Attest) : bytesAt (s.attestReport p a) 16 32 = fitTo 0 32 a.nonce := by
  obtain ⟨n, rest, head⟩ := attestReport_head s p a
  have magic : (strBytes "DVMATST1").length = 8 := rfl
  rw [head, bytesAt]
  generalize strBytes "DVMATST1" = m at magic
  simp only [← List.append_assoc]
  rw [List.append_assoc, List.drop_left' (by simp [magic]), List.take_left' (fitTo_length 0 32 a.nonce)]

end Report

/-- Settles O52: the three commands by the lemmas above, the report's first fields by `attestReport_head` (log entry 54). -/
theorem attestationReports : Obligations.AttestationReports := by
  refine fun s => ⟨fun answers => ⟨fun mb l => ⟨fun wrong => ?wrong, fun size => ⟨{ startAttest (bit01 mb) l s with out := [0] }, ?starts, rfl, rfl, startAttest_self _ l s,
      fun p => startAttest_other l s⟩⟩, fun n => ⟨_, exec_doeRequest answers n, rfl, ?doe, ?doeNonce, fun p => startAttest_other _ s⟩⟩,
    fun p => ⟨exec_attestReportDone_none, fun pending => ⟨_, exec_attestReportDone_pending pending, s.completeReport_self p, rfl,
      fun j => s.completeReport_other,
      attestReport_magic s p _, attestReport_nonce s p _⟩⟩⟩
  case wrong => rw [exec_attestNonce answers, if_pos wrong]; rfl
  case starts => rw [exec_attestNonce answers, if_neg (not_not_intro size)]; rfl
  case doe => rw [startAttest_self]
  case doeNonce => rw [startAttest_self]
end Sys2Proof.Machine
end
section
/-! SUPPORT. The envelope controller: readings, throttle steps, the coolant valve and the power cut (R547, R583-R593). -/
namespace Sys2Proof.Machine

/-- A table with the keys of a list changed, each once: the change at those keys, and the rest left. -/
theorem tabGet_foldl_tabMod {α : Type} [DecidableEq α] (d : α) (f : Nat → α → α) {l : List Nat} (nodup : l.Nodup) (t : Tab α) (k : Nat) :
    tabGet d (l.foldl (fun t i => tabMod d t i (f i)) t) k = if k ∈ l then f k (tabGet d t k) else tabGet d t k := by
  induction l generalizing t with
  | nil => rfl
  | cons i l ih =>
    obtain ⟨fresh, nodup⟩ := List.nodup_cons.mp nodup
    rw [List.foldl_cons, ih nodup]
    by_cases here : k = i
    · subst here; simp [fresh]
    · simp [here, tabGet_tabMod_other]

theorem CountsOnly.foldl {α : Type} {f : State → α → State} (counts : ∀ s a, CountsOnly s (f s a)) (l : List α) (s : State) :
    CountsOnly s (l.foldl f s) := State.foldl_related (R := CountsOnly) (fun _ => rfl) CountsOnly.trans counts l s

variable {s : State}

section Thermal

/-- The stacks with the temperatures of a reading (R591). -/
def State.stackTemps (s : State) (r : Readings) : Tab Stack :=
  (List.range 8).foldl (fun t i => tabMod Stack.reset t i (fun k => { k with temp := nth 0 r.stackTemp i })) s.hbmStacks

theorem State.stackTemps_temp (s : State) (r : Readings) {i : Nat} (inModule : i < 8) :
    (tabGet Stack.reset (s.stackTemps r) i).temp = nth 0 r.stackTemp i := by
  rw [State.stackTemps, tabGet_foldl_tabMod Stack.reset (fun i k => { k with temp := nth 0 r.stackTemp i }) List.nodup_range,
    if_pos (List.mem_range.mpr inModule)]

/-- A thermal update of a booted module changes the stacks' temperatures and the envelope's record; joules are then counted and the alerts
that the readings show are raised (R547, R591, R594). -/
theorem exec_thermalModelUpdate (booted : s.power.booted = true) (r : Readings) : ∃ (u : State) (n : Nat), exec (.thermalModelUpdate r) s =
    .next (u.envAlerts.foldl State.alert (u.bump 0x501F 3 n)) ∧ u = { s with hbmStacks := s.stackTemps r, env := u.env } ∧
    u.env.now = r.seen ∧ u.env.pinPeak = (if f32Lt s.env.pinPeak r.pin then r.pin else s.env.pinPeak) ∧
    u.env.energy = (s.env.energy + microJoules r.pin) % 1000000 := by
  change ∃ (u : State) (n : Nat), execThermalModelUpdate r s = _ ∧ _
  rw [execThermalModelUpdate, if_neg (by simp [booted])]
  refine ⟨_, _, rfl, ?only, rfl, rfl, rfl⟩
  simp only [settleClockdown, State.stackTemps, Readings.seen]

end Thermal

section Throttle
variable {p : PackId} {n q : Nat}

/-- Setting a throttle step changes packs alone. -/
theorem setThrottle_only (p n : Nat) (s : State) : setThrottle p n s = { s with packs := (setThrottle p n s).packs } := by
  unfold setThrottle freqIdle; split <;> rfl

@[simp] theorem setThrottle_throttle (p n : Nat) (s : State) : ((setThrottle p n s).pack p).throttle = n := by
  unfold setThrottle freqIdle; split <;> simp

/-- Setting a pack's throttle step leaves every other pack. -/
theorem setThrottle_other {p : Nat} (n : Nat) (s : State) (other : q ≠ p) : (setThrottle p n s).pack q = s.pack q := by
  unfold setThrottle freqIdle; split <;> simp [State.modPack_other, other]

theorem CountsOnly.pack {s t : State} (counts : CountsOnly s t) (q : Nat) : t.pack q = s.pack q := by rw [counts]; rfl

theorem CountsOnly.stack {s t : State} (counts : CountsOnly s t) (q : Nat) : t.stack q = s.stack q := by rw [counts]; rfl

theorem CountsOnly.packs {s t : State} (counts : CountsOnly s t) : t.packs = s.packs := by rw [counts]

theorem CountsOnly.hbm {s t : State} (counts : CountsOnly s t) : t.hbm = s.hbm := by rw [counts]

theorem CountsOnly.env {s t : State} (counts : CountsOnly s t) : t.env = s.env := by rw [counts]

theorem raiseThrottle_top (top : 15 ≤ (s.pack p).throttle) : raiseThrottle p s = s := if_pos top

/-- A raise below the top step raises the pack's step alone, sets alert bit 11, and leaves the envelope's record (R587). -/
theorem raiseThrottle_below (below : (s.pack p).throttle < 15) : ((raiseThrottle p s).pack p).throttle = (s.pack p).throttle + 1 ∧
    bitAt (raiseThrottle p s).faults.alerts 11 = true ∧ (raiseThrottle p s).env = s.env ∧ ∀ q, q ≠ p.val → (raiseThrottle p s).pack q = s.pack q := by
  have raised : raiseThrottle p s = ((setThrottle p ((s.pack p).throttle + 1) s).bump 0x501F 1 1).alert 11 := if_neg (Nat.not_le.mpr below)
  have counts := (CountsOnly.bump (setThrottle p ((s.pack p).throttle + 1) s) 0x501F 1 1).trans (.alert _ 11)
  rw [raised]
  refine ⟨?_, State.alert_sets _ (by decide), ?_, fun q other => ?_⟩
  · rw [counts.pack, setThrottle_throttle]
  · rw [counts.env, setThrottle_only]
  · rw [counts.pack, setThrottle_other _ _ other]

/-- The beats from which each pack's throttle step may be raised again (R587). -/
def State.setRaisedAt (s : State) (raisedAt : Tab Nat) : State := { s with env := { s.env with raisedAt := raisedAt } }

theorem State.setRaisedAt_pack (s : State) (raisedAt : Tab Nat) (q : Nat) : (s.setRaisedAt raisedAt).pack q = s.pack q := rfl

/-- A hot pack's throttle step is raised at most every 10 ms (R587). -/
theorem exec_throttleRaise_hot (hot : anyAtLeast [nth 0 s.env.now.packTemp p] (s.dieLimit 0) = true) (due : tabGet 0 s.env.raisedAt p ≤ s.clock) :
    exec (.throttleRaise (some p)) s =
      .next (raiseThrottle p (s.setRaisedAt (tabSet 0 s.env.raisedAt p (s.clock + 10 * msBeats)))) :=
  if_pos (Bool.and_eq_true_iff.mpr ⟨hot, decide_eq_true due⟩)

/-- A pack cool for 100 ms has its throttle step lowered (R587, R588). -/
theorem exec_throttleLower_cool (free : fieldOf s.env.clockdown p 1 = 0) (raised : 0 < (s.pack p).throttle)
    (cool : tabGet 0 s.env.coolSince p ≠ 0) (due : tabGet 0 s.env.coolSince p - 1 + 100 * msBeats ≤ s.clock) :
    exec (.throttleLower (some p)) s = .next (setThrottle p ((s.pack p).throttle - 1)
      { s with env := { s.env with coolSince := tabSet 0 s.env.coolSince p (s.clock + 1) } }) :=
  if_pos (by simp [free, raised, cool, due])

/-- Power within its limit raises no throttle step (R587). -/
theorem exec_throttleRaise_within (within : numLt s.powerLimit (f32Num s.env.now.pinAvg) = false) :
    exec (.throttleRaise none) s = .next s := if_neg (by simp [within])

end Throttle

section Valve

theorem exec_valveUpdate_held (held : s.power.valveHold = true) : exec .valveUpdate s = .next s := if_pos (by simp [held])

/-- The duty that VALVE_UPDATE sets (R592). -/
def State.valveSet (s : State) : BitVec 32 :=
  if s.env.clockdown ≠ 0 then f100 else if s.setting 0x0402 6 0 = 0 then f32Of (valveDuty s).1 else BitVec.ofNat 32 (s.setting 0x0402 7 f100.toNat)

theorem valveSet_manual (normal : s.env.clockdown = 0) (manual : s.setting 0x0402 6 0 ≠ 0) :
    s.valveSet = BitVec.ofNat 32 (s.setting 0x0402 7 0x42C80000) := by
  have full : f100.toNat = 0x42C80000 := by decide
  rw [State.valveSet, if_neg (not_not_intro normal), if_neg manual, full]

/-- VALVE_UPDATE of a valve that nothing holds sets the duty, and in mode 0 the integral (R592). -/
theorem exec_valveUpdate (booted : s.power.booted = true) (free : s.power.valveHold = false) : exec .valveUpdate s =
    .next { s with env := { s.env with
      valve := s.valveSet, integral := if s.setting 0x0402 6 0 = 0 then f32Of (valveDuty s).2 else s.env.integral } } :=
  if_neg (by simp [booted, free])

end Valve

/-- IIN beyond the envelope by more than 4 A clocks every pack down (R583). -/
theorem exec_iinExcess {i : BitVec 32} (booted : s.power.booted = true)
    (excess : numLt (addF32 (f32Num s.env.ienv) (natNum 4)) (f32Num i) = true) : exec (.iinExcess i) s =
      .next (clockDown (List.range 16) { s with env := { s.env with ienv := i, now := { s.env.now with iin := i } } }) :=
  if_neg (by simp [booted, excess])

/-- Flow low for 2 s cuts the power limit (R593). -/
theorem exec_flowLow {b : Nat} (low : s.env.flowLowSince = some b) (due : b + 2 * secBeats ≤ s.clock) :
    exec .flowLow s = .next { s with env := { s.env with flowCut := true } } := by
  change execFlowLow s = _
  simp only [execFlowLow, low, if_pos due]

/-- Settles O54: each clause by its command's lemma; what counting and alerts add changes neither the envelope's record nor a pack. -/
theorem envelopeControllerActs : Obligations.EnvelopeControllerActs := by
  refine fun s => ⟨fun r booted => ?thermal, fun p hot due => ⟨fun top => ?top, fun below => ?raise⟩, fun p free raised cool due => ?lower,
    exec_throttleRaise_within, fun booted free => ?valve, exec_valveUpdate_held, fun i => exec_iinExcess, fun b => exec_flowLow⟩
  case thermal =>
    obtain ⟨u, n, next, only, now, peak, energy⟩ := exec_thermalModelUpdate booted r
    have counts : CountsOnly u (u.envAlerts.foldl State.alert (u.bump 0x501F 3 n)) := (CountsOnly.bump u _ _ _).trans (.foldl CountsOnly.alert _ _)
    refine ⟨_, next, ?_, ?_, ?_, fun i inModule => ?_, ?_, ?_⟩
    · rw [counts.env, now]
    · rw [counts.env, peak]
    · rw [counts.env, energy]
    · have temps : u.hbmStacks = s.stackTemps r := by rw [only]
      rw [counts.stack, State.stack, temps, s.stackTemps_temp r inModule]
    · rw [counts.packs, only]
    · rw [counts.hbm, only]
  case top => rw [exec_throttleRaise_hot hot due, raiseThrottle_top (by rwa [State.setRaisedAt_pack])]; rfl
  case raise =>
    obtain ⟨step, alerted, env, others⟩ := raiseThrottle_below (p := p)
      (s := s.setRaisedAt (tabSet 0 s.env.raisedAt p (s.clock + 10 * msBeats))) (by rwa [State.setRaisedAt_pack])
    rw [State.setRaisedAt_pack] at step
    exact ⟨_, exec_throttleRaise_hot hot due, step, alerted, env, fun q other => (others q other).trans (s.setRaisedAt_pack _ q)⟩
  case lower =>
    refine ⟨_, exec_throttleLower_cool free raised cool due, setThrottle_throttle _ _ _, ?_, fun q => setThrottle_other _ _⟩
    rw [setThrottle_only]
  case valve =>
    refine ⟨_, exec_valveUpdate booted free, rfl, rfl, fun down => if_pos down, fun normal auto => ?_, fun normal manual => ?_⟩
    · exact ⟨(if_neg (not_not_intro normal)).trans (if_pos auto), if_pos auto⟩
    · exact ⟨valveSet_manual normal manual, if_neg manual⟩

end Sys2Proof.Machine
end
section
/-! SUPPORT. The host's accesses to HBM through BAR2, and its service sends (R498, R501, R504, R505, R510, R517). -/
namespace Sys2Proof.Machine

variable {fn : Fin 17} {off : BitVec 40} {ide : Bool} {s t : State}

section Read

/-- A read ends with its completion, or waits at the ring port (R384, R505). -/
def Bar2.endRead (access : Instr) (t : State) : Bar2 → State
  | .done l => cplStatus 0 l t
  | .refused rule => cplStatus (if rule ≤ 2 then 1 else 4) [] (t.bump 0x501D 1 1)
  | .held => { t with heldRing := t.heldRing ++ [access] }

variable {n : Fin 4097} (booted : s.power.booted = true) (exists_ : s.fnExists fn = true)
include booted exists_

theorem exec_bar2Read_closed (closed : s.barRefused fn ide = true) :
    exec (.bar2Read fn off n ide) s = .next (cplStatus 1 [] (s.bump 0x501D 1 1)) :=
  (if_neg (by simp [booted, exists_])).trans (if_pos closed)

/-- What a read answers follows from R505's outcome. -/
theorem exec_bar2Read (opened : s.barRefused fn ide = false) {r : Bar2} (outcome : bar2Read fn off.toNat n s = (r, t)) :
    exec (.bar2Read fn off n ide) s = .next (r.endRead (.bar2Read fn off n ide) t) := by
  change execBar2Read fn off n ide s = _
  rw [execBar2Read, if_neg (by simp [booted, exists_]), if_neg (by simp [opened]), outcome]
  cases r <;> rfl

end Read

section Write

/-- A posted write is done, discarded and counted, or waits at the ring port (R384, R505). -/
def Bar2.endWrite (access : Instr) (t : State) : Bar2 → State
  | .done _ => t
  | .refused _ => t.bump 0x501D 1 1
  | .held => { t with heldRing := t.heldRing ++ [access] }

variable {d : List Byte} (booted : s.power.booted = true) (exists_ : s.fnExists fn = true)
include booted exists_

theorem exec_bar2Write_closed (closed : s.barRefused fn ide = true) : exec (.bar2Write fn off d ide) s = .next (s.bump 0x501D 1 1) :=
  (if_neg (by simp [booted, exists_])).trans (if_pos closed)

/-- What a posted write does follows from R505's outcome. -/
theorem exec_bar2Write (opened : s.barRefused fn ide = false) {r : Bar2} (outcome : bar2Write fn off.toNat d s = (r, t)) :
    exec (.bar2Write fn off d ide) s = .next (r.endWrite (.bar2Write fn off d ide) t) := by
  change execBar2Write fn off d ide s = _
  rw [execBar2Write, if_neg (by simp [booted, exists_]), if_neg (by simp [opened]), outcome]
  cases r <;> rfl

end Write

theorem bar2Read_outside {fn a n : Nat} (outside : s.bar2Outside fn a n = true) : bar2Read fn a n s = (.refused 1, s) := if_pos outside

/-- A host write to what is read-only to the host is refused under rule 3 (R339, R505). -/
theorem bar2Write_readOnly {fn a : Nat} {d : List Byte} (inside : s.bar2Outside fn a d.length = false)
    (readOnly : s.hostReadOnly a d.length = true) : bar2Write fn a d s = (.refused 3, s) := by
  rw [bar2Write, if_neg (by simp [inside]), if_pos readOnly]

section Send
variable {ws : List Word} {desc : Word}

/-- A discarded descriptor sets the overflow flag and is counted, one whose block is held waits (R384, R510). -/
def SendRes.endSend (fn : Nat) (access : Instr) (t : State) : SendRes → State
  | .overflow => (t.modFn fn (fun f => { f with overflow := true })).bump 0x501D 4 1
  | .refused => t
  | .held => { t with heldRing := t.heldRing ++ [access] }
  | .queued => t

/-- A function's send window as a descriptor's write leaves it (R510). -/
def State.loadWindow (s : State) (fn : Nat) (ws : List Word) (desc : Word) : State :=
  s.modFn fn (fun f => { f with w := (List.range 16).foldl (fun t i => tabSet 0 t i (nth 0 ws i)) [], desc := desc })

theorem exec_serviceSendDesc_alien (bar : BarOpen fn ide s) (alien : s.ownsWindow fn = false) :
    exec (.serviceSendDesc fn ws desc ide) s = .next s := by
  change execServiceSendDesc fn ws desc ide s = _
  rw [execServiceSendDesc, barWrite_open bar, if_pos (by simp [alien])]

/-- A descriptor written to a window that the function owns does what judging it gives (R510). -/
theorem exec_serviceSendDesc_own (bar : BarOpen fn ide s) (own : s.ownsWindow fn = true) {r : SendRes}
    (judged : serviceSend fn (fitTo 0 16 ws) desc (s.loadWindow fn ws desc) = (r, t)) :
    exec (.serviceSendDesc fn ws desc ide) s = .next (r.endSend fn (.serviceSendDesc fn ws desc ide) t) := by
  change execServiceSendDesc fn ws desc ide s = _
  rw [State.loadWindow] at judged
  simp only [execServiceSendDesc, barWrite_open bar, own, Bool.not_true, Bool.false_eq_true, if_false, judged]
  cases r <;> rfl

/-- A ninth pending send, and a descriptor of no meaning, overflow (R510). -/
theorem serviceSend_overflow (excess : 8 ≤ s.pendingSends fn ∨ descBad desc = true) : serviceSend fn ws desc s = (.overflow, s) :=
  if_pos (by simpa using excess)

/-- A tuple to a destination that the function may address is queued (R504, R510). -/
theorem serviceSend_tuple (room : s.pendingSends fn < 8) (sound : descBad desc = false) (tuple : bitAt desc 63 = false)
    (admitted : fn = 0 ∨ (bitsOf desc 32 16 = s.device ∧ packOf (bitsOf desc 0 10) + 1 = fn)) :
    serviceSend fn ws desc s = (.queued, queueSend fn ws desc [] s) := by
  have reaches : (decide (1 ≤ fn.val) && decide (fn.val ≤ 16) &&
      !(decide (bitsOf desc 32 16 = s.device) && decide (packOf (bitsOf desc 0 10) + 1 = fn.val))) = false := by
    obtain rfl | ⟨device, pack⟩ := admitted
    · rfl
    · simp [device, pack]
  rw [serviceSend, if_neg (by simp [room, sound]), if_neg (by simpa using reaches), if_pos (by simp [tuple])]

end Send

/-- Settles O47: each access by R505's outcome, each descriptor by what judging it gives (log entry 51). -/
theorem hostReadsAndWritesOfHbm : Obligations.HostReadsAndWritesOfHbm := by
  refine fun fn off ide s booted exists_ => ⟨fun n => ⟨fun closed => ?readClosed, fun opened => ⟨fun l t => ?readDone, fun rule t => ?readRefused,
      fun t => ?readHeld, bar2Read_outside⟩⟩,
    fun d => ⟨fun closed => ?writeClosed, fun opened => ⟨fun l t => ?writeDone, fun rule t => ?writeRefused, fun t => ?writeHeld,
      bar2Write_readOnly⟩⟩,
    fun ws desc bar => ⟨exec_serviceSendDesc_alien bar, fun own => ⟨fun excess => ?overflow, fun room sound tuple admitted => ?queued⟩⟩⟩
  case readClosed => exact exec_bar2Read_closed booted exists_ closed
  case readDone => exact exec_bar2Read booted exists_ opened
  case readRefused =>
    intro outcome
    rw [exec_bar2Read booted exists_ opened outcome, Bar2.endRead, cplStatus]
    split <;> rfl
  case readHeld => exact exec_bar2Read booted exists_ opened
  case writeClosed => exact exec_bar2Write_closed booted exists_ closed
  case writeDone => exact exec_bar2Write booted exists_ opened
  case writeRefused => exact exec_bar2Write booted exists_ opened
  case writeHeld => exact exec_bar2Write booted exists_ opened
  case overflow =>
    have judged := serviceSend_overflow (ws := fitTo 0 16 ws) (s := s.loadWindow fn ws desc) excess
    rw [exec_serviceSendDesc_own bar own judged, SendRes.endSend, State.loadWindow]
  case queued =>
    have judged := serviceSend_tuple (ws := fitTo 0 16 ws) (s := s.loadWindow fn ws desc) room sound tuple admitted
    rw [exec_serviceSendDesc_own bar own judged, SendRes.endSend, State.loadWindow]

end Sys2Proof.Machine
end
section
/-! SUPPORT. The mailbox, frames on the management port, and the transfers that time out (R503, R509, R520-R534). -/
namespace Sys2Proof.Machine

section Notes

/-- Of the management controller nothing differs but the notifications sent and their number. -/
def NotesOnly (s t : State) : Prop := t.mgmt = { s.mgmt with nseq := t.mgmt.nseq, notes := t.mgmt.notes }

variable {s t u : State}

theorem NotesOnly.trans (h : NotesOnly s t) (h' : NotesOnly t u) : NotesOnly s u := by
  unfold NotesOnly at *
  rw [h', h]

theorem NotesOnly.of (same : t.mgmt = s.mgmt) : NotesOnly s t := by unfold NotesOnly; rw [same]

theorem NotesOnly.queue (h : NotesOnly s t) : t.mgmt.queue = s.mgmt.queue := by rw [h]

theorem NotesOnly.silent (h : NotesOnly s t) : t.mgmt.silent = s.mgmt.silent := by rw [h]

theorem NotesOnly.transfer (h : NotesOnly s t) (k : Nat) : t.transfer k = s.transfer k := by rw [State.transfer, h]; rfl

theorem NotesOnly.bumpRaw (s : State) (key n : Nat) : NotesOnly s (s.bumpRaw key n) := by
  unfold State.bumpRaw; dsimp only; split_ifs <;> exact .of rfl

theorem NotesOnly.raiseMsix (fn v : Nat) (s : State) : NotesOnly s (raiseMsix fn v s) := by
  unfold Machine.raiseMsix; dsimp only; split_ifs
  · exact .bumpRaw s _ _
  · exact .of rfl
  · exact .of rfl

theorem NotesOnly.notify (kind : Nat) (body : List Byte) (s : State) : NotesOnly s (notify kind body s) := by
  unfold Machine.notify; split_ifs
  · rfl
  · exact .bumpRaw s _ _

theorem NotesOnly.announceAlert (s : State) : NotesOnly s (announceAlert s) := (NotesOnly.notify _ _ s).trans (.raiseMsix _ _ _)

theorem NotesOnly.alert (s : State) (bit : Nat) : NotesOnly s (s.alert bit) := by
  unfold State.alert; split
  · exact .of rfl
  · exact NotesOnly.trans (.of rfl) (.announceAlert _)

/-- A record without a code of its own sends notifications alone (R470-R472). -/
theorem NotesOnly.freeRecord (s : State) : NotesOnly s (freeRecord s) := NotesOnly.trans (.of rfl) (.alert _ _)

end Notes

variable {s : State}

section Mailbox
variable {req : List Byte} {n : Fin 2049} {irq ide : Bool}

/-- MAILBOX_GO while BUSY is an overrun, and MB_LEN takes the length written (R509). -/
theorem exec_mailboxGo_busy (bar : BarOpen 0 ide s) (busy : s.host.mbBusy = true) :
    exec (.mailboxGo req n irq ide) s = .next { s with host := { s.host with mbOver := true, mbLen := n } } :=
  congrArg Host.Outcome.next ((barWrite_open bar _).trans (if_pos busy))

/-- MAILBOX_GO takes the request, sets BUSY, and answers what no opcode's command serves (R509, R523). -/
theorem exec_mailboxGo_idle (bar : BarOpen 0 ide s) (idle : s.host.mbBusy = false) :
    exec (.mailboxGo req n irq ide) s = .next (settle 9 { s with
      out := []
      host := { s.host with mbBusy := true, mbDone := false, mbOver := false, mbIrq := irq, mbLen := n, mbReq := fitTo 0 n req } }) :=
  congrArg Host.Outcome.next ((barWrite_open bar _).trans (if_neg (by simp [idle])))

end Mailbox

section Frames
variable {addr port : Nat} {multicast : Bool} {bytes : List Byte}

/-- A datagram of a port that is not silent is queued or discarded, then what no opcode's command serves is answered (R520, R523). -/
theorem exec_mgmtFrame_udp (speaks : s.portSilent = false) {d : Datagram} (good : d.bad = false) : exec (.mgmtFrame (.udp d)) s =
    .next (settle 9 (takeDatagram d.src.toNat d.srcPort.toNat d.multicast d.bytes { s with out := [] })) :=
  (if_neg (by simp [speaks])).trans (if_neg (by simp [good]))

theorem takeDatagram_multicast (many : multicast = true) (other : fld bytes 3 1 ≠ 1) : takeDatagram addr port multicast bytes s = s :=
  if_pos (by simp [many, other])

theorem takeDatagram_full (meant : multicast = false ∨ fld bytes 3 1 = 1) (full : 8 ≤ s.mgmt.queue.length) :
    takeDatagram addr port multicast bytes s = s.bump 0x501E 3 1 := by
  rw [takeDatagram, if_neg (by simpa [or_iff_not_imp_left] using meant), if_pos full]

theorem takeDatagram_room (meant : multicast = false ∨ fld bytes 3 1 = 1) (room : s.mgmt.queue.length < 8) :
    takeDatagram addr port multicast bytes s =
      { s with mgmt := { s.mgmt with queue := s.mgmt.queue ++ [{ addr := addr, port := port, bytes := bytes }] } } := by
  rw [takeDatagram, if_neg (by simpa [or_iff_not_imp_left] using meant), if_neg (Nat.not_le.mpr room)]

/-- Failed duplicate address detection silences the port and leaves its queue (R520). -/
theorem exec_mgmtFrame_dadFailed (speaks : s.portSilent = false) :
    ∃ u, exec (.mgmtFrame .dadFailed) s = .next u ∧ u.portSilent = true ∧ u.mgmt.queue = s.mgmt.queue := by
  have notes := NotesOnly.freeRecord { s with out := [], mgmt := { s.mgmt with silent := true } }
  refine ⟨_, if_neg (by simp [speaks]), ?_, notes.queue⟩
  simp [State.portSilent, notes.silent]

end Frames

section Timeout

/-- Whether a transfer ends at a time: it is open, not of KIND 2, and no message has named it for 600 s (R531). -/
def Transfer.due (x : Transfer) (now : Nat) : Bool := x.id ≠ 0 && x.kind ≠ 2 && decide (x.lastAt + 600 * secBeats ≤ now)

theorem Transfer.due_iff {x : Transfer} {now : Nat} :
    x.due now = true ↔ x.id ≠ 0 ∧ x.kind ≠ 2 ∧ x.lastAt + 600 * secBeats ≤ now := by simp [Transfer.due, and_assoc]

theorem State.setTransfer_self (s : State) (k : Nat) (x : Transfer) : (s.setTransfer k x).transfer k = x :=
  tabGet_tabSet_self Transfer.free _ _ _

theorem State.setTransfer_other (s : State) {k j : Nat} (x : Transfer) (other : j ≠ k) : (s.setTransfer k x).transfer j = s.transfer j :=
  tabGet_tabSet_other Transfer.free _ _ other

/-- The transfers of a list that are due have ended in `t`, and the other transfers, the request queue, HBM and the clock are as in `s`. -/
structure TransfersEnd (l : List Nat) (s t : State) : Prop where
  clock : t.clock = s.clock
  hbm : t.hbm = s.hbm
  queue : t.mgmt.queue = s.mgmt.queue
  transfer : ∀ k, t.transfer k = if k ∈ l ∧ (s.transfer k).due s.clock then .free else s.transfer k

theorem TransfersEnd.nil (s : State) : TransfersEnd [] s s := ⟨rfl, rfl, rfl, fun k => by simp⟩

theorem TransfersEnd.keeps (k : Nat) (s : State) (fresh : ¬ (s.transfer k).due s.clock = true) : TransfersEnd [k] s s :=
  ⟨rfl, rfl, rfl, fun j => by
    by_cases here : j = k
    · subst here; simp [fresh]
    · simp [here]⟩

/-- One after the other: transfers ended first are free, which is never due. -/
theorem TransfersEnd.cons {k : Nat} {l : List Nat} {s t u : State} (first : TransfersEnd [k] s t) (rest : TransfersEnd l t u) :
    TransfersEnd (k :: l) s u := by
  refine ⟨rest.clock.trans first.clock, rest.hbm.trans first.hbm, rest.queue.trans first.queue, fun j => ?_⟩
  rw [rest.transfer, first.transfer, first.clock]
  by_cases due : (s.transfer j).due s.clock = true
  · by_cases here : j = k
    · subst here; simp only [List.mem_cons, true_or, due, and_self, if_true, ite_self]
    · simp [here, due]
  · simp [due]

/-- A transfer that is due ends (R531). -/
def endDue (s : State) (k : Nat) : State := if (s.transfer k).due s.clock then endTransferOpen k s else s

/-- The end of a transfer frees its slot and leaves the other transfers, the request queue, HBM and the clock (R531). -/
theorem endTransferOpen_ends (k : Nat) (s : State) (due : (s.transfer k).due s.clock = true) : TransfersEnd [k] s (endTransferOpen k s) := by
  have counts := CountsOnly.notify 3 (leBytes 2 (s.fresh.2.transfer k).id ++ leBytes 1 (s.fresh.1.toNat % 256)) (s.fresh.2.setTransfer k .free)
  have notes := NotesOnly.notify 3 (leBytes 2 (s.fresh.2.transfer k).id ++ leBytes 1 (s.fresh.1.toNat % 256)) (s.fresh.2.setTransfer k .free)
  change TransfersEnd [k] s (notify 3 (leBytes 2 (s.fresh.2.transfer k).id ++ leBytes 1 (s.fresh.1.toNat % 256)) (s.fresh.2.setTransfer k .free))
  refine ⟨?_, ?_, notes.queue, fun j => (notes.transfer j).trans ?_⟩
  · rw [counts]; rfl
  · rw [counts]; rfl
  · by_cases here : j = k
    · subst here; simp [due, State.setTransfer_self]
    · rw [State.setTransfer_other _ _ here, if_neg (by simp [here])]; rfl

theorem endDue_ends (s : State) (k : Nat) : TransfersEnd [k] s (endDue s k) := by
  unfold endDue
  split
  next due => exact endTransferOpen_ends k s due
  next fresh => exact .keeps k s fresh

/-- SEG_TIMEOUT ends every transfer that is due (R531). -/
theorem exec_segTimeout (s : State) : ∃ t, exec .segTimeout s = .next t ∧ TransfersEnd (List.range 4) s t := by
  refine ⟨(List.range 4).foldl endDue s, rfl, ?_⟩
  generalize List.range 4 = l
  induction l generalizing s with
  | nil => exact .nil s
  | cons k l ih => exact .cons (endDue_ends s k) (ih _)

end Timeout

/-- Settles O48: each frame by its lemma, the transfers by `exec_segTimeout` (log entry 56). -/
theorem mailboxFramesAndTimeouts : Obligations.MailboxFramesAndTimeouts := by
  refine fun s => ⟨fun req n irq ide bar => ⟨exec_mailboxGo_busy bar, exec_mailboxGo_idle bar⟩, fun silent f => if_pos silent, fun speaks => ⟨
    fun d bad => ?bad, fun d good meant => ⟨fun room => ?room, fun full => ?full⟩, fun d good many other => ?multicast, fun src hop ext => ?icmp,
    ?other, ?collision, exec_mgmtFrame_dadFailed speaks⟩, ?timeout⟩
  case bad => exact (if_neg (by simp [speaks])).trans (if_pos bad)
  case room => rw [exec_mgmtFrame_udp speaks good, takeDatagram_room (s := { s with out := [] }) meant room]
  case full => rw [exec_mgmtFrame_udp speaks good, takeDatagram_full (s := { s with out := [] }) meant full]
  case multicast => rw [exec_mgmtFrame_udp speaks good, takeDatagram_multicast many other]
  case icmp => exact if_neg (by simp [speaks])
  case other => exact if_neg (by simp [speaks])
  case collision => exact if_neg (by simp [speaks])
  case timeout =>
    obtain ⟨t, next, ends⟩ := exec_segTimeout s
    refine ⟨t, next, ends.hbm, ends.queue, fun k slot => (ends.transfer k).trans ?_⟩
    simp only [List.mem_range, slot, true_and, Transfer.due_iff]
end Sys2Proof.Machine
end
section
/-! SUPPORT. How a request is served by the command of its opcode (R522-R525, R533, R538, R566). -/
namespace Sys2Proof.Machine

section Serve
variable {s u : State} {q : Request} {op e : Nat} {b : List Byte} {f : Request → State → Served × State}

/-- The state that a request's service starts from: nothing given back yet, and the request's session used (R566). -/
def State.serving (s : State) (q : Request) : State := touchSession q.sender { s with out := [] }

@[simp] theorem State.serving_power (s : State) (q : Request) : (s.serving q).power = s.power := by rw [State.serving, touchSession_power]

/-- The request served next, of a command's opcode and with none of the answers of R523 and R527 due, gets the answer that its service
gives. -/
theorem serveOp_reply (booted : s.power.booted = true) (next : s.nextRequest = some q) (unsettled : settleOne q s = none) (mine : q.op = op)
    (served : f q (s.serving q) = (.reply e b, u)) (up : u.power.booted = true) : serveOp op f s = settle 9 (respond q e b u) := by
  rw [State.serving] at served
  simp [serveOp, booted, next, unsettled, mine, served, up]

end Serve

section Describe
variable {q : Request} {t : State} (size : q.body.length = 4) (reserved : fld q.body 3 1 = 0)
include size reserved

/-- DESCRIBE of what is no object (R524). -/
theorem serveDescribe_unknown (none : dictObj (fld q.body 0 2) (fld q.body 2 1) = none) : serveDescribe q t = (refused stUnknown, t) := by
  simp [serveDescribe, size, reserved, none]

variable {r : ORow} (object : dictObj (fld q.body 0 2) (fld q.body 2 1) = some r)
include object

/-- DESCRIBE on the path that does not reach the object (R524, R551, R552). -/
theorem serveDescribe_wrongPath (wrong : wrongPath q.mailbox (fld q.body 0 2) = true) : serveDescribe q t = (refused stAccess, t) := by
  simp [serveDescribe, size, reserved, object, wrong]

/-- DESCRIBE of an object gives its type, access and size (R524). -/
theorem serveDescribe_object (right : wrongPath q.mailbox (fld q.body 0 2) = false) : serveDescribe q t =
    (.reply stDone (leBytes 1 r.typ.code ++ leBytes 1 r.acc.code ++ [0, 0] ++ leBytes 4 r.size), t) := by
  simp [serveDescribe, size, reserved, object, right]

end Describe

/-- A nonzero MASK makes the source the subscriber (R533). -/
theorem serveSubscribe_mask {q : Request} {t : State} {m : Byte} (body : q.body = [m]) (port : q.mailbox = false) (some_ : m ≠ 0) :
    serveSubscribe q t =
      (refused stDone, { t with mgmt := { t.mgmt with subAddr := q.addr, subPort := q.port, subMask := m.toNat } }) := by
  have mask : fld q.body 0 1 = m.toNat := by rw [body]; rfl
  have nonzero : m.toNat ≠ 0 := fun zero => some_ (BitVec.eq_of_toNat_eq zero)
  rw [serveSubscribe, mask, if_neg (by simp [body]), if_neg (by simp [port]), if_neg nonzero]

/-- Settles O49: every opcode by `serveOp_reply`, DESCRIBE and SUBSCRIBE by what their services give (log entries 56 and 57). -/
theorem requestsAreServedByOpcode : Obligations.RequestsAreServedByOpcode := by
  intro s q booted next unsettled
  have answers {op e b u f} (up : u.power.booted = true) (mine : q.op = op) (served : f q (s.serving q) = (.reply e b, u)) :
      Host.Outcome.next (serveOp op f s) = (.next (settle 9 (respond q e b u)) : Host.Outcome State Fault Refusal) :=
    congrArg _ (serveOp_reply booted next unsettled mine served up)
  have same : (s.serving q).power.booted = true := by rw [State.serving_power]; exact booted
  exact ⟨fun e b u up => ⟨answers up, fun _ => answers up, answers up, answers up, answers up, answers up, fun _ => answers up, answers up,
      fun _ => answers up, answers up, answers up⟩,
    fun r mine size reserved object wrong => answers same mine (serveDescribe_wrongPath size reserved object wrong),
    fun r mine size reserved object right => answers same mine (serveDescribe_object size reserved object right),
    fun mine size reserved none => answers same mine (serveDescribe_unknown size reserved none),
    fun m mine body port some_ => answers same mine (serveSubscribe_mask body port some_)⟩

end Sys2Proof.Machine
end
section
/-! SUPPORT. Committing, abandoning and trying firmware (R562, R572-R579, R584). -/
namespace Sys2Proof.Machine

section Components
variable {s : State} {c : Nat}

@[simp] theorem State.modComp_self (s : State) (c : Nat) (f : FwComp → FwComp) : (s.modComp c f).fwComp c = f (s.fwComp c) :=
  tabGet_tabMod_self _ _ _ _

@[simp] theorem FwComp.modSlot_self (k : FwComp) (i : Nat) (f : FwSlot → FwSlot) : (k.modSlot i f).fwSlot i = f (k.fwSlot i) :=
  tabGet_tabMod_self _ _ _ _

theorem setUpdate_fwComp (st result : Nat) (s : State) (c : Nat) : (setUpdate st result s).fwComp c = s.fwComp c := rfl

theorem State.fwComp_out (s : State) (out : List Byte) (c : Nat) : { s with out := out }.fwComp c = s.fwComp c := rfl

/-- Slots found below a floor change neither the active slot nor the trial (R577). -/
theorem FwComp.dropSlots_choice (low : FwComp → Nat → Bool) (f : FwSlot → FwSlot) (l : List Nat) (k : FwComp) :
    (l.foldl (fun k i => if low k i then k.modSlot i f else k) k).active = k.active ∧
    (l.foldl (fun k i => if low k i then k.modSlot i f else k) k).trial = k.trial := by
  induction l generalizing k with
  | nil => exact ⟨rfl, rfl⟩
  | cons i l ih =>
    obtain ⟨active, trial⟩ := ih (if low k i then k.modSlot i f else k)
    exact ⟨active.trans (by split <;> rfl), trial.trans (by split <;> rfl)⟩

/-- Raising a component's floor keeps its active slot and its trial (R577). -/
theorem raiseFloor_choice (c : Nat) (s : State) : ((raiseFloor c s).fwComp c).active = (s.fwComp c).active ∧
    ((raiseFloor c s).fwComp c).trial = (s.fwComp c).trial := by
  rw [raiseFloor, State.modComp_self]
  dsimp only
  split
  · exact ⟨rfl, rfl⟩
  · exact FwComp.dropSlots_choice _ _ _ _

end Components

section Restart

/-- An update flow in which no per-pack commit runs is kept in flash but for its moves (R575). -/
theorem Upd.stored_of {u : Upd} (idle : u.state ≠ 3 ∨ u.comp = 1) : u.stored = { u with moving := none, todo := [] } := by
  refine if_neg ?_
  obtain state | comp := idle
  · simp [state]
  · simp [comp]

theorem restart_upd (s : State) : (restart s).upd = s.upd.stored := rfl

theorem restart_dev (s : State) : (restart s).power.dev = .service := rfl

theorem restart_starting (s : State) : (restart s).power.starting = some .power := rfl

theorem restart_hbm (s : State) : (restart s).hbm = [] := rfl

/-- A restart keeps the commit records (R575). -/
theorem restart_fwComp {s : State} (idle : s.upd.state ≠ 3 ∨ s.upd.comp = 1) (c : Nat) : (restart s).fwComp c = s.fwComp c := by
  rw [State.fwComp, restart_upd, Upd.stored_of idle]; rfl

end Restart

section Commit
variable {s t : State} {r : Requester} {flash : Bool}

/-- An image stays staged while a session is used (R566). -/
theorem touchSession_staged (staged : s.upd.state = 4) : (touchSession r s).upd.state = 4 := by rwa [touchSession_upd]

/-- UPDATE_COMMAND 1 answers what it gives once its session has been used (R576). -/
theorem exec_updateCommit (answers : Answering s) : exec (.updateCommit r flash) s =
    .next { (updateCommit r flash (touchSession r s)).2 with out := [BitVec.ofNat 8 (updateCommit r flash (touchSession r s)).1] } :=
  congrArg _ (State.command_booted _ _ (answers.touchSession r).1 (answers.touchSession r).2)

/-- UPDATE_COMMAND 2 answers what it gives once its session has been used (R576). -/
theorem exec_updateAbandon (answers : Answering s) : exec (.updateAbandon r) s =
    .next { (updateAbandon r (touchSession r s)).2 with out := [BitVec.ofNat 8 (updateAbandon r (touchSession r s)).1] } :=
  congrArg _ (State.command_booted _ _ (answers.touchSession r).1 (answers.touchSession r).2)

/-- Without a staged image a command is busy while a commit runs and else a state error (R576). -/
theorem updateCommit_unstaged (unstaged : t.upd.state ≠ 4) :
    updateCommit r flash t = (if t.upd.state = 3 then stBusy else stState, t) := if_pos unstaged

theorem updateAbandon_unstaged (unstaged : t.upd.state ≠ 4) :
    updateAbandon r t = (if t.upd.state = 3 then stBusy else stState, t) := if_pos unstaged

theorem updateAbandon_locked (staged : t.upd.state = 4) (locked : t.updateLocked r = true) :
    updateAbandon r t = (stState, { t with upd := { t.upd with result := 0x0D } }) :=
  (if_neg (not_not_intro staged)).trans (if_pos locked)

theorem updateAbandon_done (staged : t.upd.state = 4) (free : t.updateLocked r = false) :
    updateAbandon r t = (stDone, setUpdate 0 0x11 (dropStaged t)) :=
  (if_neg (not_not_intro staged)).trans (if_neg (by simp [free]))

variable (staged : t.upd.state = 4)
include staged

theorem updateCommit_refused (refused : t.commitRefusal r ≠ 0) :
    updateCommit r flash t = (stState, { t with upd := { t.upd with result := t.commitRefusal r } }) :=
  (if_neg (not_not_intro staged)).trans (if_pos refused)

variable (accepted : t.commitRefusal r = 0)
include accepted

theorem updateCommit_failed : updateCommit r false t = (stFlash, setUpdate 7 0x10 t) :=
  (if_neg (not_not_intro staged)).trans ((if_neg (not_not_intro accepted)).trans (if_pos rfl))

/-- The state a commit of management firmware restarts from: its slot is active, on trial (R577). -/
def State.onTrial (s : State) : State :=
  let u := s.modComp 1 (fun k => { k with active := s.upd.slot, trial := true })
  { u with upd := { u.upd with state := 3, tried := false, trialSince := s.clock } }

theorem updateCommit_firmware (firmware : t.upd.comp = 1) : updateCommit r true t = (stDone, restart t.onTrial) :=
  (if_neg (not_not_intro staged)).trans ((if_neg (not_not_intro accepted)).trans ((if_neg (by decide)).trans (if_pos firmware)))

/-- A per-pack commit begins with the packs that are not on the slot yet (R578). -/
theorem updateCommit_perPack (packs : t.upd.comp = 2 ∨ t.upd.comp = 5) : updateCommit r true t = (stDone,
    nextMove { t with upd := { t.upd with
      state := 3, todo := t.updatePacks.filter (fun p => tabGet 0 (t.fwComp t.upd.comp).packSlot p ≠ t.upd.slot + 1) } }) := by
  have moves : perPack t.upd.comp = true := by simpa [perPack] using packs
  have other : t.upd.comp ≠ 1 := by omega
  exact (if_neg (not_not_intro staged)).trans ((if_neg (not_not_intro accepted)).trans
    ((if_neg (by decide)).trans ((if_neg other).trans (if_pos moves))))

end Commit

section Chosen
variable {s : State}

theorem State.onTrial_fwComp (s : State) : s.onTrial.fwComp 1 = { s.fwComp 1 with active := s.upd.slot, trial := true } :=
  s.modComp_self 1 (fun k => { k with active := s.upd.slot, trial := true })

/-- Abandoning a staged image changes the update flow alone (R576). -/
theorem setUpdate_dropStaged_only (st result : Nat) (s : State) :
    setUpdate st result (dropStaged s) = { s with upd := (setUpdate st result (dropStaged s)).upd } := rfl

theorem dropStaged_slot (s : State) : ((dropStaged s).fwComp s.upd.comp).fwSlot s.upd.slot = .empty := by
  rw [dropStaged, State.modComp_self, FwComp.modSlot_self]

/-- A reverted trial leaves the other slot active, off trial (R577). -/
theorem revertTrial_fwComp (s : State) : (revertTrial s).fwComp 1 = (s.fwComp 1).fallBack := s.modComp_self 1 _

theorem FwComp.fallBack_active (k : FwComp) : k.fallBack.active = 1 - k.active := rfl

theorem FwComp.fallBack_trial (k : FwComp) : k.fallBack.trial = false := rfl

/-- The state whose floor TRIAL_CONFIRM may raise: off trial, committed (R577). -/
def State.confirmed (s : State) : State :=
  let u := s.modComp 1 (fun k => { k with trial := false })
  setUpdate 5 0 { u with upd := { u.upd with slot := (s.fwComp 1).active, tried := false } }

theorem State.confirmed_fwComp (s : State) : s.confirmed.fwComp 1 = { s.fwComp 1 with trial := false } := s.modComp_self 1 (fun k => { k with trial := false })

end Chosen

section Trial
variable {s : State} (trial : (s.fwComp 1).trial = true) (tried : s.upd.tried = true) (holdup : s.env.holdupOk = true)
include trial tried holdup

theorem exec_trialConfirm (answers : Answering s) : exec .trialConfirm s = .next (raiseFloor 1 s.confirmed) :=
  if_neg (by simp [trial, tried, holdup, answers.1, answers.2])

theorem exec_trialTimeout (late : s.upd.trialSince + 30 * secBeats ≤ s.clock) : exec .trialTimeout s = .next (restart (revertTrial s)) :=
  if_pos (by rw [trial, tried, holdup, decide_eq_true late]; rfl)

end Trial

section Packs
variable {s : State} {p : Nat} {found : List VetFinding}

/-- PACK_COMMIT_DONE releases the pack in reset on the new slot, and the next begins (R578). -/
theorem exec_packCommitDone (moving : s.upd.moving = some p) : exec (.packCommitDone found) s = .next (
    let t := if s.upd.comp = 2 then packVet p found s else s
    nextMove (releaseMoved p (t.modComp t.upd.comp (fun c => { c with packSlot := tabSet 0 c.packSlot p (t.upd.slot + 1) })))) := by
  show execPackCommitDone found s = _
  simp only [execPackCommitDone, moving]

end Packs

/-- Settles O53: the commands' own equations, and what a restart keeps of the commit records. -/
theorem firmwareIsCommittedOrAbandoned : Obligations.FirmwareIsCommittedOrAbandoned := by
  intro s
  refine ⟨fun r flash answers => ⟨fun unstaged => ?unstaged, fun staged => ⟨fun refused => ?refused,
    fun accepted => ⟨?failed, ?firmware, ?perPack⟩, fun locked => ?locked, fun free => ?abandoned⟩⟩,
    fun p found moving => exec_packCommitDone moving, fun answers trial tried holdup => ?confirmed, fun trial tried holdup late => ?reverted⟩
  case unstaged =>
    have unstaged' : (touchSession r s).upd.state ≠ 4 := by rwa [touchSession_upd]
    rw [exec_updateCommit answers, exec_updateAbandon answers, updateCommit_unstaged unstaged', updateAbandon_unstaged unstaged',
      congrArg Upd.state touchSession_upd]
    constructor <;> split <;> rfl
  case refused => rw [exec_updateCommit answers, updateCommit_refused (touchSession_staged staged) refused]; rfl
  case failed =>
    rintro rfl
    rw [exec_updateCommit answers, updateCommit_failed (touchSession_staged staged) accepted]; rfl
  case firmware =>
    rintro rfl firmware
    rw [exec_updateCommit answers, updateCommit_firmware (touchSession_staged staged) accepted (by rwa [touchSession_upd])]
    let u := (touchSession r s).onTrial
    have comp := (restart_fwComp (s := u) (.inr ((congrArg Upd.comp touchSession_upd).trans firmware)) 1).trans (State.onTrial_fwComp _)
    exact ⟨_, rfl, restart_dev u, restart_starting u, (congrArg FwComp.active comp).trans (congrArg Upd.slot touchSession_upd),
      congrArg FwComp.trial comp, restart_hbm u, rfl⟩
  case perPack =>
    rintro rfl packs
    rw [exec_updateCommit answers, updateCommit_perPack (touchSession_staged staged) accepted (by rwa [touchSession_upd]), touchSession_only]
    rfl
  case locked => rw [exec_updateAbandon answers, updateAbandon_locked (touchSession_staged staged) locked]; rfl
  case abandoned =>
    rw [exec_updateAbandon answers, updateAbandon_done (touchSession_staged staged) free]
    refine ⟨{ setUpdate 0 0x11 (dropStaged (touchSession r s)) with out := [0] }, rfl, rfl, rfl, ?_, ?_⟩
    swap
    · exact congrArg (fun u : State => { u with out := [0] }) (setUpdate_dropStaged_only 0 0x11 (touchSession r s))
    have slot := dropStaged_slot (touchSession r s)
    rw [congrArg Upd.comp touchSession_upd, congrArg Upd.slot touchSession_upd] at slot
    rw [State.fwComp_out, setUpdate_fwComp, slot]
  case confirmed =>
    refine ⟨_, exec_trialConfirm trial tried holdup answers, ?_, ?_, rfl, rfl, rfl, rfl⟩
    · rw [(raiseFloor_choice 1 _).2, State.confirmed_fwComp]
    · rw [(raiseFloor_choice 1 _).1, State.confirmed_fwComp]
  case reverted =>
    have ended : (revertTrial s).upd.state ≠ 3 := show (7 : Nat) ≠ 3 by decide
    have kept := (restart_fwComp (s := revertTrial s) (.inl ended) 1).trans (revertTrial_fwComp s)
    refine ⟨_, exec_trialTimeout trial tried holdup late, ?_, ?_, ?_, ?_, restart_starting _⟩
    · rw [restart_upd, Upd.stored_of (.inl ended)]; rfl
    · rw [restart_upd, Upd.stored_of (.inl ended)]; rfl
    · rw [kept, FwComp.fallBack_trial]
    · rw [kept, FwComp.fallBack_active]

end Sys2Proof.Machine
end
section
/-! SUPPORT. What faults, Barks, stops and accesses leave of the module's power, its update flow and the hold-up bank (R424, R478, R588). -/
namespace Sys2Proof.Machine

/-- What no fault of the die changes: power, the update flow, HOLDUP_OK and the maintenance state. -/
def State.flow (s : State) : Power × Upd × Bool × Nat × Nat :=
  (s.power, s.upd, s.env.holdupOk, s.vet.maintState, s.vet.maintAction)

def FlowStays (s t : State) : Prop := t.flow = s.flow

section
variable {s₀ s t : State}

theorem FlowStays.power (h : FlowStays s t) : t.power = s.power := congrArg (fun x => x.1) h

theorem FlowStays.upd (h : FlowStays s t) : t.upd = s.upd := congrArg (fun x => x.2.1) h

theorem FlowStays.holdup (h : FlowStays s t) : t.env.holdupOk = s.env.holdupOk := congrArg (fun x => x.2.2.1) h

theorem FlowStays.maintState (h : FlowStays s t) : t.vet.maintState = s.vet.maintState := congrArg (fun x => x.2.2.2.1) h

theorem FlowStays.maintAction (h : FlowStays s t) : t.vet.maintAction = s.vet.maintAction := congrArg (fun x => x.2.2.2.2) h

theorem FlowStays.refl (s : State) : FlowStays s s := rfl

/-- A change of other parts of the state. -/
theorem FlowStays.of (h : FlowStays s₀ s) (same : t.flow = s.flow) : FlowStays s₀ t := same.trans h

/-- An update of the parts a fault may change. -/
theorem FlowStays.update {nonce progs load gen ports faults job mirror} (h : FlowStays s₀ s) : FlowStays s₀ { s with
    nonce := nonce, progs := progs, load := load, gen := gen, ports := ports, faults := faults, job := job, mirror := mirror } := .of h rfl

theorem FlowStays.setVet {vet : Vet} (h : FlowStays s₀ s) (state : vet.maintState = s.vet.maintState)
    (action : vet.maintAction = s.vet.maintAction) : FlowStays s₀ { s with vet := vet } := by
  refine .of h ?_
  simp only [State.flow, state, action]

theorem FlowStays.setEnv {env : Env} (h : FlowStays s₀ s) (holdup : env.holdupOk = s.env.holdupOk) :
    FlowStays s₀ { s with env := env } := by
  refine .of h ?_
  simp only [State.flow, holdup]

theorem FlowStays.counts (c : CountsOnly s t) (h : FlowStays s₀ s) : FlowStays s₀ t := by rw [c]; exact .of h rfl

theorem FlowStays.access (c : AccessOnly s t) (h : FlowStays s₀ s) : FlowStays s₀ t := by rw [c]; exact .of h rfl

theorem FlowStays.ite {c : Prop} [Decidable c] (h : FlowStays s₀ s) (k : FlowStays s₀ t) : FlowStays s₀ (if c then s else t) := by
  split
  · exact h
  · exact k

/-- As `FlowStays.ite`, where both branches go on from one state. -/
theorem FlowStays.iteOn {c : Prop} [Decidable c] {u : State} (k : FlowStays s₀ s → FlowStays s₀ t) (m : FlowStays s₀ s → FlowStays s₀ u)
    (h : FlowStays s₀ s) : FlowStays s₀ (if c then t else u) := .ite (k h) (m h)

/-- Steps taken one after another on what holds a state. -/
theorem FlowStays.foldlBy {α β : Type} {l : List α} {f : β → α → β} {x : β} (st : β → State) (h : FlowStays s₀ (st x))
    (k : ∀ {u a}, FlowStays s₀ (st u) → FlowStays s₀ (st (f u a))) : FlowStays s₀ (st (l.foldl f x)) := by
  induction l generalizing x with
  | nil => exact h
  | cons a l ih => exact ih (k h)

theorem FlowStays.foldl {α : Type} {l : List α} {f : State → α → State} (h : FlowStays s₀ s)
    (k : ∀ {u a}, FlowStays s₀ u → FlowStays s₀ (f u a)) : FlowStays s₀ (l.foldl f s) := .foldlBy id h k

end

section Parts
variable {s₀ s : State} {idx sub n bit p c g : Nat} {x : Pack → Pack} {y : Core → Core} (h : FlowStays s₀ s)
include h

theorem FlowStays.bump : FlowStays s₀ (s.bump idx sub n) := .counts (.bump s idx sub n) h

theorem FlowStays.alert : FlowStays s₀ (s.alert bit) := .counts (.alert s bit) h

theorem FlowStays.modPack : FlowStays s₀ (s.modPack p x) := .of h rfl

theorem FlowStays.modCore : FlowStays s₀ (s.modCore c y) := .of h rfl

theorem FlowStays.modProg {z : Program → Program} : FlowStays s₀ (s.modProg g z) := .of h rfl

theorem FlowStays.sendCtrl {body : CtrlBody} : FlowStays s₀ (sendCtrl p body s) := .of h rfl

theorem FlowStays.editFaultRecord {f : BitVec 128 → BitVec 128} : FlowStays s₀ (editFaultRecord n f s) := .of h rfl

theorem FlowStays.fresh : FlowStays s₀ s.fresh.2 := .of h rfl

end Parts

section Faults
variable {s₀ s : State} {code cls pack core stream n p g cause record origin via reason c : Nat}
  {f : BitVec 128 → BitVec 128} {body : CtrlBody} {except : Option Nat} {barkHowl : Time} {ofJob : Bool} {packs : List Nat}
  (h : FlowStays s₀ s)
include h

theorem FlowStays.writeFaultRecord : FlowStays s₀ (writeFaultRecord code cls pack core stream s) := by
  unfold Machine.writeFaultRecord
  exact .alert (.update h)

theorem FlowStays.setBarked : FlowStays s₀ (setBarked n s) := by
  unfold Machine.setBarked
  exact .editFaultRecord (.foldl h fun k => .ite k (.modPack k))

theorem FlowStays.stopPack : FlowStays s₀ (stopPack p s) := by
  unfold Machine.stopPack
  exact .modPack (.foldl h fun k => .ite k (.modCore k))

theorem FlowStays.startTeardown : FlowStays s₀ (startTeardown g cause s) := by
  unfold Machine.startTeardown
  exact .ite h
    (.iteOn (.update ·) id
      (.iteOn (.update ·) id
        (.foldl (.foldl (.setVet (.modProg h) rfl rfl) fun k => .modPack (.foldl (.stopPack k) fun m => .ite (.modCore m) (.modCore m)))
          (.access (.portWrite (.refl _))))))

theorem FlowStays.floodCtrl : FlowStays s₀ (floodCtrl except body s) := by
  unfold Machine.floodCtrl
  exact .foldl h fun k => .ite (.sendCtrl k) k

theorem FlowStays.barkDuplicate : FlowStays s₀ (barkDuplicate s) := by
  unfold Machine.barkDuplicate
  exact .ite (.bump h) (.update (.bump h))

theorem FlowStays.jobBark : FlowStays s₀ (jobBark origin via reason barkHowl s) := by
  unfold Machine.jobBark
  exact .ite (.barkDuplicate h)
    (.foldl (.alert (.update (.update (.foldl (.iteOn (.update ·) id (.floodCtrl (.bump (.update h)))) fun k => .foldl k .stopPack)))) .startTeardown)

theorem FlowStays.localBark : FlowStays s₀ (localBark reason s) := by
  unfold Machine.localBark
  exact .ite (.barkDuplicate h) (.foldl (.alert (.bump (.update h))) .startTeardown)

theorem FlowStays.originateBark : FlowStays s₀ (originateBark ofJob reason s) := by
  unfold Machine.originateBark
  exact .ite (.jobBark h) (.localBark h)

theorem FlowStays.barkAll {record : Bool} : FlowStays s₀ (barkAll reason record s) := by
  unfold Machine.barkAll
  exact .foldl h fun k => .ite (.iteOn .setBarked id (.originateBark (.ite (.writeFaultRecord k) k))) k

theorem FlowStays.barkPack : FlowStays s₀ (barkPack reason p s).2 := by
  dsimp only [Machine.barkPack]
  split
  · exact h
  · exact .originateBark h

theorem FlowStays.reportFault : FlowStays s₀ (reportFault code packs core stream s) := by
  dsimp only [Machine.reportFault]
  exact .iteOn (.foldl · .modPack) id (.iteOn .setBarked id (.foldlBy Prod.snd (.writeFaultRecord h) .barkPack))

end Faults

section ClockDown
variable {s₀ s : State} {port kind addr bits len p g c : Nat} {record dec : Bool} {packs : List Nat} {dst : Nat} {body : CtrlBody} (h : FlowStays s₀ s)
include h

theorem FlowStays.eccCorrected : FlowStays s₀ (eccCorrected c port addr bits s) := by
  unfold Machine.eccCorrected
  exact .modCore (.modCore (.bump h))

theorem FlowStays.eccUncorrectable : FlowStays s₀ (eccUncorrectable c port addr record s) := by
  unfold Machine.eccUncorrectable
  exact .ite h (.ite (.bump h) (.ite (.bump (.ite (.modCore h) h)) (.reportFault (.stopPack (.bump (.modCore h))))))

theorem FlowStays.drawn : FlowStays s₀ (s.drawn dec bits) := by
  unfold State.drawn
  exact .ite (.update h) h

omit h in
theorem FlowStays.eccReadWord {x : EccRead} (k : FlowStays s₀ x.st) : FlowStays s₀ (eccReadWord c port addr bits x).st := by
  dsimp only [Machine.eccReadWord]
  split
  · exact k
  · exact .eccCorrected k
  · exact .eccUncorrectable (.drawn k)
  · exact .eccCorrected (.fresh k)
  · exact .fresh k

theorem FlowStays.readWords : FlowStays s₀ (readWords c port addr len s).1.st :=
  .foldlBy EccRead.st h .eccReadWord

theorem FlowStays.abandonSlice : FlowStays s₀ (abandonSlice p s) := by
  dsimp only [Machine.abandonSlice]
  split
  · exact h
  refine .bump ?_
  split
  · exact .iteOn .readWords id (.modCore (.setVet h rfl rfl))
  · exact .setVet h rfl rfl

theorem FlowStays.sendCtrlTo : FlowStays s₀ (sendCtrlTo dst body s) := by
  unfold Machine.sendCtrlTo
  split
  · exact .sendCtrl h
  · exact h

theorem FlowStays.setGo {t : Time} : FlowStays s₀ (setGo packs t s) := by
  unfold Machine.setGo
  exact .foldl h .modPack

theorem FlowStays.postUp : FlowStays s₀ (postUp g s) := by
  unfold Machine.postUp Machine.deviceReady Machine.deviceGo
  exact .ite h (.ite (.ite h (.ite (.update (.setGo (.foldl h .sendCtrlTo))) (.ite h (.update (.sendCtrlTo h))))) (.setGo h))

theorem FlowStays.packPost : FlowStays s₀ (packPost p s) := by
  dsimp only [Machine.packPost]
  split
  · exact h
  · exact .ite h (.postUp (.modPack h))

theorem FlowStays.seamRateFault : FlowStays s₀ (seamRateFault g s) := by
  dsimp only [Machine.seamRateFault]
  split
  · exact h
  · exact .reportFault (.bump (.foldl (.modProg h) .stopPack))

/-- An emergency clock-down leaves power, the update flow, HOLDUP_OK and the maintenance state (R588). -/
theorem FlowStays.clockDown : FlowStays s₀ (clockDown packs s) := by
  unfold Machine.clockDown
  exact .foldl (.foldl (.foldl (.foldl (.setEnv (.alert (.bump h)) rfl) .abandonSlice) .modPack) .packPost) .seamRateFault

/-- A pack released from a per-pack commit leaves the update flow and HOLDUP_OK (R578). -/
theorem FlowStays.releaseMoved : FlowStays s₀ (releaseMoved p s) := by
  unfold Machine.releaseMoved
  exact .modPack (.foldl h .modCore)

end ClockDown
end Sys2Proof.Machine
end
section
/-! SUPPORT. Service at rest, the entry to Safe, and the loss of hold-up (R578, R584, R602, R604, R610-R613). -/
namespace Sys2Proof.Machine

section Rails

/-- The rails going off leave the rest of the power state (R611). -/
theorem railsOff_power (s : State) : (railsOff s).power = { s.power with rails := false, railsDue := false } := rfl

theorem railsOff_env (s : State) : (railsOff s).env = s.env := rfl

@[simp] theorem tapYield_power (s : State) : (tapYield s).power = s.power := by rw [tapYield_only]

/-- The rails going off keep the statistics (R493). -/
theorem toService_stats (s : State) : (toService s).stats = s.stats := rfl

end Rails

section Commands
variable {s t : State} {code : Nat}

/-- STATE_COMMAND 1 answers with the status it gives (R604). -/
theorem exec_stateService (answers : Answering s) (gives : stateService s = (code, t)) :
    exec .stateService s = .next { t with out := [BitVec.ofNat 8 code] } := by
  have answer := s.command_booted stateService answers.1 answers.2
  rw [gives] at answer
  exact congrArg _ answer

/-- STATE_COMMAND 2 answers with the status it gives (R604). -/
theorem exec_stateIdle (answers : Answering s) (gives : stateIdle s = (code, t)) :
    exec .stateIdle s = .next { t with out := [BitVec.ofNat 8 code] } := by
  have answer := s.command_booted stateIdle answers.1 answers.2
  rw [gives] at answer
  exact congrArg _ answer

theorem stateService_run (run : s.power.dev = .run) : stateService s = (stState, s) := by simp only [stateService, run]

theorem stateIdle_run (run : s.power.dev = .run) : stateIdle s = (stDone, s) := by simp only [stateIdle, run]

theorem stateIdle_idle (idle : s.power.dev = .idle) : stateIdle s = (stDone, s) := by simp only [stateIdle, idle]

theorem stateService_busy (idle : s.power.dev = .idle) (busy : s.shutdownBusy = true) : stateService s = (stBusy, s) := by
  simp only [stateService, idle, busy, if_true]

/-- A device in no job goes to Service at rest (R613). -/
theorem stateService_jobless (idle : s.power.dev = .idle) (free : s.shutdownBusy = false) (jobless : s.job.state = .none) :
    stateService s = (stDone, toService (tapYield s)) := by
  have jobless' : (tapYield s).job.state = .none := by rwa [tapYield_only]
  simp only [stateService, idle, free, jobless', if_true, Bool.false_eq_true, if_false]

theorem stateIdle_persists (service : s.power.dev = .service) (rest : s.power.starting = none) (persists : s.safeCausePersists = true) :
    stateIdle s = (stState, s) := by
  simp only [stateIdle, service, rest, persists, Option.isSome_none, Bool.false_eq_true, if_false, if_true]

/-- Start-up begins from Service at rest where no cause of Safe persists (R604). -/
theorem stateIdle_begins (service : s.power.dev = .service) (rest : s.power.starting = none) (clear : s.safeCausePersists = false) :
    stateIdle s = (stDone,
      { tapYield s with power := { s.power with starting := some .cold, step := 1, doing := 2, stalled := false } }) := by
  simp only [stateIdle, service, rest, clear, Option.isSome_none, Bool.false_eq_true, if_false, tapYield_power]

theorem stateIdle_safe (safe : s.power.dev = .safe) : stateIdle s = (stState, s) := by simp only [stateIdle, safe]

theorem stateService_kept (safe : s.power.dev = .safe) (kept : s.mayLeaveSafe = false) : stateService s = (stState, s) := by
  simp only [stateService, safe, kept, Bool.false_eq_true, if_false]

theorem stateService_leaves (safe : s.power.dev = .safe) (may : s.mayLeaveSafe = true) :
    stateService s = (stDone, tapYield (toService s)) := by
  simp only [stateService, safe, may, if_true]

end Commands

section Safe
variable {s : State} {cause : Nat}

/-- The power state of Safe, before anything is stopped (R611). -/
def State.safeBegun (cause : Nat) (s : State) : State :=
  { s with power := { s.power with
    dev := .safe, starting := none, ready := false, safeCause := cause, safeAt := s.clock, railsDue := s.power.rails, valveHold := true } }

/-- The alert, the Barks and the stops of the entry to Safe (R611). -/
def State.safeStopped (cause : Nat) (s : State) : State :=
  (List.range 16).foldl (fun s p => if (s.pack p).prog.isSome then stopPack p s else s)
    (barkAll 0xDA true (if cause ≤ 4 then s.alert 15 else s))

/-- The valve fully open, an update's moves cut and a recovery ended at the entry to Safe (R611, R614). -/
def State.safeValve (s : State) : State := { s with
  env := { s.env with valve := 0x42C80000 }
  upd := s.upd.interrupted
  faults := { s.faults with recovery := if s.faults.recovery = 0 then 0 else 3 } }

theorem enterSafe_eq (cause : Nat) (s : State) : enterSafe cause s =
    if cause = 3 then railsOff ((s.safeBegun cause).safeStopped cause).safeValve else ((s.safeBegun cause).safeStopped cause).safeValve := by
  unfold enterSafe
  extract_lets _ begun alerted barked stopped _ _ valve
  have halted : stopped = (s.safeBegun cause).safeStopped cause := rfl
  have last : valve = stopped.safeValve := rfl
  rw [last, halted]

theorem State.safeValve_power (s : State) : s.safeValve.power = s.power := rfl

theorem State.safeValve_valve (s : State) : s.safeValve.env.valve = 0x42C80000 := rfl

/-- Barks and stops leave the power state (R611). -/
theorem State.safeStopped_flow (cause : Nat) (s : State) : FlowStays s (s.safeStopped cause) :=
  .foldl (.barkAll (.ite (.alert (.refl s)) (.refl s))) fun k => .ite (.stopPack k) k

/-- The power state in Safe: the rails are off at once for a falling VIN (R611). -/
theorem enterSafe_power (cause : Nat) (s : State) : (enterSafe cause s).power = if cause = 3
    then { (s.safeBegun cause).power with rails := false, railsDue := false } else (s.safeBegun cause).power := by
  have kept := (State.safeValve_power _).trans ((s.safeBegun cause).safeStopped_flow cause).power
  rw [enterSafe_eq]
  split
  · rw [railsOff_power, kept]
  · exact kept

theorem enterSafe_valve (cause : Nat) (s : State) : (enterSafe cause s).env.valve = 0x42C80000 := by
  rw [enterSafe_eq]
  split
  · rw [railsOff_env, State.safeValve_valve]
  · rw [State.safeValve_valve]

theorem exec_safeEntry {cause : Fin 6} (real : cause ≠ 0) (on : s.power.dev ≠ .off) (other : s.power.dev ≠ .safe)
    (booted : s.power.booted = true) : exec (.safeEntry cause) s = .next (enterSafe cause s) := by
  have code : cause.val ≠ 0 := fun zero => real (Fin.ext zero)
  exact if_neg (by simp [code, on, other, booted])

end Safe

section Holdup
variable {s : State} {p : Nat}

/-- HOLDUP_OK low since now (R584). -/
def State.holdupLost (s : State) : State := { s with env := { s.env with holdupOk := false, holdupSince := s.clock } }

/-- No pack of a per-pack commit to move (R578). -/
def State.unmoved (s : State) : State := { s with upd := { s.upd with moving := none, todo := [] } }

/-- A per-pack commit in progress stops with its image staged and 0x14 (R578, R584). -/
def State.moveCut (s : State) : State :=
  match s.upd.moving with
  | none => s
  | some p => setUpdate 4 0x14 (releaseMoved p s.unmoved)

/-- Fusing in progress stops (R584). -/
def State.fusingCut (s : State) : State := if s.vet.maintState = 1 && s.vet.maintAction = 1 then setMaint 4 s else s

theorem exec_holdupLoss (high : s.env.holdupOk = true) (booted : s.power.booted = true) : exec .holdupLoss s =
    .next (((clockDown (List.range 16) s.holdupLost).moveCut.fusingCut).alert 9) := by
  show execHoldupLoss s = _
  simp only [execHoldupLoss, high, booted, State.holdupLost, Bool.not_true, Bool.false_eq_true, if_false]
  generalize clockDown (List.range 16) _ = c
  rfl

theorem exec_holdupLoss_off (high : s.env.holdupOk = true) (off : s.power.booted = false) : exec .holdupLoss s = .next s.holdupLost :=
  (if_neg (by simp [high])).trans (if_pos (by simp [off]))

theorem State.moveCut_none (still : s.upd.moving = none) : s.moveCut = s := by
  simp only [State.moveCut, still]

theorem State.moveCut_some (moving : s.upd.moving = some p) : s.moveCut = setUpdate 4 0x14 (releaseMoved p s.unmoved) := by
  simp only [State.moveCut, moving]

theorem setUpdate_upd (st result : Nat) (s : State) : (setUpdate st result s).upd = { s.upd with state := st, result := result } := rfl

theorem setUpdate_env (st result : Nat) (s : State) : (setUpdate st result s).env = s.env := rfl

/-- A commit that is cut is left staged, with no pack to move (R578). -/
theorem State.moveCut_upd (moving : s.upd.moving = some p) :
    s.moveCut.upd = { s.upd with state := 4, result := 0x14, moving := none, todo := [] } := by
  rw [State.moveCut_some moving, setUpdate_upd, (FlowStays.releaseMoved (.refl s.unmoved)).upd]
  rfl

theorem State.moveCut_holdup (s : State) : s.moveCut.env.holdupOk = s.env.holdupOk := by
  unfold State.moveCut
  split
  · rfl
  · rw [setUpdate_env, (FlowStays.releaseMoved (.refl s.unmoved)).holdup]
    rfl

theorem State.fusingCut_idle (idle : ¬ (s.vet.maintState = 1 ∧ s.vet.maintAction = 1)) : s.fusingCut = s := if_neg (by simpa using idle)

theorem State.fusingCut_upd (s : State) : s.fusingCut.upd = s.upd := by unfold State.fusingCut; split <;> rfl

theorem State.fusingCut_env (s : State) : s.fusingCut.env = s.env := by unfold State.fusingCut; split <;> rfl

end Holdup

section Settled
variable {s : State}

/-- A commit cut by the loss of hold-up stays staged (R578, R584). -/
theorem holdupLoss_cuts {p : Nat} (high : s.env.holdupOk = true) (booted : s.power.booted = true) (moving : s.upd.moving = some p) :
    ∃ t, exec .holdupLoss s = .next t ∧ t.upd.state = 4 ∧ t.upd.result = 0x14 ∧ t.upd.moving = none ∧ t.upd.todo = [] ∧
      t.env.holdupOk = false ∧ bitAt t.faults.alerts 9 = true := by
  let c := clockDown (List.range 16) s.holdupLost
  have clocked : FlowStays s.holdupLost c := .clockDown (.refl _)
  have alerted : FlowStays c.moveCut.fusingCut (c.moveCut.fusingCut.alert 9) := .alert (.refl _)
  have upd : (c.moveCut.fusingCut.alert 9).upd = { c.upd with state := 4, result := 0x14, moving := none, todo := [] } := by
    rw [alerted.upd, State.fusingCut_upd, State.moveCut_upd ((congrArg Upd.moving clocked.upd).trans moving)]
  have low : (c.moveCut.fusingCut.alert 9).env.holdupOk = false := by
    rw [alerted.holdup, State.fusingCut_env, State.moveCut_holdup, clocked.holdup]; rfl
  exact ⟨_, exec_holdupLoss high booted, congrArg Upd.state upd, congrArg Upd.result upd, congrArg Upd.moving upd, congrArg Upd.todo upd, low,
    State.alert_sets _ (by decide)⟩

/-- A clock-down alone where no commit and no fusing is in progress (R584). -/
theorem holdupLoss_idle (high : s.env.holdupOk = true) (booted : s.power.booted = true) (still : s.upd.moving = none)
    (idle : ¬ (s.vet.maintState = 1 ∧ s.vet.maintAction = 1)) :
    exec .holdupLoss s = .next ((clockDown (List.range 16) s.holdupLost).alert 9) := by
  have clocked : FlowStays s.holdupLost (clockDown (List.range 16) s.holdupLost) := .clockDown (.refl _)
  rw [exec_holdupLoss high booted, State.moveCut_none ((congrArg Upd.moving clocked.upd).trans still), State.fusingCut_idle]
  rwa [clocked.maintState, clocked.maintAction]

/-- Settles O45: the entry to Safe and the loss of hold-up by what faults and Barks leave, the commands by their states. -/
theorem serviceIdleSafeAndHoldup : Obligations.ServiceIdleSafeAndHoldup := by
  intro s
  refine ⟨fun answers => ⟨
      fun run => ⟨exec_stateService answers (stateService_run run), exec_stateIdle answers (stateIdle_run run)⟩,
      fun idle => ⟨exec_stateIdle answers (stateIdle_idle idle), fun busy => exec_stateService answers (stateService_busy idle busy),
        fun free jobless => ?jobless⟩,
      fun service rest => ⟨fun persists => exec_stateIdle answers (stateIdle_persists service rest persists),
        fun clear => exec_stateIdle answers (stateIdle_begins service rest clear)⟩,
      fun safe => ⟨exec_stateIdle answers (stateIdle_safe safe), fun kept => exec_stateService answers (stateService_kept safe kept),
        fun may => exec_stateService answers (stateService_leaves safe may)⟩⟩,
    fun cause real on other booted => ?safe, fun safe due => ⟨fun passed => ?off, fun early => ?early⟩,
    fun held passed => ?valve, fun high booted still idle => holdupLoss_idle high booted still idle,
    fun p high booted moving => holdupLoss_cuts high booted moving, fun high off => exec_holdupLoss_off high off,
    fun low => ⟨?lost, ?restored⟩, fun high => ?high⟩
  case jobless =>
    have goes := exec_stateService answers (stateService_jobless idle free jobless)
    have stats : (tapYield s).stats = s.stats := by rw [tapYield_only]
    exact ⟨goes, _, goes, rfl, rfl, rfl, rfl, rfl, rfl, (toService_stats _).trans stats, rfl⟩
  case safe =>
    have enters := exec_safeEntry real on other booted
    have power := enterSafe_power cause.val s
    refine ⟨enters, _, enters, ?_, ?_, ?_, ?_, ?_, enterSafe_valve cause.val s, ?_⟩
    iterate 5
      rw [power]
      split <;> rfl
    rintro rfl
    exact ⟨congrArg Power.rails power, congrArg State.hbm (enterSafe_eq 3 s)⟩
  case off => exact if_pos (by simp only [safe, due, decide_true, Bool.and_self, decide_eq_true passed])
  case early => exact if_neg (by simp only [decide_eq_false (Nat.not_le_of_lt early), Bool.and_false, Bool.false_eq_true, not_false_eq_true])
  case valve => exact if_pos (by rw [held, decide_eq_true passed]; rfl)
  case lost => exact if_pos (by rw [low]; rfl)
  case restored => exact if_neg (by rw [low]; exact Bool.false_ne_true)
  case high => exact if_pos high

end Settled
end Sys2Proof.Machine
end
